-- ==== Sys2Proof/Word.lean ====
section
/-! DEFINITION. Words, bytes and their plainest arithmetic: bit fields (spec/00_scope.md R6), byte order, sparse maps keyed by a number. -/

namespace Sys2Proof

abbrev Byte := BitVec 8
abbrev Word := BitVec 64
abbrev Half := BitVec 32

/-- A sparse map: keys strictly rising. What an unlisted key holds is said where the map is read. -/
abbrev SMap (α : Type) := List (Nat × α)

/-- The value at a key, or the default. -/
def SMap.look {α : Type} (d : α) : SMap α → Nat → α
  | [], _ => d
  | (i, x) :: m, k => if i = k then x else SMap.look d m k

/-- The value listed at a key, if any. -/
def SMap.find {α : Type} : SMap α → Nat → Option α
  | [], _ => none
  | (i, x) :: m, k => if i = k then some x else SMap.find m k

/-- The map with a key set. -/
def SMap.put {α : Type} : SMap α → Nat → α → SMap α
  | [], k, v => [(k, v)]
  | (i, x) :: m, k, v =>
    if k < i then (k, v) :: (i, x) :: m
    else if k = i then (k, v) :: m
    else (i, x) :: SMap.put m k v

/-- The map without a key. -/
def SMap.del {α : Type} : SMap α → Nat → SMap α
  | [], _ => []
  | (i, x) :: m, k => if i = k then m else (i, x) :: SMap.del m k

/-- The bits [lo + w - 1 : lo] of a number, bit 0 least significant (R6). -/
def bitsOf (lo w x : Nat) : Nat := x / 2 ^ lo % 2 ^ w

/-- Bit n of a number. -/
def bitOf (n x : Nat) : Bool := x.testBit n

/-- The field [lo + w - 1 : lo] of a 64-bit word (R6). -/
def fld (lo w : Nat) (x : Word) : Nat := bitsOf lo w x.toNat

/-- Bit n of a 64-bit word, numbered from the least significant (R6). -/
def bit (n : Nat) (x : Word) : Bool := x.getLsbD n

/-- The mask of w ones from bit lo. -/
def maskOf (lo w : Nat) : Word := BitVec.ofNat 64 ((2 ^ w - 1) * 2 ^ lo)

/-- The word with its field [lo + w - 1 : lo] replaced. -/
def setFld (lo w v : Nat) (x : Word) : Word :=
  (x &&& ~~~ maskOf lo w) ||| (BitVec.ofNat 64 (v % 2 ^ w * 2 ^ lo))

/-- A saturating addition to the field [lo + w - 1 : lo] (spec/15 R428). -/
def bumpBy (lo w n : Nat) (x : Word) : Word :=
  setFld lo w (min (fld lo w x + n) (2 ^ w - 1)) x

/-- A saturating increment of a counter field. -/
def bump (lo w : Nat) (x : Word) : Word := bumpBy lo w 1 x

/-- A list with a new item before the first one of a greater key. -/
def insertByKey {α : Type} (key : α → Nat) (x : α) : List α → List α
  | [] => [x]
  | y :: ys => if key x < key y then x :: y :: ys else y :: insertByKey key x ys

/-- A list in ascending order of a key; items of one key keep their order. -/
def sortByKey {α : Type} (key : α → Nat) (xs : List α) : List α := xs.foldl (fun a x => insertByKey key x a) []

def b2n (b : Bool) : Nat := if b then 1 else 0

/-- Fields (width, value) packed from bit 0 upward: bit n of byte b of the structure is bit 8b + n of the number (R6). -/
def pack : List (Nat × Nat) → Nat
  | [] => 0
  | (w, v) :: fs => v % 2 ^ w + 2 ^ w * pack fs

/-- The first n bytes of a number, least significant first (R6). -/
def toBytes : Nat → Nat → List Byte
  | 0, _ => []
  | n + 1, x => BitVec.ofNat 8 x :: toBytes n (x / 256)

/-- The number that bytes spell, least significant first (R6). -/
def ofBytes : List Byte → Nat
  | [] => 0
  | b :: bs => b.toNat + 256 * ofBytes bs

/-- Whether every item satisfies a test, for lists of numbers below n. -/
def allBelow (n : Nat) (f : Nat → Bool) : Bool := (List.range n).all f

/-- Smallest number below n that passes a test. -/
def firstBelow (n : Nat) (f : Nat → Bool) : Option Nat := (List.range n).find? f

/-- Ceiling division. -/
def cdiv (a b : Nat) : Nat := (a + b - 1) / b

end Sys2Proof
end

