-- ==== Sys2Proof/Syntax.lean ====
section
/-! DEFINITION. The commands of the block: one constructor of Instr per row of spec/opcode_table.json, with the row's operands; and the bodies they carry (command entries of spec/13, instruction formats of spec/09 and 10, frames of spec/04, 06, 07 and 08). -/

namespace Sys2Proof

/-- A partition, a queue of it, a port, a group slot. -/
abbrev Part := Fin 16
abbrev Queue := Fin 4
abbrev Port := Fin 8
abbrev Slot := Fin 16

/-- Header of a command entry (Table 13.1). -/
structure CmdHdr where
  cid : Nat
  epv : Bool
  fence : Bool
  epoch : Nat
  deriving DecidableEq, Repr

/-- The six argument words of a CALL (Table 13.3). -/
structure Args where
  a0 : Word
  a1 : Word
  a2 : Word
  a3 : Word
  a4 : Word
  a5 : Word
  deriving DecidableEq, Repr

/-- Body of EXPORT (Table 14.7). -/
structure ExportBody where
  wide : Bool
  stream : Bool
  pages : Bool
  entries : Nat
  mapAddr : Word
  area : Word
  areaSize : Nat
  copyBase : Word
  copyMib : Nat
  deriving DecidableEq, Repr

/-- Body of RESTORE (Table 14.7). -/
structure RestoreBody where
  verify : Bool
  entries : Nat
  mapAddr : Word
  manifest : Word
  deriving DecidableEq, Repr

/-- Format R with the common fields (Tables 9.4 and 9.5). -/
structure FmtR where
  pred : Fin 8
  pneg : Bool
  rd : Fin 32
  ra : Fin 32
  rb : Fin 32
  imm : Half
  deriving DecidableEq, Repr

/-- Format T, first word, with the common fields (Tables 9.4 and 9.6). -/
structure FmtT where
  pred : Fin 8
  pneg : Bool
  dst : Fin 64
  sa : Fin 64
  sb : Fin 64
  sc : Fin 64
  resume : Bool
  step : Bool
  slot : Fin 32
  ten : Bool
  tally : Fin 16384
  deriving DecidableEq, Repr

/-- Second word of class 2 (Table 10.4). -/
structure Sec2 where
  vreg : Fin 32
  xfill : Bool
  entry : Fin 32
  pop : Fin 4
  deriving DecidableEq, Repr

/-- Second word of classes 3 and 4 (Table 10.5). -/
structure Sec34 where
  in3 : Fin 64
  in4 : Fin 64
  out1 : Fin 64
  out2 : Fin 64
  out3 : Fin 64
  e3 : Bool
  e4 : Bool
  eo1 : Bool
  eo2 : Bool
  eo3 : Bool
  hreg : Fin 32
  mprog : Fin 16
  type : Fin 4
  rm : Fin 4
  lop : Fin 64
  deriving DecidableEq, Repr

/-- Second word of class 5 (Table 10.8). -/
structure Sec5 where
  gslot : Slot
  freg : Fin 32
  nreg : Fin 32
  pos : Fin 32
  deriving DecidableEq, Repr

/-- Second word of class 6 (Table 10.9). -/
structure Sec6 where
  in3 : Fin 64
  nin : Fin 4
  axes : Fin 16
  mode : Bool
  uneven : Bool
  ereg : Fin 32
  root : Fin 131072
  deriving DecidableEq, Repr

/-- Second word of class 7 (Table 10.11). -/
structure Sec7 where
  rkreg : Fin 32
  adreg : Fin 32
  dreg : Fin 32
  vreg : Fin 32
  size : Fin 8192
  coef : Byte
  arrive : Bool
  rtally : Fin 16384
  deriving DecidableEq, Repr

/-- A 4,096-byte unit: the bytes that are not zero, by rising offset. -/
abbrev UnitImg := List (Nat × Byte)

/-- A unit in squeezed form (Table 4.1): bytes stand in element order; RUNS is the count of RUNMASK. -/
structure Squeezed where
  crc : Half
  width : Fin 4
  runmask : Word
  bytes : UnitImg
  deriving DecidableEq, Repr

/-- Fabric frame header (Table 8.1). -/
structure FrameHdr where
  destCoord : Nat
  destRank : Nat
  srcRank : Nat
  tag : Nat
  gen : Nat
  part : Nat
  typ : Nat
  vc : Nat
  route : Nat
  raxis : Nat
  rdir : Nat
  daxis : Nat
  ddir : Nat
  accum : Bool
  ebound : Bool
  hops : Nat
  len : Nat
  epoch : Nat
  hcrc : Nat
  deriving DecidableEq, Repr

/-- Contribution header with its unit (Table 4.3); seq by column. -/
structure Contrib where
  epoch : Nat
  stripe : Nat
  slot : Slot
  row : Fin 4
  kind : Nat
  mask : Nat
  bypass : Nat
  seq : SMap Nat
  origin : Nat
  narrow : Bool
  guard : Bool
  attempt : Nat
  unit : Squeezed
  deriving DecidableEq, Repr

/-- One entry of a notice frame (Table 4.4). -/
structure NoticeEntry where
  stripe : Nat
  slot : Slot
  row : Fin 4
  column : Fin 16
  seq : Nat
  past : Bool
  suspect : Bool
  noImage : Bool
  rsvd : Nat
  deriving DecidableEq, Repr

/-- Notice frame (Table 4.4). -/
structure NoticeFrame where
  epoch : Nat
  crc : Half
  typ : Nat
  count : Nat
  attempt : Nat
  sub : Nat
  rsvd : Nat
  entries : List NoticeEntry
  deriving DecidableEq, Repr

/-- Decode chain or audit frame (Table 8.3). -/
structure ChainMsg where
  epoch : Nat
  stripe : Nat
  slot : Slot
  tkind : Nat
  index : Nat
  half : Bool
  sources : Nat
  attempt : Nat
  count : SMap Nat
  origin : Nat
  unit : Squeezed
  deriving DecidableEq, Repr

/-- Collective chunk (Table 6.4); payload by offset. -/
structure ChunkMsg where
  epoch : Nat
  seq : Nat
  span : Nat
  piece : Nat
  pieces : Nat
  kind : Nat
  mode : Bool
  op : Nat
  axes : Nat
  part : Nat
  format : Nat
  crc : Half
  bytes : Nat
  stage : Nat
  origin : Nat
  payload : UnitImg
  deriving DecidableEq, Repr

/-- Tarragon payload (Table 8.4). -/
structure Tarra where
  kind : Nat
  rank : Nat
  inc : Nat
  epoch : Nat
  cause : Nat
  count : Nat
  origin : Nat
  data : Nat
  attempt : Nat
  crc : Half
  deriving DecidableEq, Repr

/-- One step record entry (R136): the hyper-operand block and the microprogram words, with the descriptors of the walk (R199). -/
structure StepEntry where
  cls : Nat
  op : Nat
  hyper : List Half
  micro : List Word
  ins : List (List Word)
  outs : List (List Word)
  masks : List (List Word)
  deriving DecidableEq, Repr

/-- One record of the admission exchange (R375, R62, R112, R191), or one entry of a step record on its way to a target (R199; DESIGN CHOICE, log 69). Its place in DATA is not given by the spec. -/
inductive AdmitRec where
  | identity (id : Word)
  | gens (g : List Nat)
  | directory (g : Slot) (rank0 axis members standbys : Nat)
  | geometry (g : Slot) (rank0 dataUnits : Nat)
  | replica (index units : Nat)
  | takeRegion (index : Nat) (w0 w1 w2 w3 : Word)
  | takeSlot (g : Slot) (w0 w2 w3 w4 : Word)
  | step (index : Nat) (e : StepEntry)
  | done
  deriving DecidableEq, Repr

/-- Heartbeat frame (Table 7.1). -/
structure Beat where
  identity : Word
  inc : Nat
  rank : Nat
  quiet : Bool
  digest : Word
  epoch : Nat
  crc : Half
  deriving DecidableEq, Repr

/-- Memory request or response (Table 8.6). -/
structure MemMsg where
  op : Nat
  spart : Part
  opseq : Nat
  coef : Byte
  addr : Word
  size : Nat
  rstat : Nat
  data : List Byte
  deriving DecidableEq, Repr

/-- Copy unit or copy response (Table 8.7). -/
structure CopyMsg where
  copyId : Nat
  unit : Nat
  units : Nat
  daddr : Word
  tally : Nat
  arrive : Bool
  bytes : Nat
  rstat : Nat
  crc : Half
  payload : UnitImg
  deriving DecidableEq, Repr

/-- Wake payload (Table 8.25). -/
structure WakeMsg where
  identity : Word
  rank : Nat
  crc : Half
  deriving DecidableEq, Repr

/-- What a frame carries (Table 8.2). -/
inductive Payload where
  | contrib (c : Contrib)
  | notice (n : NoticeFrame)
  | chain (c : ChainMsg)
  | chunk (c : ChunkMsg)
  | tarra (t : Tarra) (r : Option AdmitRec)
  | beat (b : Beat)
  | mem (m : MemMsg)
  | copy (c : CopyMsg)
  | copyRsp (c : CopyMsg)
  | bulk (ms : List MemMsg)
  | wake (w : WakeMsg)
  deriving DecidableEq, Repr

structure Frame where
  hdr : FrameHdr
  body : Payload
  deriving DecidableEq, Repr

/-- What the peer sends at TRAIN (Table 8.8). -/
structure PeerInfo where
  identity : Word
  inc : Nat
  rank : Nat
  coord : Nat
  port : Port
  deriving DecidableEq, Repr

/-- Width of a register access (R9). -/
inductive Acc where
  | full
  | low
  | high
  deriving DecidableEq, Repr

/-- A read of the control port (R9): the aligned offset and the width. -/
structure CtlRd where
  off : Nat
  acc : Acc
  deriving DecidableEq, Repr

/-- A link flit (R244): its link word, and what the receiver's decoder found (R245, R249): the symbols corrected on each lane of a codeword that this flit completes, or that a codeword is uncorrectable. -/
structure Flit where
  lseq : Nat
  ack : Nat
  vc : Nat
  sof : Bool
  eof : Bool
  lkind : Nat
  fixes : List (Fin 17 × Nat)
  uncorrectable : Bool
  lanes : Nat
  deriving DecidableEq, Repr

/-- A service-port frame (Table 17.3). -/
structure SvcFrame where
  size64 : Bool
  count : Fin 16
  offset : Nat
  deriving DecidableEq, Repr

/-- Framing errors of the service port (Table 17.4). -/
inductive SvcError where
  | short
  | badCmd
  | extra
  deriving DecidableEq, Repr

/-- The commands of the block, one per row of spec/opcode_table.json. -/
inductive Instr where
  /-- NOP (R369): Command TYPE 0x00 that the front end completes without effect. -/
  | nop (p : Part) (q : Queue) (h : CmdHdr)
  /-- CALL (R254): Command that loads arguments into g24 to g30 and runs the named image entry until DONE. -/
  | call (p : Part) (q : Queue) (h : CmdHdr) (entry : Nat) (args : Args)
  /-- INSTR (R254): Command that executes one carried instruction of classes 2 to 9 in place. -/
  | instrCmd (p : Part) (q : Queue) (h : CmdHdr) (w1 : Word) (w2 : Word)
  /-- BIND (R373): Command that binds the partition to a job tag, advances GEN and resets sequence numbers. -/
  | bind (p : Part) (q : Queue) (h : CmdHdr) (tag : Nat)
  /-- UNBIND (R373): Command that unbinds the partition and clears FENCED, and for the step partition clears the fidelity record. -/
  | unbind (p : Part) (q : Queue) (h : CmdHdr)
  /-- PCFG (R374): Command that sets the partition's core mask, deferred to the next commit while bound. -/
  | pcfg (p : Part) (q : Queue) (h : CmdHdr) (mask : BitVec 16)
  /-- LOAD (R378): Command that reads an image into the staging bank and checks it under R279. -/
  | load (p : Part) (q : Queue) (h : CmdHdr) (addr : Word)
  /-- ADMIT (R375): ADMIN command that checks the block, advances the incarnation, exchanges ADMIT records and runs the seed sweeps. -/
  | admitJob (p : Part) (q : Queue) (h : CmdHdr) (compat : Bool) (n0 : Nat) (bitmap : Word)
  /-- ADMIT_TIMEOUT (R375): Expiry of the 10 s admission limit without the commit wave of n0 − 1; ADMIT completes PEER_FAILED. -/
  | admitTimeout
  /-- TEARDOWN (R377): ADMIN command that flushes the job's partitions, announces QUIET and discards the open epoch. -/
  | teardown (p : Part) (q : Queue) (h : CmdHdr)
  /-- SLOTTAB (R350): ADMIN command that checks and loads a chervil slot table. -/
  | slottab (p : Part) (q : Queue) (h : CmdHdr) (addr : Word)
  /-- EXPORT (R390): ADMIN command that checks the tensor map and arms an export of the named epoch. -/
  | exportCut (p : Part) (q : Queue) (h : CmdHdr) (b : ExportBody)
  /-- EXPORT_CANCEL (R404): ADMIN command that fails any armed or draining export with cause 1. -/
  | exportCancel (p : Part) (q : Queue) (h : CmdHdr)
  /-- RESTORE (R405): ADMIN command that loads shards of a job manifest into the block's regions by logical coordinates. -/
  | restore (p : Part) (q : Queue) (h : CmdHdr) (b : RestoreBody)
  /-- COMMAND_FETCH (R365): The front end takes a command from a submission queue once the paired completion queue has a free entry. -/
  | commandFetch (p : Part) (q : Queue)
  /-- SQ_DOORBELL (R364): Write of a submission queue tail that makes entries fetchable, or is counted as a doorbell-range violation. -/
  | sqDoorbell (p : Part) (q : Queue) (tail : Nat)
  /-- CQ_HEAD_DOORBELL (R366): Write of a completion queue head that frees completion entries. -/
  | cqHeadDoorbell (p : Part) (q : Queue) (head : Nat)
  /-- QUEUE_ENABLE (R363): Write of EN of a submission or completion queue that resets head, tail and phase, or on clearing flushes or discards entries. -/
  | queueEnable (p : Part) (q : Queue) (cq : Bool) (a : Acc) (v : Word)
  /-- FLUSH (R380): Write of TKJ_P_CTL.FLUSH that records the tails and stops the partition's work at progress points. -/
  | flush (p : Part)
  /-- RESET (R381): Write of TKJ_P_CTL.RESET that aborts the current command, flushes the queues and resets the Cuoner state. -/
  | reset (p : Part)
  /-- UNFENCE (R383): Write of TKJ_P_CTL.UNFENCE that ends a fence. -/
  | unfence (p : Part)
  /-- COAL_TIMER_EXPIRY (R385): Expiry of COAL_US after the first uncoalesced completion sends the queue's vector. -/
  | coalTimerExpiry (p : Part) (q : Queue)
  /-- VEC_UNMASK (R386): Write of TKJ_VEC_MAP clearing MASK that sends one message for a pending raise. -/
  | vecUnmask (n : Fin 96) (a : Acc) (v : Word)
  /-- REGION_WRITE (R27): Write of TKJ_REGION_SEL.WRITE that checks and installs a region entry or refuses it with a cause. -/
  | regionWrite (ix : Fin 16384)
  /-- REGION_READ (R26): Write of TKJ_REGION_SEL.READ that loads a region entry into TKJ_REGION_ENT. -/
  | regionRead (ix : Fin 16384)
  /-- GROUP_WRITE (R81): Write of word +0x00 of TKJ_GROUP[g] that enables a slot after geometry checks, or disables it. -/
  | groupWrite (g : Slot) (a : Acc) (v : Word)
  /-- XLAT_WRITE (R220): Write of TKJ_XLAT_SEL.WRITE that installs an exception entry while unbound. -/
  | xlatWrite (ix : Fin 4096)
  /-- XLAT_READ (R218): Write of TKJ_XLAT_SEL.READ that loads an exception entry into TKJ_XLAT_ENT. -/
  | xlatRead (ix : Fin 4096)
  /-- PAGE_READ (R338): Write of TKJ_PAGE_SEL.READ that loads a page record into TKJ_PAGE_REC. -/
  | pageRead (n : Nat)
  /-- CLEAR_LOST (R343): Write of TKJ_PAGE_CTL.CLEAR_LOST that makes LOST pages free again. -/
  | clearLost
  /-- DISARM (R324): Write of TKJ_PF_CTL.DISARM that lets transfers in flight arrive and starts no new one. -/
  | disarm (p : Part)
  /-- RESET_READERS (R331): Write of RESET_READERS that sets both bay reader counts of a model entry to 0. -/
  | resetReaders (e : Fin 32)
  /-- PUB_DIR_WRITE (R331): Write of word +0x00 of a publication entry that is checked and otherwise refused with PUB_BAD. -/
  | pubDirWrite (e : Fin 32) (a : Acc) (v : Word)
  /-- WARM (R441): Write of TKJ_GCTL.WARM that self-reports a bound member and then performs a warm reset. -/
  | warm
  /-- REQ_SLEEP (R432): Write of REQ 2 that requests entry to SLEEP or refuses it. -/
  | reqSleep
  /-- REQ_DEEP (R432): Write of REQ 3 that requests entry to DEEP or refuses it. -/
  | reqDeep
  /-- REQ_OFF (R432): Write of REQ 4 that requests entry to OFF or refuses it. -/
  | reqOff
  /-- REQ_RUN (R435): Write of REQ 0 that is wake source 1, or aborts an entry in progress. -/
  | reqRun
  /-- KEEP_WRITE (R423): Aligned 64-bit write of a keep word that starts programming, or is denied, or is dropped while BUSY. -/
  | keepWrite (n : Fin 64) (a : Acc) (v : Word)
  /-- KEEP_PROGRAM_DONE (R424): End of keep word programming with read-back, wear count and wear alerts. -/
  | keepProgramDone (readBack : Word)
  /-- SNAP (R426): Write of TKJ_KEEP_STAT.SNAP that writes the lifetime snapshot to keep words 19 to 26. -/
  | snap
  /-- KEEP_SNAPSHOT_TIMER (R426): Expiry of each 86,400 s of TKJ_TIME that writes the lifetime snapshot. -/
  | keepSnapshotTimer
  /-- ECC_SPLIT_KEY (R421): Write of the KEY of TKJ_ECC_SPLIT that advances or exits the split-write unlock sequence. -/
  | eccSplitKey (a : Acc) (v : Word)
  /-- WAKE_NB (R226): Write of TKJ_PORT_CTL.WAKE_NB that sends a WAKE frame to the neighbour or is refused. -/
  | wakeNb (port : Port)
  /-- REC_RECORD (R358): Write of OP 1 in TKJ_REC_CTL that starts a recording at the next cycle, commit or frame boundary. -/
  | recRecord (v : Word)
  /-- REC_REPLAY (R359): Write of OP 2 in TKJ_REC_CTL that checks the log and starts a replay or refuses it. -/
  | recReplay (v : Word)
  /-- REC_STOP (R362): Write of OP 0 in TKJ_REC_CTL that ends a recording with an END entry or ends a replay without DONE. -/
  | recStop (v : Word)
  /-- TALLY_WRITE (R273): Control-port write of a tally, applied before that cycle's increments. -/
  | tallyWrite (n : Fin 16384) (hi : Bool) (a : Acc) (v : Word)
  /-- TIMER_WRITE (R276): Control-port write of a partition timer, which leaves EN 0 for a periodic period below 40 ns. -/
  | timerWrite (p : Part) (t : Fin 64) (hi : Bool) (a : Acc) (v : Word)
  /-- PAD_RELEASE (R438): Write of 1 to a TKJ_PAD_HOLD bit that releases a held pad group once its domain runs. -/
  | padRelease (v : Fin 32)
  /-- RC_READ (R9, R10): Aligned 64-bit read of an RC register that returns and clears the value, or aligned 32-bit read of a half, which clears nothing. -/
  | rcRead (r : CtlRd)
  /-- REGISTER_WRITE (R12): Write of a register with no row of its own, applied under its access type, deferral or freezing rules. -/
  | registerWrite (off : Nat) (a : Acc) (v : Word)
  /-- NOP_INSTR (R285): Control instruction that does nothing. -/
  | nopInstr (p : Part) (f : FmtR)
  /-- BR (R285): Branch to PC plus IMM. -/
  | br (p : Part) (f : FmtR)
  /-- JAL (R285): Branch and link into gD. -/
  | jal (p : Part) (f : FmtR)
  /-- JR (R285): Jump to the address in gA. -/
  | jr (p : Part) (f : FmtR)
  /-- DONE (R254): Completes the current command with a code or ST and returns to DISPATCH. -/
  | done (p : Part) (f : FmtR)
  /-- ERETI (R271): Returns from the handler and resumes a suspended long instruction. -/
  | ereti (p : Part) (f : FmtR)
  /-- MFS (R285): Reads a special register into gD. -/
  | mfs (p : Part) (f : FmtR)
  /-- MTS (R286): Writes ST, EMASK or EIE, or clears EPEND bits. -/
  | mts (p : Part) (f : FmtR)
  /-- SLOTST (R285): Reads busy and status of a completion slot. -/
  | slotst (p : Part) (f : FmtR)
  /-- LI (R287): Loads a sign-extended immediate. -/
  | li (p : Part) (f : FmtR)
  /-- LIH (R287): Loads the upper 32 bits of gD. -/
  | lih (p : Part) (f : FmtR)
  /-- MOV (R287): Copies gA into gD. -/
  | mov (p : Part) (f : FmtR)
  /-- ADD (R287): Wrapping 64-bit add, register or immediate form. -/
  | add (p : Part) (f : FmtR) (im : Bool)
  /-- SUB (R287): Wrapping 64-bit subtract. -/
  | sub (p : Part) (f : FmtR) (im : Bool)
  /-- MUL (R287): Low 64 bits of the product. -/
  | mul (p : Part) (f : FmtR) (im : Bool)
  /-- MULHU (R287): High 64 bits of the unsigned product. -/
  | mulhu (p : Part) (f : FmtR) (im : Bool)
  /-- ADDS (R287): Signed saturating add. -/
  | adds (p : Part) (f : FmtR) (im : Bool)
  /-- SUBS (R287): Signed saturating subtract. -/
  | subs (p : Part) (f : FmtR) (im : Bool)
  /-- AND (R287): Bitwise AND. -/
  | and (p : Part) (f : FmtR) (im : Bool)
  /-- OR (R287): Bitwise OR. -/
  | or (p : Part) (f : FmtR) (im : Bool)
  /-- XOR (R287): Bitwise XOR. -/
  | xor (p : Part) (f : FmtR) (im : Bool)
  /-- SHL (R287): Shift left. -/
  | shl (p : Part) (f : FmtR) (im : Bool)
  /-- SHR (R287): Logical shift right. -/
  | shr (p : Part) (f : FmtR) (im : Bool)
  /-- SAR (R287): Arithmetic shift right. -/
  | sar (p : Part) (f : FmtR) (im : Bool)
  /-- MIN (R287): Signed minimum. -/
  | min (p : Part) (f : FmtR) (im : Bool)
  /-- MAX (R287): Signed maximum. -/
  | max (p : Part) (f : FmtR) (im : Bool)
  /-- MINU (R287): Unsigned minimum. -/
  | minu (p : Part) (f : FmtR) (im : Bool)
  /-- MAXU (R287): Unsigned maximum. -/
  | maxu (p : Part) (f : FmtR) (im : Bool)
  /-- CEQ (R287): Sets a predicate on equality. -/
  | ceq (p : Part) (f : FmtR) (im : Bool)
  /-- CNE (R287): Sets a predicate on inequality. -/
  | cne (p : Part) (f : FmtR) (im : Bool)
  /-- CLT (R287): Sets a predicate on signed less-than. -/
  | clt (p : Part) (f : FmtR) (im : Bool)
  /-- CLTU (R287): Sets a predicate on unsigned less-than. -/
  | cltu (p : Part) (f : FmtR) (i : Bool)
  /-- CLE (R287): Sets a predicate on signed less-or-equal. -/
  | cle (p : Part) (f : FmtR) (i : Bool)
  /-- CLEU (R287): Sets a predicate on unsigned less-or-equal. -/
  | cleu (p : Part) (f : FmtR) (i : Bool)
  /-- PAND (R287): Predicate AND. -/
  | pand (p : Part) (f : FmtR)
  /-- POR (R287): Predicate OR. -/
  | por (p : Part) (f : FmtR)
  /-- PNOT (R287): Predicate NOT. -/
  | pnot (p : Part) (f : FmtR)
  /-- PSET (R287): Sets a predicate from IMM[0]. -/
  | pset (p : Part) (f : FmtR)
  /-- LD (R288): Loads 8 bytes within the partition window. -/
  | ld (p : Part) (f : FmtR)
  /-- STG (R288): Stores 8 bytes, through the coded-store path for coded regions. -/
  | stg (p : Part) (f : FmtR)
  /-- LDD (R288): Loads a 48-byte descriptor from memory. -/
  | ldd (p : Part) (f : FmtR)
  /-- STD (R288): Stores a descriptor to memory. -/
  | std (p : Part) (f : FmtR)
  /-- DPUT (R288): Writes one word of a descriptor register. -/
  | dput (p : Part) (f : FmtR)
  /-- DGET (R288): Reads one word of a descriptor register. -/
  | dget (p : Part) (f : FmtR)
  /-- TENSOR_MOV (R289): Long instruction that moves elements from SA to DST. -/
  | tensorMov (p : Part) (f : FmtT) (x : Sec2)
  /-- CVT (R325): Long instruction that converts elements through the format unit. -/
  | cvt (p : Part) (f : FmtT) (x : Sec2)
  /-- FILL (R289): Long instruction that fills DST with the low bits of a register. -/
  | fill (p : Part) (f : FmtT) (x : Sec2)
  /-- COMPRESS (R140): Long instruction that packs masked elements into a dense destination and reports the count. -/
  | compress (p : Part) (f : FmtT) (x : Sec2)
  /-- EXPAND (R141): Long instruction that spreads a dense source into masked positions. -/
  | expand (p : Part) (f : FmtT) (x : Sec2)
  /-- PUBLISH (R334): Long instruction that writes the inactive bay of a model entry, or completes NO_ROOM or STALE_EPOCH. -/
  | publish (p : Part) (f : FmtT) (x : Sec2)
  /-- PFARM (R321): Instruction that checks and arms a prefetch schedule on the tier mover. -/
  | pfarm (p : Part) (f : FmtT) (x : Sec2)
  /-- PAGE_SEAL (R291): Long instruction that applies SEAL to each listed page. -/
  | pageSeal (p : Part) (f : FmtT) (x : Sec2)
  /-- PAGE_RETAIN (R291): Long instruction that applies RETAIN to each listed page. -/
  | pageRetain (p : Part) (f : FmtT) (x : Sec2)
  /-- PAGE_RELEASE (R291): Long instruction that applies RELEASE to each listed page. -/
  | pageRelease (p : Part) (f : FmtT) (x : Sec2)
  /-- EW (R293): Long lane instruction that applies one lane operation to every element. -/
  | ew (p : Part) (f : FmtT) (x : Sec34)
  /-- MAP (R293): Long lane instruction that runs a non-STEP microprogram on every element. -/
  | map (p : Part) (f : FmtT) (x : Sec34)
  /-- ADAMW (R132): Fused AdamW optimizer instruction, optionally marked STEP. -/
  | adamw (p : Part) (f : FmtT) (x : Sec34)
  /-- LION (R132): Fused Lion optimizer instruction, optionally marked STEP. -/
  | lion (p : Part) (f : FmtT) (x : Sec34)
  /-- SGDM (R132): Fused SGD with momentum instruction, optionally marked STEP. -/
  | sgdm (p : Part) (f : FmtT) (x : Sec34)
  /-- MSTEP (R294): Optimizer instruction that runs a microprogram under the step rules and landing waves. -/
  | mstep (p : Part) (f : FmtT) (x : Sec34)
  /-- CODE_DELTA (R297): Long instruction that XORs SA into EXACT DST and codes SA as the delta. -/
  | codeDelta (p : Part) (f : FmtT) (x : Sec5)
  /-- CODE_FRESH (R298): Step-partition instruction that runs the guard sweep of a FRESH slot after the vote result. -/
  | codeFresh (p : Part) (f : FmtT) (x : Sec5)
  /-- AUDIT (R299): Open instruction that audits a range of stripes for which this block holds row 0. -/
  | audit (p : Part) (f : FmtT) (x : Sec5)
  /-- REBUILD (R300): Open instruction that joins or starts a pending rebuild of a group of this block. -/
  | rebuild (p : Part) (f : FmtT) (x : Sec5)
  /-- DECODE_UNIT (R301): Long instruction that decodes a member's coded image of a range of data units into DST. -/
  | decodeUnit (p : Part) (f : FmtT) (x : Sec5)
  /-- RS (R302): Open reduce-scatter collective, the step reduce when marked STEP. -/
  | rs (p : Part) (f : FmtT) (x : Sec6)
  /-- AG (R302): Open all-gather collective. -/
  | ag (p : Part) (f : FmtT) (x : Sec6)
  /-- AR (R302): Open all-reduce collective. -/
  | ar (p : Part) (f : FmtT) (x : Sec6)
  /-- BC (R302): Open broadcast collective. -/
  | bc (p : Part) (f : FmtT) (x : Sec6)
  /-- RLOAD (R304): Remote load that waits for its response. -/
  | rload (p : Part) (f : FmtT) (x : Sec7)
  /-- RSTORE (R304): Open remote store. -/
  | rstore (p : Part) (f : FmtT) (x : Sec7)
  /-- RADD32 (R304): Remote 32-bit atomic add. -/
  | radd32 (p : Part) (f : FmtT) (x : Sec7)
  /-- RADD64 (R304): Remote 64-bit atomic add. -/
  | radd64 (p : Part) (f : FmtT) (x : Sec7)
  /-- RSWAP (R304): Remote atomic swap. -/
  | rswap (p : Part) (f : FmtT) (x : Sec7)
  /-- RCAS (R304): Remote compare-and-swap. -/
  | rcas (p : Part) (f : FmtT) (x : Sec7)
  /-- RAND (R304): Remote atomic AND. -/
  | rand (p : Part) (f : FmtT) (x : Sec7)
  /-- ROR (R304): Remote atomic OR. -/
  | ror (p : Part) (f : FmtT) (x : Sec7)
  /-- RXOR (R304): Remote atomic XOR. -/
  | rxor (p : Part) (f : FmtT) (x : Sec7)
  /-- RUMIN (R304): Remote atomic unsigned minimum. -/
  | rumin (p : Part) (f : FmtT) (x : Sec7)
  /-- RUMAX (R304): Remote atomic unsigned maximum. -/
  | rumax (p : Part) (f : FmtT) (x : Sec7)
  /-- RGFMAC (R304): Open remote GF multiply-accumulate. -/
  | rgfmac (p : Part) (f : FmtT) (x : Sec7)
  /-- RTADD (R304): Open remote tally add. -/
  | rtadd (p : Part) (f : FmtT) (x : Sec7)
  /-- COPY (R242): Open asynchronous copy of a local extent to a remote extent. -/
  | copy (p : Part) (f : FmtT) (x : Sec7)
  /-- TINC (R306): Increments a tally. -/
  | tinc (p : Part) (f : FmtR)
  /-- TSET (R307): Sets a tally's COUNT. -/
  | tset (p : Part) (f : FmtR)
  /-- TTGT (R307): Sets a tally's TARGET. -/
  | ttgt (p : Part) (f : FmtR)
  /-- TADV (R306): Advances a tally's TARGET. -/
  | tadv (p : Part) (f : FmtR)
  /-- TRD (R306): Reads TARGET and COUNT of a tally at one instant. -/
  | trd (p : Part) (f : FmtR)
  /-- TWAIT (R306): Waits until a tally is reached. -/
  | twait (p : Part) (f : FmtR)
  /-- SWAIT (R306): Waits until a completion slot is idle and takes its status. -/
  | swait (p : Part) (f : FmtR)
  /-- EWAIT (R306): Waits until a masked event is pending. -/
  | ewait (p : Part) (f : FmtR)
  /-- TMSET (R306): Starts a partition timer. -/
  | tmset (p : Part) (f : FmtR)
  /-- TMSTOP (R306): Stops a partition timer. -/
  | tmstop (p : Part) (f : FmtR)
  /-- TMTAKE (R308): Takes and clears a timer's EXPIRED and MISSED. -/
  | tmtake (p : Part) (f : FmtR)
  /-- EDGE (R277): Edge-take that returns and clears LATCHED and COUNT of an edge detector. -/
  | edge (p : Part) (f : FmtR)
  /-- EDSET (R306): Configures an edge detector. -/
  | edset (p : Part) (f : FmtR)
  /-- FENCE (R310): Waits until earlier writes are visible and deltas are in the outbox, optionally until slots are idle. -/
  | fence (p : Part) (f : FmtR)
  /-- ENDUPD (R311): Step partition declares that no further STEP optimizer instruction is issued in the open epoch. -/
  | endupd (p : Part) (f : FmtR)
  /-- WAITEP (R310): Waits for an epoch or phase. -/
  | waitep (p : Part) (f : FmtR)
  /-- VOTERD (R310): Reads the vote result of the open epoch. -/
  | voterd (p : Part) (f : FmtR)
  /-- IDLE (R312): Requests IDLE for the partition and waits for a command or event. -/
  | idle (p : Part) (f : FmtR)
  /-- GRANULE_END (R263): A granule of a long instruction ends; progress is recorded and the instruction completes or stops at this boundary. -/
  | granuleEnd (p : Part)
  /-- EVENT_TAKE (R270): The sequencer takes a pending enabled event and enters the handler at entry 2. -/
  | eventTake (p : Part)
  /-- TIMER_EXPIRY (R276): A partition timer reaches its deadline, sets EXPIRED and re-arms or stops. -/
  | timerExpiry (p : Part) (t : Fin 64)
  /-- TRAIN (R233): A TRAIN frame arrives at a hop, where the block adds its term, holds it in the train store, forwards it, or applies it as holder. -/
  | train (port : Port) (h : FrameHdr) (c : Contrib)
  /-- TRAIN_WINDOW_EXPIRY (R96): A train waits one train window at an unready member and departs with its BYPASS bit set. -/
  | trainWindowExpiry (g : Slot) (stripe : Nat) (row : Fin 4)
  /-- RELAY_TRAIN (R96): A member ready for one train window without a train starts a relay train. -/
  | relayTrain (g : Slot) (stripe : Nat) (row : Fin 4)
  /-- CONTRIB (R99): A DIRECT or REPEAT contribution frame arrives at its holder and is decided under idempotent apply. -/
  | contrib (port : Port) (h : FrameHdr) (c : Contrib)
  /-- NOTICE (R102): A NOTICE frame arrives and lands the contributor's contributions up to the count. -/
  | notice (port : Port) (h : FrameHdr) (n : NoticeFrame)
  /-- NEED (R103): A NEED entry arrives and the contributor sends a REPEAT from the outbox. -/
  | need (port : Port) (h : FrameHdr) (n : NoticeFrame)
  /-- QUERY (R104): A QUERY entry arrives and the holder answers NOTICE or NEED at once. -/
  | query (port : Port) (h : FrameHdr) (n : NoticeFrame)
  /-- STATE (R471): A rebuild STATE entry arrives at the target with a holder's column state. -/
  | stateEntry (port : Port) (h : FrameHdr) (n : NoticeFrame)
  /-- PLAN (R471): A rebuild PLAN entry arrives at a source, which computes its coefficients and may start its half-chain. -/
  | plan (port : Port) (h : FrameHdr) (n : NoticeFrame)
  /-- NOTICE_BATCH_TIMER (R102): 10 µs after the oldest batched NOTICE entry for a contributor, the holder sends the frame. -/
  | noticeBatchTimer (rank : Nat)
  /-- NOTICE_TIMER_EXPIRY (R103): A contributor's notice timer expires and it sends a QUERY or a REPEAT. -/
  | noticeTimerExpiry (g : Slot) (stripe : Nat) (row : Fin 4) (col : Fin 16)
  /-- EPOCH_CLOSE (R105): The block closes the epoch once its update sweep and scalar land contributions are done, releasing held contribution-127 entries. -/
  | epochClose
  /-- REPORT_LANDED (R105): The block reports landed once its outbox entries landed and its parity units are complete for the epoch. -/
  | reportLanded
  /-- REPORT_GUARDED (R106): The block reports guarded to its group leader once its FRESH parity and guard contributions are complete. -/
  | reportGuarded
  /-- CODED_STORE_WRITE (R109): A write from the surroundings on the coded-store path forms a delta or is held over the commit. -/
  | codedStoreWrite (addr : Word) (data : List Byte)
  /-- EXPERIENCE_TAP_WRITE (R342): A tap write into an EXPERIENCE page is applied or refused as a shared-page write. -/
  | experienceTapWrite (addr : Word) (data : List Byte)
  /-- TAP_POISON (R211): A tap reports an uncorrectable line and unit repair starts for a coded unit. -/
  | tapPoison (addr : Word)
  /-- CHAIN (R196): A decode chain frame arrives at a source to take its term, or at the target to be checked and written. -/
  | chain (port : Port) (h : FrameHdr) (c : ChainMsg)
  /-- AUDIT_FRAME (R208): An audit train arrives, takes the column term or syndrome, or is decided at the row-0 holder. -/
  | auditFrame (port : Port) (h : FrameHdr) (c : ChainMsg)
  /-- AUDIT_LAP_START (R208): An audit lap becomes due and starts over every stripe in stripe order. -/
  | auditLapStart
  /-- REBUILD_START (R193): The target plans stripes and chains start once every survivor has sent READY and the state entries are held. -/
  | rebuildStart
  /-- ROLL_FORWARD (R199): After decode the target recomputes STEP instructions for outputs still at n − 1 and sends their deltas. -/
  | rollForward
  /-- RESTORE_COMPLETE (R203): Every unit written and every roll-forward contribution landed; the target reports restored. -/
  | restoreComplete
  /-- CHUNK (R171): A collective data or count chunk arrives and is checked, used or refused with NEED. -/
  | chunk (port : Port) (h : FrameHdr) (c : ChunkMsg)
  /-- COLL_NEED (R171): A collective NEED arrives and the sender re-sends its kept chunk. -/
  | collNeed (port : Port) (h : FrameHdr) (c : ChunkMsg)
  /-- CREDIT (R166): A collective CREDIT arrives and grants or returns credit, or is kept for a sequence not yet started. -/
  | credit (port : Port) (h : FrameHdr) (c : ChunkMsg)
  /-- COLL_TIMER_EXPIRY (R172): A member's collective timer expires and it reports COLL_TIMEOUT to the root. -/
  | collTimerExpiry (p : Part) (axes : Fin 16) (seq : Nat)
  /-- COLL_REPORT (R173): A failure report reaches the root, which decides the outcome or answers with the decided one. -/
  | collReport (port : Port) (h : FrameHdr) (t : Tarra)
  /-- COLL_DONE (R173): A member's DONE reaches the root, which decides OK once all members are done. -/
  | collDone (port : Port) (h : FrameHdr) (t : Tarra)
  /-- COLL_OUTCOME (R173): The root's outcome reaches a member, which completes the collective or keeps the outcome. -/
  | collOutcome (port : Port) (h : FrameHdr) (t : Tarra)
  /-- REPORT (R182): A tarragon REPORT arrives and is merged, forwarded, or taken by the leader for a decision. -/
  | report (port : Port) (h : FrameHdr) (t : Tarra)
  /-- REPORT_RESEND (R181): Each 1 ms a reporter re-sends its report until a verdict or closure arrives. -/
  | reportResend (rank : Nat) (inc : Nat)
  /-- MERGE_KEY_EXPIRY (R182): A merge-table key expires 2 ms after its first arrival. -/
  | mergeKeyExpiry (rank : Nat) (inc : Nat)
  /-- PROBE (R183): A probe arrives at the suspect, which answers with its identity and incarnation. -/
  | probe (port : Port) (h : FrameHdr) (t : Tarra)
  /-- PROBE_ANSWER (R183): A probe answer arrives at the leader, which closes the report without a verdict. -/
  | probeAnswer (port : Port) (h : FrameHdr) (t : Tarra)
  /-- PROBE_TIMEOUT (R183): No valid probe answer within 1 ms; the leader issues FAILED. -/
  | probeTimeout (rank : Nat) (inc : Nat)
  /-- CLOSURE (R183): A closure reaches a reporter, which stops re-sending and puts the link in HOLD. -/
  | closure (port : Port) (h : FrameHdr) (t : Tarra)
  /-- VERDICT (R185): A verdict arrives at a block, which records it, clears LIVE bits and acts on epoch, rebuild and collectives. -/
  | verdict (port : Port) (h : FrameHdr) (t : Tarra)
  /-- VOTE (R42): A block's vote flag reaches the wave issuer, which issues the vote result once all have voted. -/
  | vote (port : Port) (h : FrameHdr) (t : Tarra)
  /-- VOTE_RESULT (R42): The vote result arrives and the block enters guard or, on SKIP, land. -/
  | voteResult (port : Port) (h : FrameHdr) (t : Tarra)
  /-- GUARDED (R106): A member's guarded report reaches its group leader. -/
  | guarded (port : Port) (h : FrameHdr) (t : Tarra)
  /-- GROUP_GUARDED (R40): A group's guarded message reaches the wave issuer, which issues the guard wave once all groups are guarded. -/
  | groupGuarded (port : Port) (h : FrameHdr) (t : Tarra)
  /-- GUARD_WAVE (R40): The guard wave arrives and the block enters update. -/
  | guardWave (port : Port) (h : FrameHdr) (t : Tarra)
  /-- LANDED (R40): A landed report reaches the leader and wave issuer, which issues the commit wave once all blocks landed. -/
  | landed (port : Port) (h : FrameHdr) (t : Tarra)
  /-- COMMIT_WAVE (R49): The commit wave of n arrives and the commit instant takes effect. -/
  | commitWave (port : Port) (h : FrameHdr) (t : Tarra)
  /-- ABORT_WAVE (R111): The job-wide abort of epoch n arrives, incrementing the attempt and marking FRESH parity SUSPECT. -/
  | abortWave (port : Port) (h : FrameHdr) (t : Tarra)
  /-- RESTORED (R203): A restored report reaches the wave issuer, which issues the re-run wave once every rebuilding group has reported. -/
  | restored (port : Port) (h : FrameHdr) (t : Tarra)
  /-- RERUN_WAVE (R203): The re-run wave arrives, clears RERUN and begins gather of the re-run. -/
  | rerunWave (port : Port) (h : FrameHdr) (t : Tarra)
  /-- QUIET (R185): A QUIET message arrives and the named rank no longer raises suspects. -/
  | quiet (port : Port) (h : FrameHdr) (t : Tarra)
  /-- GROUP_LOST (R204): The group-lost error arrives and every command of the job completes GROUP_LOST. -/
  | groupLost (port : Port) (h : FrameHdr) (t : Tarra)
  /-- ADMIT_RECORD (R375): An ADMIT record of the admission exchange arrives and is checked and stored. -/
  | admitRecord (port : Port) (h : FrameHdr) (t : Tarra) (r : AdmitRec)
  /-- READY (R471): A survivor's READY reaches the rebuild target. -/
  | ready (port : Port) (h : FrameHdr) (t : Tarra)
  /-- HANDOVER (R470): A HANDOVER report reaches a new wave issuer, which decides once it holds all of them. -/
  | handover (port : Port) (h : FrameHdr) (t : Tarra)
  /-- HEARTBEAT_SEND (R179): Every 100 µs the vigil domain sends a heartbeat on every enabled port. -/
  | heartbeatSend
  /-- HEARTBEAT (R180): A heartbeat frame arrives and is checked against the port record and digest. -/
  | heartbeat (port : Port) (h : FrameHdr) (b : Beat)
  /-- HEARTBEAT_INTERVAL_END (R180): A 100 µs interval ends; three missing valid heartbeats raise a suspect. -/
  | heartbeatIntervalEnd
  /-- MEMREQ (R240): A memory request arrives and is applied in OPSEQ order or answered from records. -/
  | memreq (port : Port) (h : FrameHdr) (m : MemMsg)
  /-- CANCEL (R240): A CANCEL arrives and is answered from the records, marking unapplied operations cancelled. -/
  | cancel (port : Port) (h : FrameHdr) (m : MemMsg)
  /-- MEMRSP (R240): A memory response arrives and completes the waiting or open operation. -/
  | memrsp (port : Port) (h : FrameHdr) (m : MemMsg)
  /-- RSP_TIMEOUT (R240): No response within RSP_TIMEOUT_US; the requester sends CANCEL or completes CHECK_FAIL. -/
  | rspTimeout (p : Part) (rank : Nat) (opseq : Nat)
  /-- GWBULK (R241): A gateway bulk frame arrives and its operations are unpacked and applied. -/
  | gwbulk (port : Port) (h : FrameHdr) (ms : List MemMsg)
  /-- GW_FLUSH (R241): GW_FLUSH_NS after its first operation, a gateway sends its packed frame. -/
  | gwFlush (rank : Nat)
  /-- COPY_UNIT (R243): A COPY unit arrives, is checked and written, and is answered LANDED, NEED or REFUSED. -/
  | copyUnit (port : Port) (h : FrameHdr) (c : CopyMsg)
  /-- COPYRSP (R243): A copy response arrives and the source re-sends or completes the copy. -/
  | copyrsp (port : Port) (h : FrameHdr) (c : CopyMsg)
  /-- WAKE (R226): A WAKE frame arrives and wakes the block from SLEEP if its identity matches. -/
  | wake (port : Port) (h : FrameHdr) (w : WakeMsg)
  /-- FRAME_FORWARD (R229): A frame not for this block arrives and is routed to its next port or dropped. -/
  | frameForward (port : Port) (f : Frame)
  /-- FRAME_HOLD_EXPIRY (R231): A frame held 2 ms for a port in bring-up is rerouted or completes PORT_NOT_READY. -/
  | frameHoldExpiry (n : Nat)
  /-- NACK (R246): A link NACK arrives and the sender replays from the oldest unacknowledged flit. -/
  | nack (port : Port) (lseq : Nat)
  /-- REPLAY_TIMER (R246): The oldest unacknowledged flit waits REPLAY_NS and the sender replays, retraining after 8 replays. -/
  | replayTimer (port : Port)
  /-- PORT_BRINGUP_STEP (R247): A lane bring-up step SEEK, LOCK, ALIGN or TRAIN completes and the port advances. -/
  | portBringupStep (port : Port) (peer : PeerInfo)
  /-- LANE_CALIBRATION (R248): A lane's calibration time arrives and it leaves service for 20 µs under a lane-map switch. -/
  | laneCalibration (port : Port) (lane : Fin 17)
  /-- LOCK_LOSS (R249): A lane loses lock or exceeds its error limit and is spared or the port degrades or goes DOWN. -/
  | lockLoss (port : Port) (lane : Fin 17)
  /-- HOLD_EXIT (R232): A port in HOLD has 100 ms without replay or missed heartbeat and returns to UP. -/
  | holdExit (port : Port)
  /-- PREFETCH_START (R322): A schedule entry becomes eligible and its transfer starts. -/
  | prefetchStart (p : Part) (n : Nat)
  /-- PREFETCH_ARRIVAL (R322): A prefetch transfer arrives and its tally is incremented, or it fails and disarms the schedule. -/
  | prefetchArrival (p : Part) (n : Nat)
  /-- SURR_TALLY_INCREMENT (R273): An increment from the surroundings is applied to a tally. -/
  | surrTallyIncrement (n : Fin 16384) (inc : Half)
  /-- TALLY_WAIT (R275): The surroundings read COUNT and REACHED of a tally through the tally wait interface. -/
  | tallyWait (n : Fin 16384)
  /-- GEN_STEP (R277): A gen_step strobe from the surroundings reaches edge detectors of source 5. -/
  | genStep (n : Fin 16)
  /-- ACQUIRE (R333): A generator acquires the active bay of a model entry. -/
  | acquire (e : Fin 32)
  /-- READER_RELEASE (R333): A generator releases a bay, lowering its reader count. -/
  | readerRelease (e : Fin 32) (bayB : Bool)
  /-- ALLOC (R339): The page port takes the lowest free page. -/
  | alloc
  /-- OPEN (R339): The page port opens a page for writing, starting a copy-on-write if shared or sealed. -/
  | openPage (n : Nat)
  /-- COW_COPY_DONE (R340): A copy-on-write copy completes and the copy page is returned to the opener. -/
  | cowCopyDone (n : Nat)
  /-- RETAIN (R339): The page port adds a reference to a page. -/
  | retain (n : Nat)
  /-- RELEASE (R339): The page port drops a reference, freeing or retiring the page at zero. -/
  | release (n : Nat)
  /-- SEAL_ACCEPT (R341): Once accepted writes are visible, the page is sealed and its seal sweep follows. -/
  | sealAccept (n : Nat)
  /-- DRAIN_UNIT (R399): The drain writes one unit of the cut and, after the last shard, the manifest. -/
  | drainUnit
  /-- REPLAY_ENTRY (R359): During replay a log entry is presented at its recorded cycle as the input of its kind. -/
  | replayEntry
  /-- WRITE_BACK (R416): A corrected SRAM line is written back in its bank's next idle cycle. -/
  | writeBack (line : Nat)
  /-- SAGE_SCRUB (R418): Sage reads a valid line in an idle bank cycle, correcting or raising errors and ending laps. -/
  | sageScrub (bank : Fin 64)
  /-- QUIESCE (R432): The quiesce of an accepted power request completes and entry proceeds through ports, clocks and hold. -/
  | quiesce
  /-- QUIESCE_TIMEOUT (R432): The quiesce does not finish within 10 ms and the request is refused with cause 2. -/
  | quiesceTimeout
  /-- IDLE_ENTRY (R431): All IDLE conditions hold and the core and trace clocks stop. -/
  | idleEntry
  /-- IDLE_EXIT (R431): A condition of IDLE breaks and the block returns to RUN within 1 µs. -/
  | idleExit
  /-- POWER_EXIT (R436): The exit from SLEEP or DEEP completes its relock and the block returns to RUN. -/
  | powerExit
  /-- WAKE_N (R447): WAKE_N held low for 2 REFCLK_AO cycles is wake source 0, and its edges reach edge detectors. -/
  | wakeN (low : Bool) (cycles : Nat)
  /-- PWR_GOOD_RISE (R440): PWR_GOOD rises and power-on reset begins. -/
  | pwrGoodRise (straps : Fin 4)
  /-- PWR_GOOD_FALL (R439): PWR_GOOD falls and the vigil domain stops every other domain and holds every pad group. -/
  | pwrGoodFall
  /-- REFCLK_STOP (R448): REFCLK_AO stops and the vigil domain stops with it. -/
  | refclkStop
  /-- RESET_FINISHED (R440): Power-on or warm reset work completes and READY is set. -/
  | resetFinished
  /-- SVC_READ (R451): A completed SPI READ frame returns registers and clears RC values by the amount returned. -/
  | svcRead (f : SvcFrame)
  /-- SVC_WRITE (R452): A completed SPI WRITE frame applies its accesses in ascending offset. -/
  | svcWrite (f : SvcFrame) (data : List Half)
  /-- SVC_FRAME_ERROR (R453): An SPI frame ends early or malformed and is dropped and counted. -/
  | svcFrameError (e : SvcError)
  /-- SVC_WAKE (R456): A sideband write of TKJ_SVC_WAKE is wake source 3. -/
  | svcWake (i2c : Bool)
  /-- I2C_WRITE (R457): An I²C target write applies a 64-bit register write at each eighth data byte. -/
  | i2cWrite (off : Nat) (v : Word)
  /-- I2C_READ (R458): An I²C target read returns registers and clears RC values after each eighth byte. -/
  | i2cRead (off : Nat)
  /-- I2C_BUS_ERROR (R459): A misplaced START or STOP or SCL held low over 25 ms ends the target transaction. -/
  | i2cBusError
  /-- ALERT (R460): A global vector cause bit rises and the block pulses GRP_ALERT_N and sends an alert message. -/
  | alert (n : Fin 10)
  /-- ALERT_PULSE_END (R460): PULSE_US after an alert pulse begins, the block releases GRP_ALERT_N. -/
  | alertPulseEnd
  /-- ALERT_HOLDOFF_END (R460): 1 ms after a pulse ends, causes raised meanwhile produce one further pulse and message. -/
  | alertHoldoffEnd
  /-- ALERT_RETRY (R461): After a lost arbitration or NACK and its back-off, the controller retries the alert message or gives up. -/
  | alertRetry
  /-- LINE_STUCK (R462): GRP_ALERT_N sensed low for over 10 ms while not driven; the line is declared stuck. -/
  | lineStuck
  /-- LINE_OK (R462): The once-per-second sample of a stuck line reads high; STUCK clears and LINE_OK is sent. -/
  | lineOk
  /-- GRP_ALERT_N (R277): Another driver pulls the shared GRP_ALERT_N line low or releases it; edge detectors of source 3 latch the edge and the record unit logs it. -/
  | grpAlertN (low : Bool)
  /-- FLIT (R245): A link flit arrives: it is taken in LSEQ order, dropped as a duplicate or as part of an uncorrectable codeword, or a gap is answered with a NACK; its ACK frees replay buffer space, and a lane-map flit switches lanes. -/
  | flit (port : Port) (f : Flit)
  /-- CHERVIL_SLOT (R351): In chervil mode a slot boundary arrives and the engines, cores and transmitters start the work or frames that the slot table names, including sage and audit slots. -/
  | chervilSlot (n : Fin 256)
  /-- LASER_LOW (R247): Laser light on a port falls below threshold or returns; LASER_LOW is set or cleared, the calibration vector is raised, and the port is held in SEEK or DOWN or may proceed. -/
  | laserLow (port : Port) (low : Bool)
  /-- REFCLK_START (R448): REFCLK_AO resumes after stopping while PWR_GOOD stays high, so that the stopped vigil domain could run again. -/
  | refclkStart
  /-- ARBITRATION_LOST (R461): While sending an alert message as I²C controller the block drives 1 and senses 0, or receives a NACK; it stops driving MGT_SDA, counts ARB_LOST and may answer as a target. -/
  | arbitrationLost (nack : Bool) (address : Bool) (winner : Nat)
  /-- SVC_ADDRESS_WORD (R451): The address word of an SPI READ frame completes and the block reads every register of the frame, before the data words are shifted out. -/
  | svcAddressWord (f : SvcFrame)
  deriving DecidableEq, Repr

end Sys2Proof
end

