-- ==== Sys2Proof/Machine/Codes.lean ====
section
/-! DEFINITION. Check codes and fields: GF(2^8) and the coefficients (spec/03 R66 to R68), CRC-32C (R77), the header CRC (spec/08 R223), SHA-256 (FIPS 180-4), squeezed units (spec/04 R84 to R87), and the check bits of the state SRAM (spec/15 R413, R414). -/

namespace Sys2Proof.Machine

/-- Multiplication by x in GF(2^8) with 0x11D (R66). -/
def gfDouble (a : Byte) : Byte := (a <<< 1) ^^^ (if a.msb then 0x1D else 0)

/-- Product over the low n bits of b. -/
def gfMulN : Nat → Byte → Byte → Byte
  | 0, _, _ => 0
  | n + 1, a, b => (if b.getLsbD 0 then a else 0) ^^^ gfMulN n (gfDouble a) (b >>> 1)

/-- gf_mul of R66. -/
def gfMul (a b : Byte) : Byte := gfMulN 8 a b

def gfPow (a : Byte) : Nat → Byte
  | 0 => 1
  | n + 1 => gfMul (gfPow a n) a

/-- gf_inv of R66: a^254. -/
def gfInv (a : Byte) : Byte := gfPow a 254

/-- coef(j, i) of R67: gf_mul(y, gf_inv(j ^ y)) with y = 4 + i. -/
def coef (j i : Nat) : Byte :=
  let y := BitVec.ofNat 8 (4 + i)
  gfMul y (gfInv (BitVec.ofNat 8 j ^^^ y))

/-- One bit step of the reflected CRC-32C. -/
def crcStep (c : Half) : Half := (c >>> 1) ^^^ (if c.getLsbD 0 then 0x82F63B78 else 0)

def crcByte (c : Half) (b : Byte) : Half :=
  crcStep (crcStep (crcStep (crcStep (crcStep (crcStep (crcStep (crcStep (c ^^^ b.zeroExtend 32))))))))

/-- CRC-32C (R77). -/
def crc32c (bs : List Byte) : Half := ~~~ bs.foldl crcByte (~~~ (0 : Half))

def crc16Step (c : BitVec 16) : BitVec 16 := (c <<< 1) ^^^ (if c.msb then 0x1021 else 0)

def crc16Byte (c : BitVec 16) (b : Byte) : BitVec 16 :=
  crc16Step (crc16Step (crc16Step (crc16Step (crc16Step (crc16Step (crc16Step (crc16Step
    (c ^^^ (b.zeroExtend 16 <<< 8)))))))))

/-- The header CRC of R223. -/
def crc16 (bs : List Byte) : BitVec 16 := bs.foldl crc16Byte 0xFFFF

/-! ### Sorting -/

/-- A list with x in front of its first element that x may stand before. -/
def insertBy {α : Type} (le : α → α → Bool) (x : α) : List α → List α
  | [] => [x]
  | y :: ys => if le x y then x :: y :: ys else y :: insertBy le x ys

/-- A list in the order le; equals keep their order. -/
def sortBy {α : Type} (le : α → α → Bool) (xs : List α) : List α := xs.foldr (insertBy le) []

/-! ### Units of 4,096 bytes -/

/-- Byte at an offset of a unit. -/
def uget (u : UnitImg) (o : Nat) : Byte := SMap.look 0 u o

/-- The unit with one byte replaced; a zero byte is not listed. -/
def uset (u : UnitImg) (o : Nat) (b : Byte) : UnitImg := if b = 0 then SMap.del u o else SMap.put u o b

/-- The XOR of two units. -/
def xorU (a b : UnitImg) : UnitImg := b.foldl (fun u x => uset u x.1 (uget u x.1 ^^^ x.2)) a

/-- A unit multiplied by a coefficient, byte by byte. -/
def scaleU (c : Byte) (u : UnitImg) : UnitImg :=
  if c = 0 then [] else u.map (fun x => (x.1, gfMul c x.2))

/-- The n bytes from offset o of a unit that lists nothing below o. -/
def denseFrom : Nat → Nat → UnitImg → List Byte
  | 0, _, _ => []
  | n + 1, o, [] => 0 :: denseFrom n (o + 1) []
  | n + 1, o, (i, b) :: u => if i = o then b :: denseFrom n (o + 1) u else 0 :: denseFrom n (o + 1) ((i, b) :: u)

/-- The n bytes of a unit from offset o. -/
def denseU (n o : Nat) (u : UnitImg) : List Byte := denseFrom n o (u.dropWhile fun x => decide (x.1 < o))

def unitBytes (u : UnitImg) : List Byte := denseU 4096 0 u

/-- The unit that bytes from offset o spell. -/
def ofDense : Nat → List Byte → UnitImg
  | _, [] => []
  | o, b :: bs => if b = 0 then ofDense (o + 1) bs else (o, b) :: ofDense (o + 1) bs

def crcUnit (u : UnitImg) : Half := crc32c (unitBytes u)

/-- Z of R77: the CRC of 4,096 zero bytes. -/
def zCrc : Half := crcUnit []

def popcount : Nat → Nat → Nat
  | 0, _ => 0
  | n + 1, x => x % 2 + popcount n (x / 2)

/-- The run of the plane image that holds byte o of a unit, for elements of 2^width bytes (R84). -/
def runOf (width o : Nat) : Nat :=
  let w := 2 ^ width
  (o % w * (4096 / w) + o / w) / 64

/-- RUNMASK of a unit (R84). -/
def runmaskOf (width : Nat) (u : UnitImg) : Word :=
  u.foldl (fun m x => m ||| BitVec.ofNat 64 (2 ^ runOf width x.1)) 0

/-- A unit in squeezed form (R84). -/
def squeeze (width : Nat) (u : UnitImg) : Squeezed :=
  { crc := crcUnit u, width := Fin.ofNat 4 width, runmask := runmaskOf width u, bytes := u }

def runsOf (x : Squeezed) : Nat := popcount 64 x.runmask.toNat

/-- Length in bytes of a squeezed unit (Table 4.1). -/
def squeezedLen (x : Squeezed) : Nat := 24 + 64 * runsOf x

/-- The sum of a passing unit and this block's own contribution (R87, R78). -/
def addSqueezed (x : Squeezed) (own : UnitImg) : Squeezed :=
  { x with
    crc := x.crc ^^^ crcUnit own ^^^ zCrc
    runmask := x.runmask ||| runmaskOf x.width own
    bytes := xorU x.bytes own }

/-- Whether the carried CRC holds for the expanded bytes (R79). -/
def squeezedOk (x : Squeezed) : Bool := crcUnit x.bytes = x.crc

/-- The runs of a squeezed unit, in ascending r (Table 4.1). -/
def runBytes (x : Squeezed) : List Byte :=
  let w := 2 ^ x.width.val
  let n := 4096 / w
  (List.range 64).flatMap fun r =>
    if x.runmask.getLsbD r then
      (List.range 64).map fun i =>
        let pos := 64 * r + i
        uget x.bytes (pos % n * w + pos / n)
    else []

/-! ### SHA-256 (FIPS 180-4, R387, Table 14.4)

The constants are the first 32 bits of the fractional parts of roots of the first primes. The working
values are kept as the two sequences A and E that a..d and e..h are the last four values of. -/

/-- The primes below `hi` that come after the primes `found` (in any order). -/
def primesFrom : Nat → Nat → List Nat → List Nat
  | 0, _, found => found.reverse
  | fuel + 1, p, found =>
    primesFrom fuel (p + 1) (if found.any (fun q => p % q == 0) then found else p :: found)

/-- r with its low n bits set as far as r ^ d stays at most x, from the highest bit down. -/
def rootBits (d x : Nat) : Nat → Nat → Nat
  | 0, r => r
  | n + 1, r => rootBits d x n (if (r + 2 ^ n) ^ d ≤ x then r + 2 ^ n else r)

/-- The first 32 bits of the fractional part of the d-th root of p (of roots below 32). -/
def rootFraction (d p : Nat) : Half := BitVec.ofNat 32 (rootBits d (p * 2 ^ (32 * d)) 37 0)

/-- The 64 primes below 312. -/
def shaPrimes : List Nat := primesFrom 310 2 []

def shaCubes : List Half := shaPrimes.map (rootFraction 3)

/-- The values A and E before the first block, newest first in each. -/
def shaStart : List Half × List Half :=
  let r := (shaPrimes.take 8).map (rootFraction 2)
  (r.take 4, r.drop 4)

/-- x turned right by each amount in turn, the three XORed; the last one is shifted where `cut` is set. -/
def shaTwist (x : Half) (r0 r1 r2 : Nat) (cut : Bool) : Half :=
  let turn n := (x >>> n) ||| (x <<< (32 - n))
  turn r0 ^^^ turn r1 ^^^ (if cut then x >>> r2 else turn r2)

/-- `n` further words of the message schedule, newest first. -/
def shaExtend : Nat → List Half → List Half
  | 0, ws => ws
  | n + 1, ws =>
    let back t := ws.getD (t - 1) 0
    shaExtend n ((shaTwist (back 2) 17 19 10 true + back 7 + shaTwist (back 15) 7 18 3 true + back 16) :: ws)

/-- The rounds over the sums of constant and schedule word: each prepends one value to A and to E. -/
def shaRun : List Half → List Half → List Half → List Half × List Half
  | kw :: rest, as@(a :: b :: c :: d :: _), es@(e :: f :: g :: h :: _) =>
    let pick := g ^^^ (e &&& (f ^^^ g))
    let most := (a &&& b) ||| (c &&& (a ||| b))
    let t := h + kw + pick + shaTwist e 6 11 25 false
    shaRun rest ((t + most + shaTwist a 2 13 22 false) :: as.take 3) ((d + t) :: es.take 3)
  | _, as, es => (as, es)

/-- A 32-bit word from four bytes, most significant first. -/
def beWord (bs : List Byte) : Half := BitVec.ofNat 32 (ofBytes (bs.take 4).reverse)

def beBytes (w : Half) : List Byte := (toBytes 4 w.toNat).reverse

/-- A and E after `n` further blocks of 64 bytes. -/
def shaBlocks : Nat → List Byte → List Half × List Half → List Half × List Half
  | 0, _, v => v
  | n + 1, bs, v =>
    let first := ((List.range 16).map fun i => beWord (bs.drop (4 * i))).reverse
    let w := (shaExtend 48 first).reverse
    let out := shaRun (List.zipWith (· + ·) shaCubes w) v.1 v.2
    shaBlocks n (bs.drop 64) (List.zipWith (· + ·) v.1 out.1, List.zipWith (· + ·) v.2 out.2)

/-- The message with its end mark, zeros and bit length: a whole number of blocks. -/
def shaPad (bs : List Byte) : List Byte :=
  let body := bs ++ [0x80]
  let short := (120 - body.length % 64) % 64
  body ++ List.replicate short 0 ++ (toBytes 8 (8 * bs.length)).reverse

/-- SHA-256 of bytes. -/
def sha256 (bs : List Byte) : List Byte :=
  let m := shaPad bs
  let v := shaBlocks (m.length / 64) m shaStart
  (v.1 ++ v.2).flatMap beBytes

/-! ### Check bits of the state SRAM -/

def parityOf : Nat → Nat → Bool
  | 0, _ => false
  | n + 1, x => (x % 2 == 1) != parityOf n (x / 2)

/-- Check bits c[4:0] of a byte (R413). -/
def checkBits (b : Byte) : BitVec 5 :=
  let d := b.toNat
  let c := pack [(1, b2n (parityOf 8 (d &&& 0x5B))), (1, b2n (parityOf 8 (d &&& 0x6D))),
    (1, b2n (parityOf 8 (d &&& 0x8E))), (1, b2n (parityOf 8 (d &&& 0xF0)))]
  BitVec.ofNat 5 (c + 16 * b2n (parityOf 8 d != parityOf 4 c))

/-- Decision on a stored byte (R414). -/
inductive EccRead where
  | good
  | fixed (b : Byte)
  | bad
  deriving DecidableEq, Repr

/-- The data bit at a Hamming position, if the position holds one (R413). -/
def dataBitAt (pos : Nat) : Option Nat :=
  match pos with
  | 3 => some 0
  | 5 => some 1
  | 6 => some 2
  | 7 => some 3
  | 9 => some 4
  | 10 => some 5
  | 11 => some 6
  | 12 => some 7
  | _ => none

/-- The decision of R414 on a byte and its stored check bits. -/
def eccDecide (b : Byte) (c : BitVec 5) : EccRead :=
  let s := ((checkBits b) ^^^ c).toNat % 16
  let q := parityOf 8 b.toNat != parityOf 5 c.toNat
  if q then
    if s ≥ 13 then .bad
    else match dataBitAt s with
      | some i => .fixed (b ^^^ BitVec.ofNat 8 (2 ^ i))
      | none => .fixed b
  else if s = 0 then .good else .bad

end Sys2Proof.Machine
end

