-- ==== Sys2Proof/Machine/Flags.lean ====
section
/-! DEFINITION. Lane arithmetic to the bit (spec/05 R116 to R121, Table 5.1), narrowing (spec/02 R32), MX formats (spec/11 R326 to R330), and the exception flags that the lane work raises. A number format has 8 exponent bits, bias 127 and mb fraction bits: 23 for binary32, 7 for bfloat16. -/

namespace Sys2Proof.Machine

/-! ### Exception flags of TKJ_LANE_FLAGS (Table 5.14) -/

def flNV : Nat := 1
def flDZ : Nat := 2
def flOF : Nat := 4
def flUF : Nat := 8
def flNX : Nat := 16
def flSAT : Nat := 32

/-- A result and the flags it raises. -/
abbrev FRes := Nat × Nat

/-! ### Fields of a pattern -/

def fExp (mb x : Nat) : Nat := bitsOf mb 8 x
def fFrac (mb x : Nat) : Nat := x % 2 ^ mb
def fSign (mb x : Nat) : Bool := x.testBit (mb + 8)
def isNan (mb x : Nat) : Bool := fExp mb x == 255 && fFrac mb x != 0
def isInf (mb x : Nat) : Bool := fExp mb x == 255 && fFrac mb x == 0
def isZero (mb x : Nat) : Bool := fExp mb x == 0 && fFrac mb x == 0
def isSnan (mb x : Nat) : Bool := isNan mb x && !x.testBit (mb - 1)
def signBit (mb : Nat) (s : Bool) : Nat := if s then 2 ^ (mb + 8) else 0
def infOf (mb : Nat) (s : Bool) : Nat := 255 * 2 ^ mb + signBit mb s
def maxOf (mb : Nat) (s : Bool) : Nat := 255 * 2 ^ mb - 1 + signBit mb s
def oneOf (mb : Nat) (s : Bool) : Nat := 127 * 2 ^ mb + signBit mb s
/-- A NaN with its top fraction bit set (R118). -/
def quiet (mb x : Nat) : Nat := if x.testBit (mb - 1) then x else x + 2 ^ (mb - 1)
/-- 0x7FC0_0000 or 0x7FC0 (R118). -/
def defaultNan (mb : Nat) : Nat := 255 * 2 ^ mb + 2 ^ (mb - 1)
def absOf (mb x : Nat) : Nat := x % 2 ^ (mb + 8)

/-- Magnitude of a finite value: m × 2^q with the pair (m, q). -/
def magOf (mb x : Nat) : Nat × Int :=
  if fExp mb x = 0 then (fFrac mb x, -126 - (mb : Int))
  else (fFrac mb x + 2 ^ mb, (fExp mb x : Int) - 127 - mb)

/-- Signed value of a finite pattern as an integer times a power of two. -/
def valOf (mb x : Nat) : Int × Int :=
  let (m, q) := magOf mb x
  (if fSign mb x then -(m : Int) else m, q)

def bitLen (n : Nat) : Nat := if n = 0 then 0 else n.log2 + 1

/-- Whether a magnitude cut to q with remainder r of d is raised, under a rounding direction of R117. -/
def roundUp (rm : Nat) (s : Bool) (q r d : Nat) : Bool :=
  match rm with
  | 0 => decide (2 * r > d) || (decide (2 * r = d) && q % 2 == 1)
  | 1 => false
  | 2 => r != 0 && !s
  | _ => r != 0 && s

/-- m × 2^q cut to multiples of 2^lsb: the rounded multiple, and whether it is exact. -/
def cutTo (rm : Nat) (s : Bool) (m : Nat) (q lsb : Int) : Nat × Bool :=
  if lsb ≤ q then (m * 2 ^ (q - lsb).toNat, true)
  else
    let d := 2 ^ (lsb - q).toNat
    (m / d + (if roundUp rm s (m / d) (m % d) d then 1 else 0), m % d == 0)

/-- The magnitude m × 2^q, m above 0, rounded once (R116). Tininess is detected after rounding. -/
def roundTo (mb rm : Nat) (s : Bool) (m : Nat) (q : Int) : FRes :=
  let e := q + bitLen m - 1
  let low : Int := -126 - mb
  let lsb := max (e - mb) low
  let (r, exact) := cutTo rm s m q lsb
  let bits := (lsb - low).toNat * 2 ^ mb + r
  if 255 * 2 ^ mb ≤ bits then
    let inf := rm == 0 || (rm == 2 && !s) || (rm == 3 && s)
    (if inf then infOf mb s else maxOf mb s, flOF + flNX)
  else
    let (r', _) := cutTo rm s m q (e - mb)
    let tiny := decide (e < -126) && !(decide (e = -127) && r' == 2 ^ (mb + 1))
    (bits + signBit mb s, if exact then 0 else flNX + (if tiny then flUF else 0))

/-- The signed value v × 2^q rounded, with the sign zs of a zero. -/
def roundVal (mb rm : Nat) (v q : Int) (zs : Bool) : FRes :=
  if v = 0 then (signBit mb zs, 0) else roundTo mb rm (decide (v < 0)) v.natAbs q

/-- v × 2^q brought to the exponent p, p at most q. -/
def alignTo (v q p : Int) : Int := v * 2 ^ (q - p).toNat

/-- First NaN operand, quieted, and the invalid flag of a signalling operand (R118). -/
def nanOf (mb : Nat) (xs : List Nat) : Option FRes :=
  match xs.find? (isNan mb) with
  | some x => some (quiet mb x, if xs.any (isSnan mb) then flNV else 0)
  | none => none

def invalidOp (mb : Nat) : FRes := (defaultNan mb, flNV)

def negOf (mb x : Nat) : Nat := if fSign mb x then x - 2 ^ (mb + 8) else x + 2 ^ (mb + 8)

/-- Sign of an exact zero sum of opposite signs (IEEE 754-2019). -/
def zeroSign (rm : Nat) (sa sb : Bool) : Bool := if sa == sb then sa else rm == 3

def fAdd (mb rm a b : Nat) : FRes :=
  match nanOf mb [a, b] with
  | some r => r
  | none =>
    if isInf mb a then
      if isInf mb b && fSign mb a != fSign mb b then invalidOp mb else (a, 0)
    else if isInf mb b then (b, 0)
    else
      let (va, qa) := valOf mb a
      let (vb, qb) := valOf mb b
      let p := min qa qb
      let zs := if isZero mb a && isZero mb b then zeroSign rm (fSign mb a) (fSign mb b) else rm == 3
      roundVal mb rm (alignTo va qa p + alignTo vb qb p) p zs

def fSub (mb rm a b : Nat) : FRes :=
  match nanOf mb [a, b] with
  | some r => r
  | none => fAdd mb rm a (negOf mb b)

def fMul (mb rm a b : Nat) : FRes :=
  match nanOf mb [a, b] with
  | some r => r
  | none =>
    let s := fSign mb a != fSign mb b
    if isInf mb a || isInf mb b then
      if isZero mb a || isZero mb b then invalidOp mb else (infOf mb s, 0)
    else
      let (va, qa) := valOf mb a
      let (vb, qb) := valOf mb b
      roundVal mb rm (va * vb) (qa + qb) s

/-- (-1)^ng × (A × B) + C with one rounding; a product of zero and infinity is invalid whatever C holds (R121). -/
def fFmaN (mb rm : Nat) (ng : Bool) (a b c : Nat) : FRes :=
  let bad := (isInf mb a && isZero mb b) || (isZero mb a && isInf mb b)
  match nanOf mb [a, b, c] with
  | some (r, f) => (r, if bad then flNV else f)
  | none =>
    let s := (fSign mb a != fSign mb b) != ng
    if bad then invalidOp mb
    else if isInf mb a || isInf mb b then
      if isInf mb c && fSign mb c != s then invalidOp mb else (infOf mb s, 0)
    else if isInf mb c then (c, 0)
    else
      let (va, qa) := valOf mb a
      let (vb, qb) := valOf mb b
      let (vc, qc) := valOf mb c
      let pz := isZero mb a || isZero mb b
      let pr := if ng then -(va * vb) else va * vb
      let p := min (qa + qb) qc
      let zs := if pz && isZero mb c then zeroSign rm s (fSign mb c) else rm == 3
      roundVal mb rm (alignTo pr (qa + qb) p + alignTo vc qc p) p zs

def fFma (mb rm a b c : Nat) : FRes := fFmaN mb rm false a b c

def fDiv (mb rm a b : Nat) : FRes :=
  match nanOf mb [a, b] with
  | some r => r
  | none =>
    let s := fSign mb a != fSign mb b
    if isInf mb a then if isInf mb b then invalidOp mb else (infOf mb s, 0)
    else if isInf mb b then (signBit mb s, 0)
    else if isZero mb b then if isZero mb a then invalidOp mb else (infOf mb s, flDZ)
    else if isZero mb a then (signBit mb s, 0)
    else
      let (ma, qa) := magOf mb a
      let (mB, qb) := magOf mb b
      let n := ma * 2 ^ 64
      -- a quotient of 38 bits or more, with its sticky bit below
      roundTo mb rm s (2 * (n / mB) + b2n (n % mB != 0)) (qa - qb - 65)

/-- Floor of the square root, from a bound 2^k above it, bit by bit. -/
def isqrtFrom : Nat → Nat → Nat → Nat
  | 0, _, r => r
  | k + 1, n, r =>
    let t := r + 2 ^ k
    isqrtFrom k n (if t * t ≤ n then t else r)

def isqrt (n : Nat) : Nat := isqrtFrom 80 n 0

/-- Magnitude with an even exponent. -/
def evenMag (mb x : Nat) : Nat × Int :=
  let (m, q) := magOf mb x
  if q % 2 = 0 then (m, q) else (2 * m, q - 1)

def fSqrt (mb rm a : Nat) : FRes :=
  match nanOf mb [a] with
  | some r => r
  | none =>
    if isZero mb a then (a, 0)
    else if fSign mb a then invalidOp mb
    else if isInf mb a then (a, 0)
    else
      let (m, q) := evenMag mb a
      let n := m * 2 ^ 64
      let r := isqrt n
      roundTo mb rm false (2 * r + b2n (r * r != n)) (q / 2 - 33)

def fRsqrt (mb rm a : Nat) : FRes :=
  match nanOf mb [a] with
  | some r => r
  | none =>
    if isZero mb a then (infOf mb (fSign mb a), flDZ)
    else if fSign mb a then invalidOp mb
    else if isInf mb a then (0, 0)
    else
      let (m, q) := evenMag mb a
      let r := isqrt (2 ^ 120 / m)
      roundTo mb rm false (2 * r + b2n (r * r * m != 2 ^ 120)) (-(q / 2) - 61)

/-- A key whose order is that of the values, -0 below +0 (R119). -/
def orderKey (mb x : Nat) : Int :=
  if fSign mb x then -(absOf mb x : Int) - 1 else absOf mb x

def fMinMax (mb : Nat) (mx : Bool) (a b : Nat) : FRes :=
  let fl := if isSnan mb a || isSnan mb b then flNV else 0
  if isNan mb a then if isNan mb b then (quiet mb a, fl) else (b, fl)
  else if isNan mb b then (a, fl)
  else if mx then (if orderKey mb a ≥ orderKey mb b then a else b, 0)
  else (if orderKey mb a ≤ orderKey mb b then a else b, 0)

/-- Numeric order of two values that are not NaN: +0 equals -0. -/
def numKey (mb x : Nat) : Int := if fSign mb x then -(absOf mb x : Int) else absOf mb x

/-- A quiet comparison: false for a NaN, invalid only for a signalling one (DEDUCED, log 31). -/
def fCmp (mb : Nat) (p : Int → Int → Bool) (a b : Nat) : FRes :=
  if isNan mb a || isNan mb b then (0, if isSnan mb a || isSnan mb b then flNV else 0)
  else (if p (numKey mb a) (numKey mb b) then 2 ^ (mb + 9) - 1 else 0, 0)

/-- SIGN of Table 5.1. -/
def fSignOp (mb a : Nat) : FRes :=
  if isNan mb a then (quiet mb a, if isSnan mb a then flNV else 0)
  else if isZero mb a then (a, 0)
  else (oneOf mb (fSign mb a), 0)

/-- CVT.F2I: rounds by RM, saturates, 0 for NaN (R120; DEDUCED, log 31). -/
def fToInt (rm a : Nat) : FRes :=
  if isNan 23 a then (0, flNV)
  else if isInf 23 a then (if fSign 23 a then 2 ^ 31 else 2 ^ 31 - 1, flNV ||| flSAT)
  else
    let (m, q) := magOf 23 a
    let (r, exact) := cutTo rm (fSign 23 a) m q 0
    let v : Int := if fSign 23 a then -(r : Int) else r
    if v < -2147483648 then (2 ^ 31, flNV ||| flSAT)
    else if v > 2147483647 then (2 ^ 31 - 1, flNV ||| flSAT)
    else ((v % 4294967296).toNat, if exact then 0 else flNX)

/-! ### Integers of w bits -/

def toS (w x : Nat) : Int := if x.testBit (w - 1) then (x % 2 ^ w : Nat) - (2 : Int) ^ w else (x % 2 ^ w : Nat)
def ofS (w : Nat) (v : Int) : Nat := (v % (2 : Int) ^ w).toNat

/-- Signed saturation to w bits. -/
def satS (w : Nat) (v : Int) : FRes :=
  if v < -(2 : Int) ^ (w - 1) then (2 ^ (w - 1), flSAT)
  else if v ≥ (2 : Int) ^ (w - 1) then (2 ^ (w - 1) - 1, flSAT)
  else (ofS w v, 0)

/-- Unsigned saturation to w bits. -/
def satU (w : Nat) (v : Int) : FRes :=
  if v < 0 then (0, flSAT) else if v ≥ (2 : Int) ^ w then (2 ^ w - 1, flSAT) else (v.toNat, 0)

def iToFloat (rm a : Nat) : FRes := roundVal 23 rm (toS 32 a) 0 false

/-! ### Narrow images (R32) -/

def isNan32 (x : Nat) : Bool := isNan 23 x

def narrow16 (x : Nat) : Nat :=
  if isNan32 x then (x / 65536) ||| 0x40
  else (x + 0x7FFF + bitsOf 16 1 x) / 65536 % 65536

def widen16 (b : Nat) : Nat := b % 65536 * 65536

def narrow24 (x : Nat) : Nat :=
  if isNan32 x then (x / 256) ||| 0x4000
  else (x + 0x7F + bitsOf 8 1 x) / 256 % 16777216

def widen24 (k : Nat) : Nat := k * 256 % 4294967296

/-- Flags of rounding a binary32 value to fb fraction bits under roundTiesToEven, as IEEE 754-2019 defines them for a conversion (R121; DEDUCED, log 152). -/
def narrowFlags (fb x : Nat) : Nat :=
  if isNan 23 x then (if isSnan 23 x then flNV else 0)
  else if isInf 23 x || isZero 23 x then 0
  else
    let (m, q) := magOf 23 x
    (roundTo fb 0 (fSign 23 x) m q).2

/-! ### Lane operations (Table 5.1) -/

/-- Operand type of a lane instruction (R122). -/
inductive LaneTy where
  | f32
  | bf16
  | i32
  | i64
  deriving DecidableEq, Repr

def laneW : LaneTy → Nat
  | .f32 => 32
  | .bf16 => 16
  | .i32 => 32
  | .i64 => 64

def laneMb : LaneTy → Nat
  | .bf16 => 7
  | _ => 23

def ones (w : Nat) (b : Bool) : Nat := if b then 2 ^ w - 1 else 0

/-- A sign operation: the first NaN operand quieted, whatever the sign asked for, else the value given; no flag (R118; DEDUCED, log 153). -/
def signResult (mb : Nat) (xs : List Nat) (v : Nat) : FRes :=
  match xs.find? (isNan mb) with
  | some x => (quiet mb x, 0)
  | none => (v, 0)

/-- Floating-point operations, codes 0x01 to 0x13. -/
def laneFloat (op rm : Nat) (t : LaneTy) (a b c : Nat) : FRes :=
  let mb := laneMb t
  match op with
  | 0x01 => fAdd mb rm a b
  | 0x02 => fSub mb rm a b
  | 0x03 => fMul mb rm a b
  | 0x04 => fFmaN mb rm false a b c
  | 0x05 => fFmaN mb rm true a b c
  | 0x06 => fDiv mb rm a b
  | 0x07 => fSqrt mb rm a
  | 0x08 => fRsqrt mb rm a
  | 0x09 => fMinMax mb false a b
  | 0x0A => fMinMax mb true a b
  | 0x0B => signResult mb [a] (absOf mb a)
  | 0x0C => signResult mb [a] (negOf mb a)
  | 0x0D => signResult mb [a, b] (absOf mb a + signBit mb (fSign mb b))
  | 0x0E => fSignOp mb a
  | 0x10 => fCmp mb (fun x y => decide (x < y)) a b
  | 0x11 => fCmp mb (fun x y => decide (x ≤ y)) a b
  | 0x12 => fCmp mb (fun x y => decide (x = y)) a b
  | _ => (ones (mb + 9) (isNan mb a || isNan mb b), if isSnan mb a || isSnan mb b then flNV else 0)

/-- Integer and logical operations, codes 0x20 to 0x32, on w bits (R120). -/
def laneInt (op w a b : Nat) : FRes :=
  let sa := toS w a
  let sb := toS w b
  match op with
  | 0x20 => ((a + b) % 2 ^ w, 0)
  | 0x21 => ofS w ((a : Int) - b) |> fun r => (r, 0)
  | 0x22 => satS w (sa + sb)
  | 0x23 => satS w (sa - sb)
  | 0x24 => satU w ((a : Int) + b)
  | 0x25 => satU w ((a : Int) - b)
  | 0x26 => (a * b % 2 ^ w, 0)
  | 0x27 => satS w (sa * sb)
  | 0x28 => (if b ≥ w then 0 else a * 2 ^ b % 2 ^ w, 0)
  | 0x29 => (if b ≥ w then 0 else a / 2 ^ b, 0)
  | 0x2A => (if b ≥ w then ones w (decide (sa < 0)) else ofS w (sa / 2 ^ b), 0)
  | 0x2B => (a &&& b, 0)
  | 0x2C => (a ||| b, 0)
  | 0x2D => (a ^^^ b, 0)
  | 0x2E => (2 ^ w - 1 - a, 0)
  | 0x2F => (if sa ≤ sb then a else b, 0)
  | 0x30 => (if sa ≥ sb then a else b, 0)
  | 0x31 => (ones w (decide (sa < sb)), 0)
  | _ => (ones w (decide (a = b)), 0)

/-- Whether a code of Table 5.1 is assigned. -/
def laneOpOk (op : Nat) : Bool :=
  decide (op ≤ 0x14) && op != 0x0F || decide (0x18 ≤ op ∧ op ≤ 0x1D) || decide (0x20 ≤ op ∧ op ≤ 0x32)

/-- Operands that an operation takes (R293). -/
def laneArity (op : Nat) : Nat :=
  if op ∈ [0x07, 0x08, 0x0B, 0x0C, 0x0E, 0x18, 0x19, 0x1A, 0x1B, 0x1C, 0x1D, 0x2E] then 1
  else if op ∈ [0x04, 0x05, 0x14] then 3
  else 2

/-- Whether RM applies: the operations that the text under Table 5.1 lists, and CVT.F2I by R120. -/
def laneRm (op rm : Nat) : Nat := if op ∈ [1, 2, 3, 4, 5, 6, 7, 8, 0x18, 0x19] then rm else 0

/-- Whether an operation acts on a type (DEDUCED, log 31). -/
def laneTyOk (op : Nat) (t : LaneTy) : Bool :=
  if op = 0x14 then true
  else if op ≤ 0x13 then t == .f32 || t == .bf16
  else if op ≤ 0x1D then true
  else t == .i32 || t == .i64

/-- One lane operation of Table 5.1 (R115). -/
def laneOp (op rm : Nat) (t : LaneTy) (a b c : Nat) : FRes :=
  let r := laneRm op rm
  if op = 0x14 then (if a = 0 then c else b, 0)
  else if op ≤ 0x13 then laneFloat op r t a b c
  else match op with
  | 0x18 => fToInt r a
  | 0x19 => iToFloat r a
  | 0x1A => (narrow16 a, narrowFlags 7 a)
  | 0x1B => (narrow24 a, narrowFlags 15 a)
  | 0x1C => (widen16 a, 0)
  | 0x1D => (widen24 (a % 16777216), 0)
  | _ => laneInt op (laneW t) a b

/-! ### The built-in steps (R132), on binary32 with roundTiesToEven -/

/-- A list of results with the flags gathered. -/
abbrev Stepped := List Nat × Nat

def hyp (h : List Half) (i : Nat) : Nat := (h.getD i 0).toNat

def mul32 (a b : Nat) : FRes := fMul 23 0 a b
def fma32 (a b c : Nat) : FRes := fFma 23 0 a b c
def neg32 (a : Nat) : Nat := negOf 23 a

def adamwStep (h : List Half) (w m v g0 : Nat) : Stepped :=
  let g := mul32 (hyp h 0) g0
  let t1 := mul32 (hyp h 2) g.1
  let m1 := fma32 (hyp h 1) m t1.1
  let t2 := mul32 g.1 g.1
  let t3 := mul32 (hyp h 4) t2.1
  let v1 := fma32 (hyp h 3) v t3.1
  let d := fSqrt 23 0 v1.1
  let d1 := fma32 d.1 (hyp h 8) (hyp h 5)
  let u := fDiv 23 0 m1.1 d1.1
  let w1 := fma32 (neg32 (hyp h 6)) w w
  let w2 := fma32 (neg32 (hyp h 7)) u.1 w1.1
  ([w2.1, m1.1, v1.1],
   g.2 ||| t1.2 ||| m1.2 ||| t2.2 ||| t3.2 ||| v1.2 ||| d.2 ||| d1.2 ||| u.2 ||| w1.2 ||| w2.2)

def lionStep (h : List Half) (w m g0 : Nat) : Stepped :=
  let g := mul32 (hyp h 0) g0
  let t1 := mul32 (hyp h 2) g.1
  let c := fma32 (hyp h 1) m t1.1
  let u := fSignOp 23 c.1
  let w1 := fma32 (neg32 (hyp h 6)) w w
  let w2 := fma32 (neg32 (hyp h 7)) u.1 w1.1
  let t4 := mul32 (hyp h 4) g.1
  let m1 := fma32 (hyp h 3) m t4.1
  ([w2.1, m1.1], g.2 ||| t1.2 ||| c.2 ||| u.2 ||| w1.2 ||| w2.2 ||| t4.2 ||| m1.2)

def sgdmStep (h : List Half) (w b g0 : Nat) : Stepped :=
  let g := mul32 (hyp h 0) g0
  let g1 := fma32 (hyp h 6) w g.1
  let t1 := mul32 (hyp h 2) g1.1
  let b1 := fma32 (hyp h 1) b t1.1
  let u := if (hyp h 9).testBit 0 then fma32 (hyp h 1) b1.1 g1.1 else (b1.1, 0)
  let w2 := fma32 (neg32 (hyp h 7)) u.1 w
  ([w2.1, b1.1], g.2 ||| g1.2 ||| t1.2 ||| b1.2 ||| u.2 ||| w2.2)

/-- Whether the reserved words of a hyper-operand block are 0 (Table 5.4); op 0 AdamW, 1 Lion, 2 SGD, 3 a microprogram. -/
def hyperOk (op : Nat) (h : List Half) : Bool :=
  let z (l : List Nat) := l.all (fun i => hyp h i == 0)
  match op with
  | 0 => z [9, 10, 11, 12, 13, 14, 15]
  | 1 => z [5, 8, 9, 10, 11, 12, 13, 14, 15]
  | 2 => z [3, 4, 5, 8, 10, 11, 12, 13, 14, 15] && decide (hyp h 9 ≤ 1)
  | _ => true

/-! ### Microprograms (R137 to R139) -/

/-- Value of a micro-operand: inputs, constants, hyper words and temporaries (Table 5.7). -/
def microArg (ins h : List Half) (t : SMap Nat) (c : Nat) : Nat :=
  if c ≤ 4 then (ins.getD c 0).toNat
  else if c = 5 then 0
  else if c = 6 then oneOf 23 false
  else if c = 7 then oneOf 23 true
  else if c < 0x10 then 0
  else if c < 0x20 then hyp h (c - 0x10)
  else SMap.look 0 t (c - 0x20)

/-- Type that a code acts on in a microprogram (R138). -/
def microTy (op : Nat) : LaneTy := if op < 0x20 then .f32 else .i32

/-- Runs micro-operations in word order: temporaries, outputs and flags. -/
def microRun (ins h : List Half) : List Word → SMap Nat → SMap Nat → Nat → SMap Nat × Nat
  | [], _, out, fl => (out, fl)
  | w :: ws, t, out, fl =>
    let x := w.toNat
    let op := bitsOf 26 6 x
    let dst := bitsOf 18 6 x
    if op = 0 then microRun ins h ws t out fl
    else
      let r := laneOp op (bitsOf 24 2 x) (microTy op) (microArg ins h t (bitsOf 12 6 x))
        (microArg ins h t (bitsOf 6 6 x)) (microArg ins h t (bitsOf 0 6 x))
      if dst < 0x20 then microRun ins h ws t (SMap.put out (dst - 8) r.1) (fl ||| r.2)
      else microRun ins h ws (SMap.put t (dst - 0x20) r.1) out (fl ||| r.2)

/-! ### MX formats (R326 to R328) -/

/-- Element format of an MX code: exponent bits, fraction bits, bias, EMAX, block bytes, element bits. -/
structure Mx where
  eb : Nat
  fb : Nat
  bias : Nat
  emax : Int
  blk : Nat
  bits : Nat
  deriving DecidableEq, Repr

def mxOf (fmt : Nat) : Option Mx :=
  match fmt with
  | 0x10 => some ⟨4, 3, 7, 8, 33, 8⟩
  | 0x11 => some ⟨5, 2, 15, 15, 33, 8⟩
  | 0x12 => some ⟨3, 2, 3, 4, 25, 6⟩
  | 0x13 => some ⟨2, 3, 1, 2, 25, 6⟩
  | 0x14 => some ⟨2, 1, 1, 2, 17, 4⟩
  | _ => none

/-- Largest finite magnitude code (Table 11.4). -/
def mxMaxCode (fmt : Nat) : Nat :=
  match fmt with
  | 0x10 => 0x7E
  | 0x11 => 0x7B
  | 0x12 => 0x1F
  | 0x13 => 0x1F
  | _ => 0x7

/-- round_sat of R327: the magnitude m × 2^q under roundTiesToEven, saturated. -/
def mxRound (fmt : Nat) (x : Mx) (s : Bool) (m : Nat) (q : Int) : Nat :=
  let low : Int := 1 - (x.bias : Int) - x.fb
  let mag :=
    if m = 0 then 0
    else
      let lsb := max (q + bitLen m - 1 - x.fb) low
      let r := (cutTo 0 s m q lsb).1
      min ((lsb - low).toNat * 2 ^ x.fb + r) (mxMaxCode fmt)
  mag + (if s then 2 ^ (x.bits - 1) else 0)

/-- NaN code of a format that has one (R327). -/
def mxNan (fmt : Nat) (s : Bool) : Nat := (if fmt = 0x10 then 0x7F else 0x7E) + (if s then 0x80 else 0)

/-- floor_log2 of a finite non-zero value. -/
def floorLog2 (x : Nat) : Int := let (m, q) := magOf 23 x; q + bitLen m - 1

/-- mx_block of R327: the scale byte and the codes of 32 binary32 values. -/
def mxBlock (fmt : Nat) (x : Mx) (vs : List Nat) : Nat × List Nat :=
  if fmt ≥ 0x12 && vs.any isNan32 then (0xFF, List.replicate 32 0)
  else
    let fin := (vs.filter fun v => fExp 23 v != 255).map (absOf 23)
    let amax := fin.foldl max 0
    let e : Int := if amax = 0 then -127 else max (-127) (floorLog2 amax - x.emax)
    let code (v : Nat) : Nat :=
      if isNan32 v then mxNan fmt (fSign 23 v)
      else if isInf 23 v then mxMaxCode fmt + (if fSign 23 v then 2 ^ (x.bits - 1) else 0)
      else let (m, q) := magOf 23 v; mxRound fmt x (fSign 23 v) m (q - e)
    ((e + 127).toNat, vs.map code)

/-- Bits of a block of codes (R326): the scale byte, then the elements. -/
def mxPack (x : Mx) (b : Nat × List Nat) : List Byte :=
  BitVec.ofNat 8 b.1 :: toBytes (x.blk - 1) (pack (b.2.map fun c => (x.bits, c)))

/-- Code of element j of a block. -/
def mxCode (x : Mx) (blk : List Byte) (j : Nat) : Nat := bitsOf (x.bits * j) x.bits (ofBytes (blk.drop 1))

/-- An MX element as binary32 (R328). -/
def mxWiden (fmt : Nat) (x : Mx) (scale code : Nat) : Nat :=
  let s := code.testBit (x.bits - 1)
  let mag := code % 2 ^ (x.bits - 1)
  if scale = 0xFF then 0x7FC00000
  else if fmt = 0x10 && mag == 0x7F then 0x7FC00000
  else if fmt = 0x11 && mag > 0x7C then 0x7FC00000
  else if fmt = 0x11 && mag == 0x7C then infOf 23 s
  else
    let e := mag / 2 ^ x.fb
    let f := mag % 2 ^ x.fb
    let m := if e = 0 then f else f + 2 ^ x.fb
    let q : Int := (max e 1 : Nat) - (x.bias : Int) - x.fb + scale - 127
    if m = 0 then signBit 23 s else (roundTo 23 0 s m q).1

/-- Saturating bfloat16 of publication (R330). -/
def publish16 (v : Nat) : Nat :=
  if isNan32 v then narrow16 v
  else
    let r := narrow16 v
    if isInf 7 r then 0x7F7F + (if fSign 23 v then 0x8000 else 0) else r

/-! ### Formats of Table 2.3 -/

/-- Element width in bytes of a format that has one (R124, R468). -/
def fmtWidth (fmt : Nat) : Nat :=
  match fmt with
  | 0 => 1
  | 1 => 4
  | 2 => 2
  | 3 => 4
  | 4 => 4
  | 5 => 8
  | _ => 0

def fmtKnown (fmt : Nat) : Bool := decide (fmt ≤ 5) || decide (0x10 ≤ fmt ∧ fmt ≤ 0x14)
def fmtMx (fmt : Nat) : Bool := decide (0x10 ≤ fmt ∧ fmt ≤ 0x14)

/-- Element count of an extent of units 4,096-byte units (R468). -/
def elemCount (fmt units : Nat) : Nat :=
  match mxOf fmt with
  | some x => 32 * (units * 4096 / x.blk)
  | none => units * 4096 / max 1 (fmtWidth fmt)

/-- An element of a format as the exact binary32 pattern (Table 5.2, R33). -/
def toF32 (fmt v : Nat) : Nat :=
  match fmt with
  | 2 => widen16 v
  | 3 => widen24 (v % 16777216)
  | _ => v

/-- A binary32 pattern stored in a format (Table 5.2). -/
def ofF32 (fmt v : Nat) : Nat :=
  match fmt with
  | 2 => narrow16 v
  | 3 => narrow24 v
  | _ => v

/-- Input conversion of Table 5.2, none for a pair it does not list. -/
def laneIn (t : LaneTy) (fmt v : Nat) : Option Nat :=
  match t, fmt with
  | .f32, 1 => some v
  | .f32, 2 => some (widen16 v)
  | .f32, 3 => some (widen24 (v % 16777216))
  | .bf16, 2 => some v
  | .bf16, 1 => some (narrow16 v)
  | .i32, 4 => some v
  | .i32, 0 => some v
  | .i64, 5 => some v
  | .i64, 4 => some (ofS 64 (toS 32 v))
  | _, _ => none

/-- Output conversion of Table 5.2. -/
def laneOut (t : LaneTy) (fmt v : Nat) : Option Nat :=
  match t, fmt with
  | .f32, 1 => some v
  | .f32, 2 => some (narrow16 v)
  | .f32, 3 => some (narrow24 v)
  | .bf16, 2 => some v
  | .bf16, 1 => some (widen16 v)
  | .i32, 4 => some v
  | .i32, 0 => some (v % 256)
  | .i64, 5 => some v
  | .i64, 4 => some (v % 4294967296)
  | _, _ => none

/-- Flags that the input conversion of Table 5.2 raises (R121). -/
def laneInFlags (t : LaneTy) (fmt v : Nat) : Nat :=
  match t, fmt with
  | .bf16, 1 => narrowFlags 7 v
  | _, _ => 0

/-- Flags that the output conversion of Table 5.2 raises (R121). -/
def laneOutFlags (t : LaneTy) (fmt v : Nat) : Nat :=
  match t, fmt with
  | .f32, 2 => narrowFlags 7 v
  | .f32, 3 => narrowFlags 15 v
  | _, _ => 0

/-- Table 11.3: whether the format unit converts a pair (R325). -/
def cvtOk (a b : Nat) : Bool :=
  let f (x : Nat) := x == 1 || x == 2 || x == 3
  a != b && ((f a && f b) || ((a == 1 || a == 2) && fmtMx b) || (fmtMx a && (b == 1 || b == 2)))

/-- The format unit on one element between formats with whole-byte widths (Table 11.3). -/
def cvtElem (a b v : Nat) : Nat := ofF32 b (toF32 a v)

end Sys2Proof.Machine
end

