-- ==== Sys2Proof/Config.lean ====
section
/-! DEFINITION. What an implementation fixes and what the spec leaves open: the free values (DESIGN CHOICE, log 8). -/

namespace Sys2Proof

/-- The byte that an undefined byte takes: spec/06 R174, spec/14 R400 and R407 leave such bytes undefined (DESIGN CHOICE, log 8). Nothing constrains it. -/
opaque Config.freeByte : Nat → Byte

/-- The result that the spec does not state, as a word (DESIGN CHOICE, log 8). -/
opaque Config.freeWord : Nat → Word

/-- The valid entries of the region table of a member of the job, as index and words: a host of a spread rebuild works by those of the failed member, and the spec does not say how they reach it (spec/07 R206; DESIGN CHOICE, log 74). -/
opaque Config.memberEntries : Nat → List (Nat × List Word)

/-- The bytes that a live replica of a REPLICATED region holds at an epoch, by its rank, the epoch, the region's index and the byte's place; how they travel the spec does not say (spec/02 Table 2.4; DESIGN CHOICE, log 48). -/
opaque Config.replicaByte : Nat → Nat → Nat → Nat → Byte

/-- The element count that the root of a broadcast names, by its rank, the partition, the axes and the sequence number: every member has it, and the spec does not say how it reaches the others (spec/10 R302, spec/06 Table 6.2; DESIGN CHOICE, log 157). -/
opaque Config.rootElems : Nat → Nat → Nat → Nat → Nat

/-- What an h operand of a MAP microprogram reads, by its number: class 3 has no hyper-operand block, and the spec states no value (spec/05 R138; DESIGN CHOICE, log 186). -/
opaque Config.mapHyper : Nat → Half

/-- A byte of a code, or of a scale, that the spec does not state for an MX block written in part, by format, the operands (the old block and its elements) and the element: a function of the operands, since no result depends on anything else (spec/05 R115, spec/12 R346; DESIGN CHOICE, log 54). -/
opaque Config.mxByte : Nat → List Nat → Nat → Byte

namespace Config

/-- T0 is the lower 160 MiB of the state SRAM (spec/15 R411). -/
def t0Bytes : Nat := 160 * 1048576

/-- Lines of the state SRAM: 256 MiB of 64 bytes (R411). -/
def sramLines : Nat := 4194304

/-- Sizes in MiB of the block's own areas, which lie above T0, in the order of Table 15.1: train store, ahead area, collective area, peer generation table, gateway store, record buffer, page records, rebuild progress bitmap, and pair table with step record and engine staging (R412; that they lie in this order is DESIGN CHOICE, log 180). -/
def areaMib : List Nat := [8, 4, 16, 1, 1, 1, 32, 16, 17]

/-- First byte and length of block area k. -/
def area (k : Nat) : Nat × Nat := (t0Bytes + (areaMib.take k).sum * 1048576, areaMib.getD k 0 * 1048576)

/-- Train store (Table 15.1). -/
def trainStoreBytes : Nat := 8 * 1048576

/-- Ahead area (Table 15.1). -/
def aheadBytes : Nat := 4 * 1048576

/-- Record buffer (Table 15.1, spec/12 R358). -/
def recordBuffer : Nat := 1048576

/-- Gateway store (Table 15.1). -/
def gatewayBytes : Nat := 1048576

/-- Entries of the region table (R25). -/
def regions : Nat := 16384

/-- Entries of the exception table (R218). -/
def xlatEntries : Nat := 4096

/-- Pairs whose memory-operation records are kept (R240). -/
def opPairs : Nat := 4096

/-- Pages the pool may hold (R338). -/
def maxPages : Nat := 8388608

/-- Open collectives of one partition (R162). -/
def maxColl : Nat := 8

/-- Keys of the merge table (R182). -/
def mergeKeys : Nat := 512

/-- Entries of the step record (R136). -/
def stepRecords : Nat := 16

/-- Unanswered operations of one pair (R240). -/
def maxUnanswered : Nat := 256

/-- Transfers of prefetch schedules in flight (R322). -/
def maxTransfers : Nat := 64

/-- Lines of the SRAM write-back queue (R416). -/
def writeBackLines : Nat := 16

end Config
end Sys2Proof
end

