-- ==== Sys2Proof/Machine/State.lean ====
section
/-! DEFINITION. The state of the block as plain data, every piece the spec names (INVENTORY.md lists each with its rule), the reasons a command can stop, and the state after reset. -/

namespace Sys2Proof.Machine

/-- Why the machine stops with a fault. -/
inductive Fault where
  /-- Raised by execWriteBack for a line number that the 256 MiB of spec/15 R411 do not hold. Safe: no such line exists. -/
  | noSuchLine
  /-- Raised by execCodedStoreWrite and execExperienceTapWrite for a T0 address at or above 160 MiB, which spec/15 R412 says no external agent addresses. Safe: no such address exists for them. -/
  | blockArea
  deriving DecidableEq, Repr

/-- Why a command has no meaning. -/
inductive Refusal where
  /-- Raised by arms of exec that have no meaning yet. Safe: nothing follows from them. -/
  | notModelled (mnemonic : String)
  deriving DecidableEq, Repr

/-- A register field whose write waits for the next commit while a partition is bound (spec/18 R467): next lists the writes that wait with the time of each, the newest first, since one of the commit's own cycle waits for the commit after it (spec/02 R49). -/
structure Deferred where
  now : Word
  next : List (Nat × Word) := []
  deriving DecidableEq, Repr

inductive Grade where
  | a
  | b
  deriving DecidableEq, Repr

/-- Fuses, straps and tie-offs (spec/01 R20, R23, spec/15 R419, R427, spec/11 R314, spec/17 R457); factorySpare lists bank, row and factory spare of the rows mapped at manufacture. -/
structure Fuse where
  grade : Grade := .a
  build : Half := 1
  identity : Word := 0
  hostBw : Nat := 2400
  straps : Fin 4 := 0
  factorySpare : List (Nat × Nat × Nat) := []
  deriving DecidableEq, Repr

inductive ResetKind where
  | none
  | powerOn
  | fromOff
  | warm
  deriving DecidableEq, Repr

/-- Time base, clocks and reset status (spec/16); wall is the time that has passed in ns, whatever is written into TKJ_TIME, cycle is the core cycle counter, gated the core cycles that IDLE has held back (spec/12 R349, Table 12.6). -/
structure Clk where
  time : Nat := 0
  wall : Nat := 0
  cycle : Nat := 0
  gated : Nat := 0
  refclk : Bool := true
  pwrGood : Bool := true
  ready : Bool := true
  rstCause : Nat := 1
  gstatCause : Nat := 0
  reset : ResetKind := .none
  deriving DecidableEq, Repr

inductive PwrState where
  | run
  | idle
  | sleep
  | deep
  | off
  deriving DecidableEq, Repr

/-- Power state machine (spec/16 Tables 16.12 to 16.15). -/
structure Pwr where
  ctl : Deferred := ⟨0x640100, []⟩
  req : Nat := 0
  refused : Bool := false
  cause : Nat := 0
  state : PwrState := .run
  entering : Option PwrState := none
  step : Nat := 0
  quiet : Bool := false
  aborts : Nat := 0
  idleNs : Nat := 0
  idleSince : Nat := 0
  wakeFrom : Nat := 0
  abortPt : Nat := 0
  wakeSrc : Nat := 0
  pendingWake : Nat := 0
  padHold : Nat := 0x1D
  torndown : List Nat := []
  deriving DecidableEq, Repr

/-- Pin levels (spec/17 Table 17.1) and strobes; wakeLow says that WAKE_N has been low for at least 2 cycles of REFCLK_AO (R447). -/
structure Pins where
  wakeN : Bool := true
  wakeLow : Bool := false
  alertN : Bool := true
  alertHeld : Bool := false
  genStep : Nat := 0
  deriving DecidableEq, Repr

/-- Mode register and slot tables (spec/12); held gives the partition that holds each core and engine unit, since the core cycle at which it took it (R348, R351). -/
structure Mode where
  compat : Bool := false
  chervil : Bool := false
  chervilNext : List (Nat × Bool) := []
  table : Option (List Byte) := none
  tableNext : Option (List Byte) := none
  tableCrc : Half := 0
  held : SMap Nat := []
  since : SMap Nat := []
  deriving DecidableEq, Repr

/-- Digest comparison (spec/13 R388). -/
structure Digest where
  ports : Nat := 0
  count : Nat := 0
  diff : SMap Nat := []
  same : SMap Nat := []
  deriving DecidableEq, Repr

/-- Record and replay unit (spec/12 Tables 12.9 to 12.13); same holds the entries of the latest cycle with their places in the order of R357, sameAt that cycle; buf holds, by address, the log writes that wait in the buffer while HOST is held, waits is a replay that waits to read its log (R358, spec/16 R437). -/
structure Rec where
  active : Bool := false
  full : Bool := false
  refused : Bool := false
  done : Bool := false
  payload : Bool := false
  wrap : Bool := false
  atCommit : Bool := false
  op : Nat := 0
  armed : Bool := false
  passed : Bool := false
  wrapped : Bool := false
  base : Word := 0
  pbase : Word := 0
  size : Word := 0
  pos : Nat := 0
  payPos : Nat := 0
  start : Nat := 0
  stat : Word := 0
  same : List (Nat × List Byte) := []
  sameAt : Nat := 0
  buf : List (Nat × List Byte) := []
  waits : Bool := false
  deriving DecidableEq, Repr

structure VecMap where
  mask : Bool := true
  pend : Bool := false
  entry : Nat
  deriving DecidableEq, Repr

/-- Message unit (spec/13 Tables 13.16 and 13.17); sent lists the MSI-X entries requested, newest first. -/
structure Msg where
  vec : SMap VecMap := []
  cause : Nat := 0
  sent : List Nat := []
  deriving DecidableEq, Repr

/-- An alert message of Table 17.5. -/
structure AlertMsg where
  src : Nat
  kind : Nat
  detail : Nat
  dest : Nat
  speed : Nat
  deriving DecidableEq, Repr

/-- Service port and management bus (spec/17); ptr is the pointer of the I²C target (R457); queue holds KIND and DETAIL of the alert messages still to send (R460); owed is a pulse that waits for the SIDEBAND pads (spec/16 R437). -/
structure Side where
  full : Bool := false
  svcStat : Word := 0
  frame : Option (SvcFrame × List Word) := none
  mgtCtl : Word := 0x904003E8000003FF
  stuck : Bool := false
  driving : Bool := false
  mgtStat : Word := 0
  alert : Nat := 0
  holdoff : Bool := false
  rose : Nat := 0
  queue : List (Nat × Nat) := []
  owed : Bool := false
  attempts : Nat := 0
  lost : Bool := false
  target : Bool := false
  ptr : Nat := 0
  sent : List AlertMsg := []
  deriving DecidableEq, Repr

/-- Keep store (spec/15 R422 to R426). -/
structure Keep where
  word : SMap Word := [(1, 0x802)]
  count : SMap Nat := []
  verifyFail : SMap Bool := []
  lock : Word := 0xFF00000000000000
  busy : Option (Nat × Word) := none
  queue : List (Nat × Word) := []
  last : Nat := 0
  drop : Nat := 0
  snap : Bool := false
  life : SMap Nat := []
  base : Nat := 0
  deriving DecidableEq, Repr

/-- State SRAM beside the bytes of T0 (spec/15 R411 to R421); fixBytes lists the bytes that the write-back queue is to correct (R416), met the uncorrectable bytes of the block areas whose contents have been given up (R417; log 180). -/
structure Sram where
  check : SMap (BitVec 5) := []
  valid : SMap Bool := []
  wbq : List Nat := []
  fixBytes : List Nat := []
  met : List Nat := []
  en : Bool := true
  slow : Bool := false
  limitS : Nat := 0
  pos : SMap Nat := []
  lapStart : Nat := 0
  lapEnd : Nat := 0
  running : Bool := false
  lap : Word := 0
  ecc : Word := 0
  split : Word := 0
  splitArm : Bool := false
  conflict : Bool := false
  spare : List (Nat × Nat × Nat) := []
  factory : List (Nat × Nat × Nat) := []
  deriving DecidableEq, Repr

structure XlatEnt where
  valid : Bool := false
  retired : Bool := false
  coord : Nat := 0
  rank : Nat := 0
  deriving DecidableEq, Repr

/-- Outcome kept for one operation of a pair (R240). -/
structure OpRecord where
  outcome : Nat := 0
  old : Word := 0
  msg : Option MemMsg := none
  hdr : Option FrameHdr := none
  deriving DecidableEq, Repr

/-- Records of one (source rank, source partition) pair at the destination (R240). -/
structure OpPair where
  rank : Nat
  part : Part
  next : Nat := 0
  ops : SMap OpRecord := []
  deriving DecidableEq, Repr

/-- Copy units that a destination has taken, for R243. -/
structure CopyIn where
  rank : Nat
  part : Nat
  copyId : Nat
  seen : List Nat := []
  deriving DecidableEq, Repr

/-- What the block answers to the surroundings and the sideband ports (outputs), newest first. -/
inductive Resp where
  | tally (count : Half) (reached : Bool)
  | bay (bayB : Bool) (base : Word) (epoch : Nat)
  | refusedBay
  | page (n : Nat)
  | noRoom
  | ctl (v : Word)
  | svc (vs : List Word)
  | i2c (v : Word)
  | i2cNack
  | svcWords (vs : List Half)
  deriving DecidableEq, Repr

/-- A flit that this block puts on a link (spec/08 R244): flit index of the frame that it carries, if any, for a lane-map flit the new map (R248), for a training flit what it tells of this block (R247). -/
structure OutFlit where
  lseq : Nat := 0
  ack : Nat := 0
  vc : Nat := 0
  sof : Bool := false
  eof : Bool := false
  kind : Nat := 0
  lanes : Nat := 0
  info : Option PeerInfo := none
  frame : Option Frame := none
  index : Nat := 0
  deriving DecidableEq, Repr

/-- Fabric router, rank translation and memory operations (spec/08); aliases lists the ranks that exception entries gave the block to serve, the latest first (Table 8.16). -/
structure Fab where
  torus : Word := 0
  coord : Nat := 0
  aliases : List Nat := []
  xlat : SMap XlatEnt := []
  xlatIndex : Nat := 0
  xlatEnt : Word := 0
  unmapped : Nat := 0
  stat : Word := 0
  memopCtl : Word := 0x3E8000003E8
  memopStat : Word := 0
  tx : List (Nat × Frame) := []
  line : List (Nat × OutFlit) := []
  held : List (Nat × Frame) := []
  loop : List Frame := []
  floods : List (Nat × Nat × Nat × Nat × Nat) := []
  peerGen : SMap (List Nat) := []
  pairs : List OpPair := []
  copies : List CopyIn := []
  gw : SMap (List (FrameHdr × MemMsg)) := []
  resp : List Resp := []
  deriving DecidableEq, Repr

inductive PortState where
  | off
  | seek
  | lock
  | align
  | train
  | up
  | hold
  | lowrate
  | down
  deriving DecidableEq, Repr

inductive LaneState where
  | off
  | seek
  | lock
  | active
  | cal
  | spare
  | failed
  | lowrate
  deriving DecidableEq, Repr

/-- Heartbeat record of a port (R180). -/
structure HbRecord where
  identity : Word
  inc : Nat
  rank : Nat
  deriving DecidableEq, Repr

/-- A frame that waits at a port transmitter, with its queue: a partition, or 16 for FWD (spec/08 R235). -/
structure Ready where
  queue : Nat
  frame : Frame
  deriving DecidableEq, Repr

/-- One Yillet port (spec/08 Tables 8.10 to 8.15) with its link layer and heartbeat watch: buf is the replay buffer (R246), ready, credit and turn the scheduler of R235, spent the bytes that rebuild chains (4) and audit trains (5) have sent, and those of all frames, since one began to wait (R235), sent the bytes of the frames charged to each partition (spec/13 R379), rxOpen the virtual channels in which a frame is being received (R244), fixes the corrected symbols of the last second by lane and time (R249), linkFault the mark of R232; before is the state, with its lanes, from which an entry to SLEEP, DEEP or OFF took the port, until it is back (spec/16 R434, R436); cal is the lane in calibration, the state it returns to, and when (R248). -/
structure PortSt where
  en : Bool := true
  ctl : Deferred := ⟨0x3E80081, []⟩
  state : PortState := .off
  spareUsed : Bool := false
  laserLow : Bool := false
  miswired : Bool := false
  lane : SMap LaneState := []
  cal : Option (Nat × LaneState × Nat) := none
  spareFor : Nat := 31
  fec : Word := 0
  link : Word := 0
  share0 : Deferred := ⟨0x0808080808080808, []⟩
  share1 : Deferred := ⟨0x0808080808080808, []⟩
  share2 : Deferred := ⟨0x80, []⟩
  peer : Option PeerInfo := none
  record : Option HbRecord := none
  missed : Nat := 0
  gotHb : Bool := false
  quietPeer : Bool := false
  clearRun : Nat := 0
  suspect : Bool := false
  lockLoss : Bool := false
  rxNext : Nat := 0
  txNext : Nat := 0
  txAck : Nat := 0
  replays : Nat := 0
  buf : List OutFlit := []
  ready : List Ready := []
  credit : SMap Nat := []
  turn : Nat := 0
  spent : SMap (Nat × Nat) := []
  sent : SMap Nat := []
  rxOpen : List Nat := []
  fixes : List (Nat × Nat × Nat) := []
  linkFault : Bool := false
  retrain : Bool := false
  holdTill : Nat := 0
  holdJob : Bool := false
  before : Option (PortState × SMap LaneState) := none
  laneMap : Nat := 0
  deriving DecidableEq, Repr

/-- A region entry (Table 2.1). -/
structure Region where
  tier : Nat := 0
  base : Nat := 0
  units : Nat := 0
  owner : Nat := 0
  cls : Nat := 0
  format : Nat := 0
  fresh : Bool := false
  group : Nat := 0
  fidEpoch : Nat := 0
  fidelity : Bool := false
  exportPend : Bool := false
  valid : Bool := false
  source : Nat := 0
  replicas : Nat := 0
  deriving DecidableEq, Repr

/-- Region table and its registers (Tables 2.11 to 2.13); late keeps, of every entry written while a job is open, the one in force for that job (R28). -/
structure Regs where
  table : SMap Region := []
  late : SMap Region := []
  index : Nat := 0
  ent : SMap Word := []
  refused : Bool := false
  cause : Nat := 0
  refuseCnt : Nat := 0
  deriving DecidableEq, Repr

/-- A group slot (Table 3.10). -/
structure Group where
  en : Bool := false
  mode : Nat := 0
  axis : Nat := 0
  standbys : Nat := 0
  self : Nat := 0
  k : Nat := 8
  m : Nat := 2
  rank0 : Nat := 0
  dataUnits : Nat := 0
  parTier : Nat := 0
  parBase : Nat := 0
  hdrTier : Nat := 0
  hdrBase : Nat := 0
  live : Nat := 0
  lost : Bool := false
  sorrel : Bool := false
  badGeom : Bool := false
  cause : Nat := 0
  deriving DecidableEq, Repr

/-- Epoch, phases and the open epoch's own flags (spec/02, spec/04); commitAt is the instant of the last commit (R49). -/
structure Epoch where
  epoch : Nat := 0
  phase : Nat := 0
  skip : Bool := false
  fid : Bool := false
  rerun : Bool := false
  limit : Bool := false
  stat : Word := 0
  attempt : Nat := 0
  vote : Nat := 0
  flag : Bool := false
  voted : Bool := false
  closed : Bool := false
  landedRep : Bool := false
  guardedRep : Bool := false
  updEnded : Bool := false
  endupd : Bool := false
  guardWave : Bool := false
  lastWave : Nat := 0
  ahead : List (Nat × Frame) := []
  skipped : Bool := false
  committed : Nat := 0
  lastSkip : Nat := 0
  freshDone : List Nat := []
  commitAt : Option Nat := none
  deriving DecidableEq, Repr

/-- TKJ_FIDELITY (Table 2.14). -/
structure Fidelity where
  epoch : Nat := 0
  valid : Bool := false
  rank : Nat := 0
  region : Nat := 0
  deriving DecidableEq, Repr

/-- A peer's admission records (R375). -/
structure Peer where
  identity : Word := 0
  inc : Nat := 0
  gens : List Nat := []
  geoms : SMap (Nat × Nat) := []
  replicas : SMap Nat := []
  done : Bool := false
  deriving DecidableEq, Repr

/-- A group of the job's directory (R181). -/
structure DirGroup where
  slot : Nat
  rank0 : Nat
  axis : Nat
  members : Nat
  standbys : Nat
  deriving DecidableEq, Repr

/-- A command in progress in the front end or on a sequencer. -/
structure CurCmd where
  p : Part
  q : Queue
  cid : Nat
  sqHead : Nat
  instr : Bool
  step : Bool := false
  epv : Option Nat := none
  cqGen : Nat := 0
  deriving DecidableEq, Repr

/-- The job admitted on this block (R375). -/
structure Job where
  tag : Nat := 0
  stepPart : Option Part := none
  members : List Nat := []
  inc : Nat := 0
  admitting : Option CurCmd := none
  exchanged : Bool := false
  peers : SMap Peer := []
  dir : List DirGroup := []
  teardown : Option CurCmd := none
  deriving DecidableEq, Repr

/-- A contribution that was sent and has not landed (R103). -/
structure InFlight where
  seq : Nat
  payload : Option UnitImg
  width : Nat
  guard : Bool
  narrow : Bool
  queried : Bool := false
  attempt : Nat
  deriving DecidableEq, Repr

/-- What this block owes one parity unit as one column (R100, R107); sweep says that its first contribution of the epoch is formed, guarded that its guard contribution is. -/
structure Out where
  slot : Nat
  stripe : Nat
  row : Nat
  col : Nat
  unit : Nat
  epoch : Nat
  last : Nat := 0
  sweep : Bool := false
  guarded : Bool := false
  ready : Option InFlight := none
  flight : Option InFlight := none
  pend : Option UnitImg := none
  bypassed : Bool := false
  wave : Nat := 1
  deriving DecidableEq, Repr

/-- A coded-store write that waits (R109, R110). -/
structure HeldWrite where
  addr : Word
  data : List Byte
  since : Nat
  deriving DecidableEq, Repr

/-- A train, chain or audit frame in the train store (R96, R97, R471). -/
structure Stored where
  port : Nat
  frame : Frame
  deriving DecidableEq, Repr

/-- A coding unit that a STEP instruction wrote, with its landing wave; a held one waits for the waves before it (R200). -/
structure WaveUnit where
  ins : Nat
  wave : Nat
  slot : Nat
  stripe : Nat
  col : Nat
  held : Bool
  deriving DecidableEq, Repr

/-- NOTICE entries that a holder gathers for one contributor, with the epoch and attempt that they share (spec/04 R102, Table 4.4). -/
structure NoticeBatch where
  epoch : Nat := 0
  attempt : Nat := 0
  entries : List NoticeEntry := []
  deriving DecidableEq, Repr

/-- Coding engine, parity keeper and outbox (spec/03, spec/04); holds lists the partitions whose write the coded-store path holds, and 16 for one of a frame, stalls the partitions whose STEP instruction stands for payload space, each with the time since which some does (R108 to R110). -/
structure Cod where
  unitCheck : Word := 0
  trainWin : Deferred := ⟨200, []⟩
  outboxBase : Word := 0
  outboxSize : Word := 4096
  peak : Nat := 0
  holds : List Nat := []
  holdFrom : Option Nat := none
  stalls : List Nat := []
  stallFrom : Option Nat := none
  trainStat : Word := 0
  noticeStat : Word := 0
  codeStat : Word := 0
  outboxStall : Word := 0
  out : SMap Out := []
  lastSeq : SMap Nat := []
  shadow : SMap UnitImg := []
  held : List HeldWrite := []
  store : List Stored := []
  batches : SMap NoticeBatch := []
  dirty : SMap Bool := []
  deltas : SMap UnitImg := []
  peakNow : Nat := 0
  heldFrames : List Frame := []
  waves : List WaveUnit := []
  walked : List Nat := []
  deriving DecidableEq, Repr

/-- Update core registers (spec/05, spec/06); lock lists the coding units that granules hold, as partition and first byte, lockWait the partitions whose granule waits for one (R129). -/
structure Upd where
  reduceMode : Deferred := ⟨0, []⟩
  nonfiniteStat : Word := 0
  nonfiniteCnt : Word := 0
  pairedEn : Deferred := ⟨0, []⟩
  pairedCnt : Word := 0
  updateStat : Word := 0
  stepRec : List StepEntry := []
  lock : List (Nat × Nat) := []
  lockWait : List Nat := []
  deriving DecidableEq, Repr

/-- A kept outcome or decision of a collective (R173, R175). -/
structure CollOut where
  part : Nat
  axes : Nat
  seq : Nat
  status : Nat
  rank : Nat
  deriving DecidableEq, Repr

/-- Root's record of a sequence: members that sent DONE (R173). -/
structure CollRoot where
  part : Nat
  axes : Nat
  seq : Nat
  done : List Nat := []
  deriving DecidableEq, Repr

/-- A piece of a span that arrived (R169). -/
structure Piece where
  origin : Nat
  kind : Nat
  span : Nat
  piece : Nat
  pieces : Nat
  bytes : Nat
  payload : UnitImg
  deriving DecidableEq, Repr

/-- A collective of this block (spec/06); same is the time of the last chunk taken, with the number taken and the number counted in CHUNK_BAD at that time (R171), ready says that its boundaries are known and its space suffices, heldIn lists gathered chunks whose write must wait (R168, R167). -/
structure Coll where
  part : Nat
  axes : Nat
  seq : Nat
  op : Nat
  ordered : Bool
  uneven : Bool
  step : Bool
  format : Nat
  outFormat : Nat
  elems : Nat
  count : Nat
  epoch : Nat
  root : Nat
  slot : Nat
  ten : Option Nat
  members : List Nat
  me : Nat
  ins : List (List Word)
  outd : List Word
  started : Bool := false
  counts : SMap (Nat × Nat × Nat) := []
  bounds : List Nat := []
  acc : SMap (Int × Nat) := []
  ordv : SMap Half := []
  absorbed : List (Nat × Nat) := []
  pieces : List Piece := []
  gathered : List (Nat × Nat) := []
  kept : List (Nat × ChunkMsg) := []
  waiting : List (Nat × ChunkMsg) := []
  credits : SMap Nat := []
  fails : SMap Nat := []
  doneSent : Bool := false
  reportSent : Bool := false
  timedOut : Bool := false
  ready : Bool := false
  moved : Bool := false
  same : Nat × Nat × Nat := (0, 0, 0)
  heldIn : List (Nat × ChunkMsg) := []
  deriving DecidableEq, Repr

/-- Collective engine (spec/06 Tables 6.8 to 6.10). -/
structure CollSt where
  timeout : Deferred := ⟨50000, []⟩
  stat : Word := 0
  last : Word := 0
  openC : List Coll := []
  seq : SMap Nat := []
  kept : List CollOut := []
  decided : List CollOut := []
  roots : List CollRoot := []
  credits : List (Nat × ChunkMsg) := []
  deriving DecidableEq, Repr

/-- A report this block keeps re-sending (R181). -/
structure Report where
  rank : Nat
  inc : Nat
  cause : Nat
  deriving DecidableEq, Repr

/-- A decision the leader has open on a suspect (R183). -/
structure Probe where
  rank : Nat
  inc : Nat
  reporters : List Nat
  deriving DecidableEq, Repr

/-- A merge-table key (R182). -/
structure MergeKey where
  rank : Nat
  inc : Nat
  count : Nat := 0
  live : Bool := true
  deriving DecidableEq, Repr

/-- What a wave issuer has gathered for the open epoch and attempt (R40, R42, R203, R470); taking says that a new issuer does not yet hold every HANDOVER report, handover lists the epoch, attempt and DATA of each that came, tied lists the verdicts, with the time of each, whose core cycle has not passed and may still see the guard wave (R46). -/
structure Issuer where
  votes : SMap Bool := []
  groups : List (Nat × Nat) := []
  landed : List Nat := []
  restored : List Nat := []
  rebuilding : List Nat := []
  voteIssued : Bool := false
  guardIssued : Bool := false
  commitIssued : Bool := false
  awaiting : Bool := false
  taking : Bool := false
  handover : SMap (Nat × Nat × Nat) := []
  held : List (Nat × Nat × Nat) := []
  tied : List (Nat × Nat × Nat × Nat) := []
  fidData : Nat := 0
  fidRebuilt : Bool := false
  deriving DecidableEq, Repr

/-- What a group leader has gathered (R106, R136, R212). -/
structure Leader where
  guarded : List (Nat × Nat × Nat) := []
  crcs : SMap Nat := []
  land : SMap Nat := []
  lag : SMap Nat := []
  good : SMap Nat := []
  guardTime : Nat := 0
  sentGuarded : List (Nat × Nat) := []
  deriving DecidableEq, Repr

/-- Heartbeats, tarragon (spec/07 Tables 7.9 to 7.13); slow lists the positions that hold SLOW in a group led here, with its lowest slot (R212), counted the keys in REPORTS (R182), again the keys of failed ranks whose target holds the same incarnation (R204), heard the SLOW, QUIET and CLEARED verdicts whose job-wide copy is still to come (R184). -/
structure Tar where
  hbEn : Nat := 0xFF
  hbMissed : Nat := 0
  storm : Word := 0
  verdict : Word := 0
  straggle : Deferred := ⟨0x30019, []⟩
  slow : List (Nat × Nat) := []
  merge : List MergeKey := []
  reports : List Report := []
  probes : List Probe := []
  failed : List (Nat × Nat) := []
  again : List (Nat × Nat) := []
  counted : List (Nat × Nat) := []
  heard : List (Nat × Nat × Nat) := []
  quiet : List Nat := []
  suspects : List (Nat × Nat) := []
  issuer : Issuer := {}
  leader : Leader := {}
  deriving DecidableEq, Repr

/-- A STATE entry held by the rebuild target (R471). -/
structure StateRec where
  slot : Nat
  stripe : Nat
  row : Nat
  col : Nat
  count : Nat
  past : Bool
  suspect : Bool
  noImage : Bool
  origin : Nat
  deriving DecidableEq, Repr

/-- The rows that a target chose for a stripe, as a source holds them (R194, R471): unknown columns with their rows, and the units that the chains bring to the target. -/
structure PlanSet where
  slot : Nat
  stripe : Nat
  target : Nat
  epoch : Nat
  attempt : Nat
  cols : List (Nat × Nat)
  tcols : List Nat
  trows : List Nat
  deriving DecidableEq, Repr

/-- A rebuild of the job that this block knows of (R188 to R203); before lists the decoded units that stand at the epoch before, steps the step record that came for the roll-forward (R199); homes gives each slot's spread home as a position (R206), chained says that a PLAN of it came (R193), follows names the rank whose verdict opened it once more (R204). -/
structure Rebuild where
  failed : Nat
  inc : Nat
  target : Nat
  spread : Bool
  decided : Bool := false
  epoch : Nat := 0
  attempt : Nat := 0
  aborted : Bool := false
  joined : Bool := false
  readySent : Bool := false
  ready : List Nat := []
  states : List StateRec := []
  planned : List (Nat × Nat) := []
  doneU : List (Nat × Nat × Nat × Nat) := []
  fails : SMap Nat := []
  started : Bool := false
  rolled : Bool := false
  restored : Bool := false
  closed : Bool := false
  hostsDone : List Nat := []
  before : List (Nat × Nat × Nat) := []
  steps : SMap StepEntry := []
  event : Nat := 0
  slots : List (Nat × Nat)
  homes : List (Nat × Nat) := []
  chained : Bool := false
  follows : Option Nat := none
  deriving DecidableEq, Repr

/-- A takeover record on a standby (R191). -/
structure TakeOver where
  rank : Nat
  regions : SMap (List Word) := []
  slots : SMap (List Word) := []
  deriving DecidableEq, Repr

/-- A unit that this block hosts after a spread rebuild (R206). -/
structure Hosted where
  slot : Nat
  pos : Nat
  stripe : Nat
  kind : Nat
  index : Nat
  addr : Nat
  deriving DecidableEq, Repr

/-- Rebuild director (spec/07 Tables 7.14 to 7.18, 7.22, 7.23). -/
structure Reb where
  ctl : Deferred := ⟨0x44C8000000000000, []⟩
  active : Bool := false
  role : Nat := 0
  failedRank : Nat := 0
  doneCnt : Nat := 0
  total : Nat := 0
  stat : Word := 0
  spreadBase : Word := 0
  spreadSize : Word := 0
  takeBase : Word := 0
  takeSize : Word := 0
  takeover : List TakeOver := []
  runs : List Rebuild := []
  plans : List PlanSet := []
  halves : List ChainMsg := []
  hosted : List Hosted := []
  spreadUsed : Nat := 0
  deriving DecidableEq, Repr

/-- A unit repair, or a unit that DECODE.UNIT brings back, waiting for its half-chains (R211, R301). -/
structure Repair where
  slot : Nat
  stripe : Nat
  tkind : Nat
  index : Nat
  row : Nat
  addr : Nat
  lines : List Nat
  copies : Nat := 0
  part : Option Nat := none
  deriving DecidableEq, Repr

/-- Audit engine (spec/07 Tables 7.19 to 7.21); left lists the stripes that the lap in progress has yet to decide on this block, their row-0 holder. -/
structure Aud where
  ctl : Deferred := ⟨0x8000000000000005, []⟩
  running : Bool := false
  lap : Word := 0
  lapStart : Nat := 0
  lapEnd : Nat := 0
  left : List (Nat × Nat) := []
  syn : List ChainMsg := []
  silent : Word := 0
  repairCnt : Word := 0
  repairs : List Repair := []
  jobs : List (Nat × Nat × Nat × Nat) := []
  deriving DecidableEq, Repr

/-- A descriptor register: six words (Table 9.3). -/
structure Desc where
  w0 : Word := 0
  w1 : Word := 0
  w2 : Word := 0
  w3 : Word := 0
  w4 : Word := 0
  w5 : Word := 0
  deriving DecidableEq, Repr

/-- A completion slot (Table 9.2). -/
structure SlotSt where
  busy : Bool := false
  status : Nat := 0
  deriving DecidableEq, Repr

inductive SeqState where
  | dispatch
  | run
  | wait
  | long
  | handler
  | noImage
  deriving DecidableEq, Repr

/-- A wait in execution (spec/10 R309, R268, R305, R267). -/
inductive Wait where
  | tally (n : Nat)
  | slot (n : Nat)
  | event (mask : Nat)
  | epoch (e ph : Nat)
  | fence (slots : Bool)
  | idle
  | remote
  | slotFree (n : Nat)
  | stall
  deriving DecidableEq, Repr

/-- A long instruction that runs or is suspended (spec/09 R263 to R265); paired is the paired mode in which it runs (spec/05 R145), first the unit that DECODE.UNIT took from its register (spec/10 R296), inside the coding units whose delta the lanes still gather (R127). -/
structure Long where
  cls : Nat
  op : Nat
  f : FmtT
  x2 : Word
  key : Half
  total : Nat
  count : Nat
  extent : Nat
  step : Bool
  unstarted : Bool
  stop : Nat := 0
  result : Nat := 0
  note : Nat := 0
  micro : List Word := []
  hyper : List Half := []
  epoch : Nat := 0
  swap : Bool := false
  ins : Nat := 0
  paired : Bool := false
  first : Nat := 0
  inside : List Nat := []
  deriving DecidableEq, Repr

/-- The progress slot (Tables 9.13 and 9.14) with the hyper-operand copy of R131; pub is the publication entry of a PUBLISH whose record stands (spec/11 R335). -/
structure Progress where
  valid : Bool := false
  susp : Bool := false
  cls : Nat := 0
  op : Nat := 0
  count : Nat := 0
  key : Half := 0
  hyper : Option (List Half) := none
  pub : Option Nat := none
  deriving DecidableEq, Repr

/-- A program image in a bank (Table 9.11). -/
structure Image where
  id : Word
  version : Nat
  words : List Word
  entries : List Nat
  micros : List Nat
  codeOff : Nat
  codeEnd : Nat
  second : List Nat
  deriving DecidableEq, Repr

structure Timer where
  en : Bool := false
  periodic : Bool := false
  evt : Bool := false
  expired : Bool := false
  missed : Nat := 0
  period : Nat := 0
  deadline : Nat := 0
  deriving DecidableEq, Repr

structure Edge where
  latched : Bool := false
  level : Bool := false
  kind : Nat := 0
  evt : Bool := false
  count : Nat := 0
  src : Nat := 0
  sel : Nat := 0
  deriving DecidableEq, Repr

/-- A submission queue (Tables 13.8 and 13.13); flushTo, fenceTo and lostTo are the tails that a flush, reset or disabling (R380, R381, R363), a fence (R383) and a lost group (R204) recorded; owed lists the entries that a disabling ends FLUSHED once the completion queue has room and its pads are free, as CID and head after them, with the address of an entry that is still to be read (R363, R365, spec/16 R437). -/
structure Sq where
  en : Bool := false
  base : Word := 0
  sizeM1 : Nat := 0
  head : Nat := 0
  tail : Nat := 0
  outstanding : Nat := 0
  flushTo : Option Nat := none
  fenceTo : Option Nat := none
  lostTo : Option Nat := none
  owed : List (Nat × Nat × Option Nat) := []
  cqWait : Bool := false
  deriving DecidableEq, Repr

/-- A completion queue (Tables 13.9 and 13.13); since counts completions since the last message, gen the times EN was cleared (R363). -/
structure Cq where
  en : Bool := false
  base : Word := 0
  sizeM1 : Nat := 0
  coalUs : Nat := 0
  coalCnt : Nat := 0
  head : Nat := 0
  tail : Nat := 0
  phase : Bool := false
  reserved : Nat := 0
  since : Nat := 0
  gen : Nat := 0
  deriving DecidableEq, Repr

/-- A memory window (Table 13.15). -/
structure MWin where
  w0 : Word := 0
  w1 : Word := 0
  deriving DecidableEq, Repr

/-- An open instruction (R267) or the short remote operation in its wait (R268). -/
inductive OpKind where
  | remote (rank opseq : Nat) (vreg : Option Nat) (dst : Option Word) (size : Nat)
  | copy (rank copyId : Nat) (src : Word) (len : Nat) (daddr : Word) (tally : Nat) (arrive : Bool)
  | coll (axes seq : Nat)
  | audit
  | rebuild (ranks : List Nat)
  deriving DecidableEq, Repr

structure OpenOp where
  kind : OpKind
  slot : Option Nat
  ten : Option Nat
  msg : Option MemMsg := none
  landed : List Nat := []
  fails : SMap Nat := []
  cancels : Nat := 0
  cur : Option CurCmd := none
  deriving DecidableEq, Repr

/-- One entry of a prefetch schedule (Table 11.2); began is the core cycle at which its transfer started. -/
structure PfEntry where
  src : Word
  dst : Word
  size : Nat
  layer : Nat
  lead : Nat
  tally : Nat
  pass : Nat := 0
  began : Nat := 0
  flying : Bool := false
  late : Nat := 0
  deriving DecidableEq, Repr

/-- Prefetch state of a partition (R320 to R324). -/
structure Pf where
  armed : Bool := false
  fault : Bool := false
  stopping : Bool := false
  layers : Nat := 0
  clock : Nat := 0
  passes : Nat := 0
  base : Half := 0
  entries : List PfEntry := []
  deriving DecidableEq, Repr

/-- A partition with its sequencer and windows (spec/09, spec/13); repairing says that its instruction waits for the repair of its hyper-operand block (spec/10 R295), leaving that it is unbound once its reset is done (spec/07 R187); vt holds its virtual times and ready the engine classes for which it has work ready (spec/12 R348). -/
structure PartSt where
  bound : Bool := false
  tag : Nat := 0
  gen : Nat := 0
  coreMask : Nat := 0xFFFF
  coreMaskNext : Option Nat := none
  laneFlags : Nat := 0
  sq : SMap Sq := []
  cq : SMap Cq := []
  admin : Bool := false
  flushing : Bool := false
  resetting : Bool := false
  fenced : Bool := false
  causes : Nat := 0
  share : Deferred := ⟨0x1010101010101010, []⟩
  acct : SMap Nat := []
  vt : SMap Nat := []
  ready : List Nat := []
  mwin : SMap MWin := [(0, ⟨0, 0xC000000000000000⟩)]
  g : SMap Word := []
  pr : Nat := 1
  d : SMap Desc := []
  slots : SMap SlotSt := []
  pc : Nat := 0
  st : Nat := 0
  epend : Nat := 0
  emask : Nat := 0
  eie : Bool := false
  eret : Nat := 0
  eretDispatch : Bool := false
  eres : Bool := false
  seq : SeqState := .noImage
  cur : Option CurCmd := none
  lastQ : Nat := 3
  long : Option Long := none
  susp : Option Long := none
  progress : Progress := {}
  inH : Bool := false
  stepHeld : Option Nat := none
  retry : Option (Word × Word) := none
  repairing : Bool := false
  leaving : Bool := false
  wait : Option Wait := none
  image : Option Image := none
  staged : Option Image := none
  imgRefused : Bool := false
  imgCause : Nat := 0
  timer : SMap Timer := []
  edge : SMap Edge := []
  ops : List OpenOp := []
  opseq : SMap Nat := []
  copyId : Nat := 0
  pf : Pf := {}
  deriving DecidableEq, Repr

structure Tally where
  count : Half := 0
  target : Half := 0
  owned : Bool := false
  owner : Nat := 0
  evt : Bool := false
  genWait : Bool := false
  deriving DecidableEq, Repr

/-- A publication entry (Table 11.6). -/
structure Pub where
  valid : Bool := false
  kind : Nat := 0
  pubStep : Bool := false
  pend : Bool := false
  writing : Bool := false
  hint : Nat := 0
  bad : Bool := false
  format : Nat := 0
  elems : Nat := 0
  bayA : Word := 0
  bayB : Word := 0
  owner : Nat := 0
  vtally : Nat := 0
  readersA : Nat := 0
  readersB : Nat := 0
  epochA : Nat := 0xFFFFFFFF
  epochB : Nat := 0xFFFFFFFF
  cnt : Word := 0
  deriving DecidableEq, Repr

/-- A page record (Table 11.9). -/
structure Page where
  ref : Nat := 0
  isSealed : Bool := false
  retiring : Bool := false
  lost : Bool := false
  copying : Bool := false
  deriving DecidableEq, Repr

/-- Page keeper (spec/11); seals lists the pages whose SEAL waits for accepted writes, waiting the requests of the page port on them, as operation and page (R339, R341). -/
structure Pages where
  recs : SMap Page := []
  sel : Nat := 0
  recReg : Word := 0
  noroom : Nat := 0
  ignored : Nat := 0
  copies : Nat := 0
  cow : List (Nat × Nat) := []
  seals : List Nat := []
  waiting : List (Nat × Nat) := []
  deriving DecidableEq, Repr

/-- Taps and tier mover (spec/11); order lists the eligible transfers, as partition and entry, in the order in which they became so (R322). -/
structure Tap where
  slots : Deferred := ⟨0x80, []⟩
  order : List (Nat × Nat) := []
  late : Word := 0
  stat : Word := 0
  deriving DecidableEq, Repr

/-- One entry of the tensor map (Table 14.1). -/
structure MapEnt where
  region : Nat
  tensor : Nat
  first : Nat
  elems : Nat
  deriving DecidableEq, Repr

/-- One shard written by the drain (Table 14.4). -/
structure Shard where
  ent : MapEnt
  format : Nat
  cls : Nat
  data : Nat
  bytes : Nat
  check : Nat
  sha : List Byte := []
  deriving DecidableEq, Repr

/-- What a restore reads of a shard record (spec/14 R403). -/
structure RestoreRec where
  tensor : Nat
  format : Nat
  first : Nat
  elems : Nat
  data : Nat
  bytes : Nat
  check : Nat
  sha : List Byte
  deriving DecidableEq, Repr

/-- A RESTORE that runs: its command, the records that it reads, the map entries still to come, and all of its regions (spec/14 R405, R407). -/
structure Restoring where
  cur : CurCmd
  verify : Bool
  recs : List RestoreRec
  left : List MapEnt
  regions : List Nat
  deriving DecidableEq, Repr

/-- Export machinery (spec/14): own lists the map entries of which this block writes a shard (R394), tag, rank and inc stand at the cut (R403), as do regs, the regions of the map, and sealedAt, the sealed pages by region and address (R395, R402), began is the core cycle from which the tier mover's time is charged (spec/12 R348), wrote lists the extents written of the area (R400), restoring is a RESTORE that runs. -/
structure Exp where
  state : Nat := 0
  cause : Nat := 0
  epoch : Nat := 0
  doneU : Nat := 0
  totalU : Nat := 0
  copies : Nat := 0
  peak : Nat := 0
  head : Nat := 0
  tail : Nat := 0
  mbps : Nat := 1000
  wide : Bool := false
  stream : Bool := false
  pages : Bool := false
  part : Part := 0
  map : List MapEnt := []
  area : Word := 0
  areaSize : Nat := 0
  copyBase : Word := 0
  copyMib : Nat := 0
  taken : List (Nat × Nat) := []
  store : SMap (Nat × Nat × Nat) := []
  shard : Nat := 0
  unit : Nat := 0
  buf : List Byte := []
  out : List Byte := []
  shards : List Shard := []
  skipped : Bool := false
  fid : Bool := false
  digest : Word := 0
  await : Bool := false
  sealedAt : List (Nat × Nat) := []
  regs : List (Nat × Region) := []
  began : Nat := 0
  own : List MapEnt := []
  tag : Nat := 0
  rank : Nat := 0
  inc : Nat := 0
  wrote : List (Nat × Nat) := []
  restoring : Option Restoring := none
  deriving DecidableEq, Repr

end Sys2Proof.Machine

namespace Sys2Proof.Machine

/-- The whole state of the block. -/
structure State where
  pending : List Instr := []
  mem : List Host.Cell := []
  poison : List Nat := []
  badRead : List (Nat × Nat) := []
  badWrite : List (Nat × Nat) := []
  fuse : Fuse := {}
  clk : Clk := {}
  pwr : Pwr := {}
  pin : Pins := {}
  mode : Mode := {}
  dig : Digest := {}
  rcd : Rec := {}
  msg : Msg := {}
  side : Side := {}
  keep : Keep := {}
  sram : Sram := {}
  fab : Fab := {}
  port : SMap PortSt := []
  reg : Regs := {}
  grp : SMap Group := []
  ep : Epoch := {}
  job : Job := {}
  fid : Fidelity := {}
  cod : Cod := {}
  upd : Upd := {}
  coll : CollSt := {}
  tar : Tar := {}
  reb : Reb := {}
  aud : Aud := {}
  part : SMap PartSt := []
  tally : SMap Tally := []
  pub : SMap Pub := []
  page : Pages := {}
  tap : Tap := {}
  exp : Exp := {}
  viol : SMap Nat := []
  freeCtr : Nat := 0
  deriving DecidableEq, Repr

/-- The block at READY of a power-on reset (spec/16 R440, Table 16.7); the values that the spec does not give are DESIGN CHOICE, log 2 to 7 and 101. -/
def State.reset : State := {}

/-- What a command answers. -/
abbrev Result := Host.Outcome State Fault Refusal

end Sys2Proof.Machine
end

