-- ==== Sys2Proof/Machine/Wire.lean ====
section
/-! DEFINITION. Frames as bytes: the fabric header (spec/08 Table 8.1), the payload layouts (Tables 4.1, 4.3, 4.4, 6.4, 7.1, 8.3, 8.4, 8.6, 8.7, 8.25), the checks they carry, and the frame that logged bytes spell (spec/12). -/

namespace Sys2Proof.Machine

/-! ### Fabric header -/

/-- Bits [239:0] of a header (Table 8.1). -/
def hdrNat (h : FrameHdr) : Nat :=
  pack [(17, h.destCoord), (17, h.destRank), (17, h.srcRank), (16, h.tag), (4, h.gen), (4, h.part),
    (5, h.typ), (3, h.vc), (2, h.route), (2, h.raxis), (1, h.rdir), (2, h.daxis), (1, h.ddir),
    (1, b2n h.accum), (1, b2n h.ebound), (3, 0), (6, h.hops), (13, h.len), (13, 0), (32, h.epoch), (80, 0)]

def hdrCrc (h : FrameHdr) : Nat := (crc16 (toBytes 30 (hdrNat h))).toNat

/-- Whether HCRC holds (R223). -/
def hdrOk (h : FrameHdr) : Bool := hdrCrc h == h.hcrc

/-- The header with HCRC recomputed (R223). -/
def sealHdr (h : FrameHdr) : FrameHdr := { h with hcrc := hdrCrc h }

def hdrBytes (h : FrameHdr) : List Byte := toBytes 30 (hdrNat h) ++ toBytes 2 h.hcrc

def parseHdr (bs : List Byte) : FrameHdr :=
  let x := ofBytes (bs.take 32)
  { destCoord := bitsOf 0 17 x, destRank := bitsOf 17 17 x, srcRank := bitsOf 34 17 x, tag := bitsOf 51 16 x
    gen := bitsOf 67 4 x, part := bitsOf 71 4 x, typ := bitsOf 75 5 x, vc := bitsOf 80 3 x
    route := bitsOf 83 2 x, raxis := bitsOf 85 2 x, rdir := bitsOf 87 1 x, daxis := bitsOf 88 2 x
    ddir := bitsOf 90 1 x, accum := bitOf 91 x, ebound := bitOf 92 x, hops := bitsOf 96 6 x
    len := bitsOf 102 13 x, epoch := bitsOf 128 32 x, hcrc := bitsOf 240 16 x }

/-! ### Payload layouts -/

def map7 (m : SMap Nat) : List (Nat × Nat) := (List.range 16).map fun c => (7, SMap.look 0 m c)

/-- The 7-bit fields that are not 0, by column. -/
def unmap7 (lo x : Nat) : SMap Nat :=
  (List.range 16).filterMap fun c =>
    let v := bitsOf (lo + 7 * c) 7 x
    if v = 0 then none else some (c, v)

def squeezedBytes (q : Squeezed) : List Byte :=
  toBytes 24 (pack [(32, q.crc.toNat), (2, q.width), (6, 0), (7, runsOf q), (1, 0), (80, 0), (64, q.runmask.toNat)])
    ++ runBytes q

/-- Numbers of the present runs, in ascending order. -/
def presentRuns (m : Nat) : List Nat := (List.range 64).filter fun r => m.testBit r

/-- The unit whose present runs hold the given bytes (Table 4.1). -/
def expandRuns (width : Nat) : List Nat → List Byte → UnitImg → UnitImg
  | [], _, u => u
  | r :: rs, bs, u =>
    let w := 2 ^ width
    let n := 4096 / w
    let put (u : UnitImg) (p : Nat × Byte) : UnitImg :=
      let pos := 64 * r + p.1
      uset u (pos % n * w + pos / n) p.2
    expandRuns width rs (bs.drop 64) (((List.range 64).zip (bs.take 64)).foldl put u)

def parseSqueezed (bs : List Byte) : Squeezed :=
  let x := ofBytes (bs.take 24)
  let w := bitsOf 32 2 x
  let m := bitsOf 128 64 x
  { crc := BitVec.ofNat 32 x, width := Fin.ofNat 4 w, runmask := BitVec.ofNat 64 m
    bytes := expandRuns w (presentRuns m) (bs.drop 24) [] }

def contribBytes (c : Contrib) : List Byte :=
  toBytes 32 (pack ([(32, c.epoch), (40, c.stripe), (4, c.slot), (2, c.row), (2, c.kind), (16, c.mask), (16, c.bypass)]
    ++ map7 c.seq ++ [(17, c.origin), (1, b2n c.narrow), (1, b2n c.guard), (8, c.attempt), (5, 0)]))
    ++ squeezedBytes c.unit

def parseContrib (bs : List Byte) : Contrib :=
  let x := ofBytes (bs.take 32)
  { epoch := bitsOf 0 32 x, stripe := bitsOf 32 40 x, slot := Fin.ofNat 16 (bitsOf 72 4 x)
    row := Fin.ofNat 4 (bitsOf 76 2 x), kind := bitsOf 78 2 x, mask := bitsOf 80 16 x, bypass := bitsOf 96 16 x
    seq := unmap7 112 x, origin := bitsOf 224 17 x, narrow := bitOf 241 x, guard := bitOf 242 x
    attempt := bitsOf 243 8 x, unit := parseSqueezed (bs.drop 32) }

def entryBytes (e : NoticeEntry) : List Byte :=
  toBytes 8 (pack [(40, e.stripe), (4, e.slot), (2, e.row), (4, e.column), (7, e.seq), (1, b2n e.past),
    (1, b2n e.suspect), (1, b2n e.noImage), (4, e.rsvd)])

def parseEntry (bs : List Byte) : NoticeEntry :=
  let x := ofBytes (bs.take 8)
  { stripe := bitsOf 0 40 x, slot := Fin.ofNat 16 (bitsOf 40 4 x), row := Fin.ofNat 4 (bitsOf 44 2 x)
    column := Fin.ofNat 16 (bitsOf 46 4 x), seq := bitsOf 50 7 x, past := bitOf 57 x, suspect := bitOf 58 x
    noImage := bitOf 59 x, rsvd := bitsOf 60 4 x }

/-- A notice frame with a given CRC word (Table 4.4). -/
def noticeBytes (n : NoticeFrame) (crc : Nat) : List Byte :=
  toBytes 16 (pack [(32, n.epoch), (32, crc), (2, n.typ), (6, n.count), (8, n.attempt), (8, n.sub), (40, n.rsvd)])
    ++ n.entries.flatMap entryBytes

def noticeCrc (n : NoticeFrame) : Half := crc32c (noticeBytes n 0)

/-- The form and check that R102 asks of a notice frame. -/
def noticeOk (n : NoticeFrame) : Bool :=
  noticeCrc n == n.crc && n.count != 0 && n.entries.length == n.count &&
    !(n.typ == 3 && decide (n.sub ≥ 2)) && n.rsvd == 0 && n.entries.all (fun e => e.rsvd == 0)

def parseEntries : Nat → List Byte → List NoticeEntry
  | 0, _ => []
  | n + 1, bs => if bs.length < 8 then [] else parseEntry bs :: parseEntries n (bs.drop 8)

def parseNotice (bs : List Byte) : NoticeFrame :=
  let x := ofBytes (bs.take 16)
  { epoch := bitsOf 0 32 x, crc := BitVec.ofNat 32 (bitsOf 32 32 x), typ := bitsOf 64 2 x, count := bitsOf 66 6 x
    attempt := bitsOf 72 8 x, sub := bitsOf 80 8 x, rsvd := bitsOf 88 40 x, entries := parseEntries 64 (bs.drop 16) }

def chainBytes (c : ChainMsg) : List Byte :=
  toBytes 32 (pack ([(32, c.epoch), (40, c.stripe), (4, c.slot), (2, c.tkind), (4, c.index), (1, b2n c.half), (1, 0),
    (20, c.sources), (8, c.attempt)] ++ map7 c.count ++ [(17, c.origin), (15, 0)])) ++ squeezedBytes c.unit

def parseChain (bs : List Byte) : ChainMsg :=
  let x := ofBytes (bs.take 32)
  { epoch := bitsOf 0 32 x, stripe := bitsOf 32 40 x, slot := Fin.ofNat 16 (bitsOf 72 4 x), tkind := bitsOf 76 2 x
    index := bitsOf 78 4 x, half := bitOf 82 x, sources := bitsOf 84 20 x, attempt := bitsOf 104 8 x
    count := unmap7 112 x, origin := bitsOf 224 17 x, unit := parseSqueezed (bs.drop 32) }

/-- NEED and CREDIT carry no payload (R169). -/
def chunkBytes (c : ChunkMsg) : List Byte :=
  toBytes 32 (pack [(32, c.epoch), (32, c.seq), (40, c.span), (4, c.piece), (4, c.pieces), (3, c.kind), (1, b2n c.mode),
    (3, c.op), (1, 0), (4, c.axes), (4, c.part), (8, c.format), (8, 0), (32, c.crc.toNat), (13, c.bytes), (1, 0),
    (2, c.stage), (17, c.origin), (47, 0)]) ++ (if c.kind = 3 ∨ c.kind = 4 then [] else unitBytes c.payload)

def parseChunk (bs : List Byte) : ChunkMsg :=
  let x := ofBytes (bs.take 32)
  { epoch := bitsOf 0 32 x, seq := bitsOf 32 32 x, span := bitsOf 64 40 x, piece := bitsOf 104 4 x
    pieces := bitsOf 108 4 x, kind := bitsOf 112 3 x, mode := bitOf 115 x, op := bitsOf 116 3 x
    axes := bitsOf 120 4 x, part := bitsOf 124 4 x, format := bitsOf 128 8 x, crc := BitVec.ofNat 32 (bitsOf 144 32 x)
    bytes := bitsOf 176 13 x, stage := bitsOf 190 2 x, origin := bitsOf 192 17 x, payload := ofDense 0 (bs.drop 32) }

def tarraNat (t : Tarra) : Nat :=
  pack [(5, t.kind), (17, t.rank), (32, t.inc), (32, t.epoch), (4, t.cause), (16, t.count), (17, t.origin),
    (64, t.data), (8, t.attempt), (29, 0)]

def tarraCrc (t : Tarra) : Half := crc32c (toBytes 28 (tarraNat t))
def tarraOk (t : Tarra) : Bool := tarraCrc t == t.crc
def sealTarra (t : Tarra) : Tarra := { t with crc := tarraCrc t }
def tarraBytes (t : Tarra) : List Byte := toBytes 28 (tarraNat t) ++ toBytes 4 t.crc.toNat

def parseTarra (bs : List Byte) : Tarra :=
  let x := ofBytes (bs.take 32)
  { kind := bitsOf 0 5 x, rank := bitsOf 5 17 x, inc := bitsOf 22 32 x, epoch := bitsOf 54 32 x, cause := bitsOf 86 4 x
    count := bitsOf 90 16 x, origin := bitsOf 106 17 x, data := bitsOf 123 64 x, attempt := bitsOf 187 8 x
    crc := BitVec.ofNat 32 (bitsOf 224 32 x) }

/-- A list of words behind its length. -/
def listWords (l : List Nat) : List Nat := l.length :: l

/-- An admission record as 64-bit words, its kind first: the spec gives none of its layout (DESIGN CHOICE, log 32). -/
def admitWords : AdmitRec → List Nat
  | .identity i => [0, i.toNat]
  | .gens g => 1 :: g
  | .directory g r a m st => [2, g.val, r, a, m, st]
  | .geometry g r d => [3, g.val, r, d]
  | .replica i u => [4, i, u]
  | .takeRegion i a b c d => [5, i, a.toNat, b.toNat, c.toNat, d.toNat]
  | .takeSlot g a b c d => [6, g.val, a.toNat, b.toNat, c.toNat, d.toNat]
  | .step i e => [7, i, e.cls, e.op] ++ listWords (e.hyper.map BitVec.toNat) ++ listWords (e.micro.map BitVec.toNat) ++
      ([e.ins, e.outs, e.masks].flatMap fun ds => ds.length :: ds.flatMap fun d => listWords (d.map BitVec.toNat))
  | .done => [8]

/-- A list behind its length, and the words after it. -/
def takeList : List Nat → List Nat × List Nat
  | [] => ([], [])
  | n :: r => (r.take n, r.drop n)

def takeLists : Nat → List Nat → List (List Word) × List Nat
  | 0, r => ([], r)
  | n + 1, r =>
    let a := takeList r
    let b := takeLists n a.2
    (a.1.map (BitVec.ofNat 64) :: b.1, b.2)

/-- The admission record that words spell (log 32). -/
def parseAdmit (ws : List Nat) : AdmitRec :=
  let w (i : Nat) := ws.getD i 0
  let v (i : Nat) : Word := BitVec.ofNat 64 (w i)
  match w 0 with
  | 0 => .identity (v 1)
  | 1 => .gens (ws.drop 1)
  | 2 => .directory (Fin.ofNat 16 (w 1)) (w 2) (w 3) (w 4) (w 5)
  | 3 => .geometry (Fin.ofNat 16 (w 1)) (w 2) (w 3)
  | 4 => .replica (w 1) (w 2)
  | 5 => .takeRegion (w 1) (v 2) (v 3) (v 4) (v 5)
  | 6 => .takeSlot (Fin.ofNat 16 (w 1)) (v 2) (v 3) (v 4) (v 5)
  | 7 =>
    let h := takeList (ws.drop 4)
    let m := takeList h.2
    let i := takeLists (m.2.getD 0 0) (m.2.drop 1)
    let o := takeLists (i.2.getD 0 0) (i.2.drop 1)
    let k := takeLists (o.2.getD 0 0) (o.2.drop 1)
    .step (w 1) { cls := w 2, op := w 3, hyper := h.1.map (BitVec.ofNat 32), micro := m.1.map (BitVec.ofNat 64), ins := i.1, outs := o.1, masks := k.1 }
  | _ => .done

def admitBytes (r : AdmitRec) : List Byte := (admitWords r).flatMap (toBytes 8)

/-- A tarragon message with the admission record that KIND 20 carries beside its 32 bytes (log 32). -/
def parseTarraRec (bs : List Byte) : Payload :=
  let t := parseTarra bs
  let rest := bs.drop 32
  .tarra t (if t.kind = 20 ∧ !rest.isEmpty then some (parseAdmit ((List.range (rest.length / 8)).map fun i => ofBytes ((rest.drop (8 * i)).take 8))) else none)

def beatNat (b : Beat) : Nat :=
  pack [(64, b.identity.toNat), (32, b.inc), (17, b.rank), (1, b2n b.quiet), (14, 0), (64, b.digest.toNat), (32, b.epoch)]

def beatCrc (b : Beat) : Half := crc32c (toBytes 28 (beatNat b))
def beatOk (b : Beat) : Bool := beatCrc b == b.crc
def sealBeat (b : Beat) : Beat := { b with crc := beatCrc b }
def beatBytes (b : Beat) : List Byte := toBytes 28 (beatNat b) ++ toBytes 4 b.crc.toNat

def parseBeat (bs : List Byte) : Beat :=
  let x := ofBytes (bs.take 32)
  { identity := BitVec.ofNat 64 (bitsOf 0 64 x), inc := bitsOf 64 32 x, rank := bitsOf 96 17 x, quiet := bitOf 113 x
    digest := BitVec.ofNat 64 (bitsOf 128 64 x), epoch := bitsOf 192 32 x, crc := BitVec.ofNat 32 (bitsOf 224 32 x) }

def memMsgBytes (m : MemMsg) : List Byte :=
  toBytes 16 (pack [(4, m.op), (4, m.spart), (16, m.opseq), (8, m.coef.toNat), (64, m.addr.toNat), (13, m.size),
    (3, m.rstat), (16, 0)]) ++ m.data

def parseMemMsg (bs : List Byte) : MemMsg :=
  let x := ofBytes (bs.take 16)
  { op := bitsOf 0 4 x, spart := Fin.ofNat 16 (bitsOf 4 4 x), opseq := bitsOf 8 16 x, coef := BitVec.ofNat 8 (bitsOf 24 8 x)
    addr := BitVec.ofNat 64 (bitsOf 32 64 x), size := bitsOf 96 13 x, rstat := bitsOf 109 3 x, data := bs.drop 16 }

/-- Bytes of DATA in a request (Table 8.6). -/
def memReqData (op size : Nat) : Nat :=
  match op with
  | 0 => 0
  | 1 => size
  | 2 => 4
  | 5 => 16
  | 11 => size
  | 12 => 4
  | 13 => 0
  | _ => 8

/-- Whether SIZE and DATA of a request are as Table 8.6 has them for its OP. -/
def memShapeOk (m : MemMsg) : Bool :=
  m.data.length == memReqData m.op m.size &&
    (if m.op ≤ 1 then decide (8 ≤ m.size ∧ m.size ≤ 256) && m.size % 8 == 0
     else if m.op = 11 then decide (64 ≤ m.size ∧ m.size ≤ 4096) && m.size % 64 == 0
     else m.size == 8)

/-- The requests packed end to end in a GWBULK payload (Table 8.2). -/
def parseBulk : Nat → List Byte → List MemMsg
  | 0, _ => []
  | n + 1, bs =>
    if bs.length < 16 then []
    else
      let m := parseMemMsg (bs.take 16)
      let k := memReqData m.op m.size
      { m with data := (bs.drop 16).take k } :: parseBulk n (bs.drop (16 + k))

/-- The copy header, which is all that a COPYRSP carries (Tables 8.2 and 8.7). -/
def copyHead (c : CopyMsg) : List Byte :=
  toBytes 32 (pack [(16, c.copyId), (32, c.unit), (32, c.units), (64, c.daddr.toNat), (14, c.tally), (1, b2n c.arrive),
    (1, 0), (13, c.bytes), (3, c.rstat), (32, c.crc.toNat), (48, 0)])

def copyMsgBytes (c : CopyMsg) : List Byte := copyHead c ++ (unitBytes c.payload).take c.bytes

def parseCopyMsg (bs : List Byte) : CopyMsg :=
  let x := ofBytes (bs.take 32)
  { copyId := bitsOf 0 16 x, unit := bitsOf 16 32 x, units := bitsOf 48 32 x, daddr := BitVec.ofNat 64 (bitsOf 80 64 x)
    tally := bitsOf 144 14 x, arrive := bitOf 158 x, bytes := bitsOf 160 13 x, rstat := bitsOf 173 3 x
    crc := BitVec.ofNat 32 (bitsOf 176 32 x), payload := ofDense 0 (bs.drop 32) }

def wakeNat (w : WakeMsg) : Nat := pack [(64, w.identity.toNat), (17, w.rank), (143, 0)]
def wakeCrc (w : WakeMsg) : Half := crc32c (toBytes 28 (wakeNat w))
def wakeOk (w : WakeMsg) : Bool := wakeCrc w == w.crc
def sealWake (w : WakeMsg) : WakeMsg := { w with crc := wakeCrc w }
def wakeBytes (w : WakeMsg) : List Byte := toBytes 28 (wakeNat w) ++ toBytes 4 w.crc.toNat

def parseWake (bs : List Byte) : WakeMsg :=
  let x := ofBytes (bs.take 32)
  { identity := BitVec.ofNat 64 (bitsOf 0 64 x), rank := bitsOf 64 17 x, crc := BitVec.ofNat 32 (bitsOf 224 32 x) }

/-! ### Frames -/

def payloadBytes : Payload → List Byte
  | .contrib c => contribBytes c
  | .notice n => noticeBytes n n.crc.toNat
  | .chain c => chainBytes c
  | .chunk c => chunkBytes c
  | .tarra t r => tarraBytes t ++ (match r with
    | some r => admitBytes r
    | none => [])
  | .beat b => beatBytes b
  | .mem m => memMsgBytes m
  | .copy c => copyMsgBytes c
  | .copyRsp c => copyHead c
  | .bulk ms => ms.flatMap memMsgBytes
  | .wake w => wakeBytes w

/-- Payload length in bytes, without forming the bytes; the record of an ADMIT message counts no bytes (DESIGN CHOICE, log 32). -/
def payloadLen : Payload → Nat
  | .contrib c => 32 + squeezedLen c.unit
  | .notice n => 16 + 8 * n.entries.length
  | .chain c => 32 + squeezedLen c.unit
  | .chunk c => if c.kind = 3 ∨ c.kind = 4 then 32 else 4128
  | .tarra _ _ => 32
  | .beat _ => 32
  | .mem m => 16 + m.data.length
  | .copy c => 32 + c.bytes
  | .copyRsp _ => 32
  | .bulk ms => (ms.map fun m => 16 + m.data.length).foldl (· + ·) 0
  | .wake _ => 32

/-- Bytes of a frame: its header of 32 bytes and its payload (R222). -/
def frameLen (f : Frame) : Nat := 32 + payloadLen f.body

/-- Whether a payload is one that a frame of a TYPE carries (Table 8.2). -/
def typeFits (typ : Nat) : Payload → Bool
  | .contrib c => if c.kind = 0 then typ == 1 else typ == 2
  | .notice _ => typ == 3
  | .chain _ => typ == 4 || typ == 5
  | .chunk _ => typ == 6
  | .tarra _ _ => typ == 7
  | .beat _ => typ == 8
  | .mem _ => typ == 9 || typ == 10
  | .copy _ => typ == 11
  | .copyRsp _ => typ == 12
  | .bulk _ => typ == 13
  | .wake _ => typ == 14

/-- Whether a TYPE is assigned (Table 8.2). -/
def typeKnown (typ : Nat) : Bool := decide (1 ≤ typ ∧ typ ≤ 14)

/-- Class of a frame as its lower VC (Tables 8.2 and 8.5). -/
def lowerVc (typ : Nat) (b : Payload) : Nat :=
  match typ with
  | 1 => 1
  | 2 => 1
  | 3 => 3
  | 4 => 1
  | 5 => 1
  | 6 => match b with
    | .chunk c => if c.kind = 3 ∨ c.kind = 4 then 3 else 1
    | _ => 1
  | 7 => 0
  | 8 => 0
  | 9 => 1
  | 10 => 3
  | 11 => 5
  | 12 => 3
  | 13 => 5
  | _ => 0

/-- The payload that logged bytes spell, by TYPE. -/
def parsePayload (typ : Nat) (bs : List Byte) : Option Payload :=
  match typ with
  | 1 => some (.contrib (parseContrib bs))
  | 2 => some (.contrib (parseContrib bs))
  | 3 => some (.notice (parseNotice bs))
  | 4 => some (.chain (parseChain bs))
  | 5 => some (.chain (parseChain bs))
  | 6 => some (.chunk (parseChunk bs))
  | 7 => some (parseTarraRec bs)
  | 8 => some (.beat (parseBeat bs))
  | 9 => some (.mem (parseMemMsg bs))
  | 10 => some (.mem (parseMemMsg bs))
  | 11 => some (.copy (parseCopyMsg bs))
  | 12 => some (.copyRsp (parseCopyMsg bs))
  | 13 => some (.bulk (parseBulk 260 bs))
  | 14 => some (.wake (parseWake bs))
  | _ => none

def frameBytes (f : Frame) : List Byte := hdrBytes f.hdr ++ payloadBytes f.body

def parseFrame (bs : List Byte) : Option Frame :=
  let h := parseHdr bs
  match parsePayload h.typ (if h.typ = 7 then bs.drop 32 else (bs.drop 32).take h.len) with
  | some b => some ⟨h, b⟩
  | none => none

end Sys2Proof.Machine
end

