-- ==== Sys2Proof/Machine/Ops.lean ====
section
/-! DEFINITION. The shared operations: parts of State, memory in its canonical form (spec/11 R317, spec/15 R411 to R421), counters, violations (spec/13 R389), the record unit (spec/12 R355 to R359), messages and alerts (spec/13 R384 to R386, spec/17 R460), completions (R363 to R368), events and tallies (spec/09 R269 to R277). -/

namespace Sys2Proof.Machine

/-! ### Statuses (Table 0.4) -/

def stOk : Nat := 0x00
def stPartial : Nat := 0x01
def stFlushed : Nat := 0x02
def stAborted : Nat := 0x03
def stSkip : Nat := 0x04
def stCollTimeout : Nat := 0x05
def stGroupLost : Nat := 0x06
def stPortNotReady : Nat := 0x07
def stCheckFail : Nat := 0x08
def stUnmapped : Nat := 0x09
def stPeerFailed : Nat := 0x0A
def stNoRoom : Nat := 0x0B
def stBad : Nat := 0x0C
def stStale : Nat := 0x0D
def stFidelity : Nat := 0x0E
def stFenced : Nat := 0x0F

/-- Place of a status in the order of R15; smaller is reported first. -/
def statusRank (st : Nat) : Nat :=
  match st with
  | 0x03 => 1
  | 0x02 => 2
  | 0x06 => 3
  | 0x0F => 4
  | 0x0A => 5
  | 0x05 => 6
  | 0x08 => 7
  | 0x07 => 8
  | 0x09 => 9
  | 0x0D => 10
  | 0x0C => 11
  | 0x0B => 12
  | 0x01 => 13
  | 0x04 => 14
  | 0x0E => 15
  | _ => 16

/-- The one of two statuses that R15 reports. -/
def firstStatus (a b : Nat) : Nat := if statusRank a ≤ statusRank b then a else b

/-! ### Parts of the state -/

def partOf (s : State) (p : Nat) : PartSt := SMap.look {} s.part p
def modPart (p : Nat) (f : PartSt → PartSt) (s : State) : State :=
  { s with part := SMap.put s.part p (f (partOf s p)) }
def portOf (s : State) (p : Nat) : PortSt := SMap.look {} s.port p
def modPort (p : Nat) (f : PortSt → PortSt) (s : State) : State :=
  { s with port := SMap.put s.port p (f (portOf s p)) }
def tallyOf (s : State) (n : Nat) : Tally := SMap.look {} s.tally n
def modTally (n : Nat) (f : Tally → Tally) (s : State) : State :=
  { s with tally := SMap.put s.tally n (f (tallyOf s n)) }
def grpOf (s : State) (g : Nat) : Group := SMap.look {} s.grp g
def modGrp (g : Nat) (f : Group → Group) (s : State) : State :=
  { s with grp := SMap.put s.grp g (f (grpOf s g)) }
def regionOf (s : State) (i : Nat) : Region := SMap.look {} s.reg.table i
def modRegion (i : Nat) (f : Region → Region) (s : State) : State :=
  { s with reg := { s.reg with table := SMap.put s.reg.table i (f (regionOf s i)) } }
def pubOf (s : State) (e : Nat) : Pub := SMap.look {} s.pub e
def modPub (e : Nat) (f : Pub → Pub) (s : State) : State :=
  { s with pub := SMap.put s.pub e (f (pubOf s e)) }
def pageOf (s : State) (n : Nat) : Page := SMap.look {} s.page.recs n
def modPage (n : Nat) (f : Page → Page) (s : State) : State :=
  { s with page := { s.page with recs := SMap.put s.page.recs n (f (pageOf s n)) } }

def sqOf (x : PartSt) (q : Nat) : Sq := SMap.look {} x.sq q
def modSq (p q : Nat) (f : Sq → Sq) (s : State) : State :=
  modPart p (fun x => { x with sq := SMap.put x.sq q (f (sqOf x q)) }) s
def cqOf (x : PartSt) (q : Nat) : Cq := SMap.look {} x.cq q
def modCq (p q : Nat) (f : Cq → Cq) (s : State) : State :=
  modPart p (fun x => { x with cq := SMap.put x.cq q (f (cqOf x q)) }) s
def timerOf (x : PartSt) (t : Nat) : Timer := SMap.look {} x.timer t
def modTimer (p t : Nat) (f : Timer → Timer) (s : State) : State :=
  modPart p (fun x => { x with timer := SMap.put x.timer t (f (timerOf x t)) }) s
def edgeOf (x : PartSt) (e : Nat) : Edge := SMap.look {} x.edge e
def modEdge (p e : Nat) (f : Edge → Edge) (s : State) : State :=
  modPart p (fun x => { x with edge := SMap.put x.edge e (f (edgeOf x e)) }) s
def slotOf (x : PartSt) (n : Nat) : SlotSt := SMap.look {} x.slots n
def modSlot (p n : Nat) (f : SlotSt → SlotSt) (s : State) : State :=
  modPart p (fun x => { x with slots := SMap.put x.slots n (f (slotOf x n)) }) s

/-- General register n (Table 9.2). -/
def gReg (x : PartSt) (n : Nat) : Word := SMap.look 0 x.g n
def setG (p n : Nat) (v : Word) (s : State) : State := modPart p (fun x => { x with g := SMap.put x.g n v }) s
/-- Predicate n; p0 reads 1. -/
def pReg (x : PartSt) (n : Nat) : Bool := n == 0 || x.pr.testBit n
/-- Writes a predicate; writes to p0 are ignored (Table 9.2). -/
def setP (p n : Nat) (b : Bool) (s : State) : State :=
  modPart p (fun x => if n = 0 then x else
    { x with pr := if b then x.pr ||| 2 ^ n else x.pr &&& (255 - 2 ^ n) }) s
def dReg (x : PartSt) (n : Nat) : Desc := SMap.look {} x.d n
def setD (p n : Nat) (d : Desc) (s : State) : State := modPart p (fun x => { x with d := SMap.put x.d n d }) s
def setSt (p st : Nat) (s : State) : State := modPart p (fun x => { x with st := st }) s

def anyBound (s : State) : Bool := s.part.any fun x => x.2.bound
def tagBound (s : State) (tag : Nat) : Bool := s.part.any fun x => x.2.bound && x.2.tag == tag
/-- Partitions bound to a tag. -/
def boundTo (s : State) (tag : Nat) : List Nat := (s.part.filter fun x => x.2.bound && x.2.tag == tag).map (·.1)

/-- Does f for every number of a list, in order. -/
def forAll (ns : List Nat) (f : Nat → State → State) (s : State) : State := ns.foldl (fun t n => f n t) s

/-- Core mask in force; cores 12 to 15 exist on TKJ-A only (R114). -/
def coreMaskOf (s : State) (p : Nat) : Nat :=
  let m := (partOf s p).coreMask
  match s.fuse.grade with
  | .a => m
  | .b => m % 4096

/-- A write of time t joins those that wait; it replaces the ones of earlier cycles unless its own cycle is a commit's, which takes the newest of them (R49, R467). -/
def pendPut {α : Type} (t : Nat) (v : α) (l : List (Nat × α)) : List (Nat × α) :=
  (t, v) :: (l.filter fun x => decide (x.1 < t)).take 1

/-- The value written last, or the one in force. -/
def pendLast {α : Type} (d : α) (l : List (Nat × α)) : α := (l.head?.map (·.2)).getD d

/-- The value that a commit at time t puts in force: the newest write of an earlier cycle (R49). -/
def pendDue {α : Type} (t : Nat) (d : α) (l : List (Nat × α)) : α := ((l.find? fun x => decide (x.1 < t)).map (·.2)).getD d

/-- The writes that a commit at time t leaves waiting for the next one (R49). -/
def pendKeep {α : Type} (t : Nat) (l : List (Nat × α)) : List (Nat × α) := l.filter fun x => decide (t ≤ x.1)

/-- Sets a deferred register at time t: at the next commit while bound, at once otherwise (R467). -/
def deferWrite (bound : Bool) (t : Nat) (d : Deferred) (v : Word) : Deferred :=
  if bound then { d with next := pendPut t v d.next } else ⟨v, []⟩

/-- What a read of a deferred field returns: the last value written (R467). -/
def deferRead (d : Deferred) : Word := pendLast d.now d.next

/-- The value in force from a commit at time t on (R49). -/
def deferCommit (t : Nat) (d : Deferred) : Deferred := ⟨pendDue t d.now d.next, pendKeep t d.next⟩

/-- A free value (DESIGN CHOICE, log 8): the next one the surroundings or the manual leave open. -/
def freeByte (s : State) : Byte × State := (Config.freeByte s.freeCtr, { s with freeCtr := s.freeCtr + 1 })
def freeWord (s : State) : Word × State := (Config.freeWord s.freeCtr, { s with freeCtr := s.freeCtr + 1 })

/-- Counts a violation of a class (R389). -/
def violate (c : Nat) (s : State) : State :=
  { s with viol := SMap.put s.viol c (min (SMap.look 0 s.viol c + 1) 0xFFFFFFFF) }

/-- Records a write that a frozen register ignored (R467). -/
def frozen (s : State) : State := { s with clk := { s.clk with gstatCause := 8 } }

/-- Whether the core domain runs, or is to run again within 1 µs from IDLE (Tables 16.1 and 16.2; its PLL runs from REFCLK_AO). -/
def coreUp (s : State) : Bool :=
  s.clk.pwrGood && s.clk.refclk && s.clk.ready && (s.pwr.state == .run || s.pwr.state == .idle)

/-- The slot of the frame that is active (spec/12 R349). -/
def slotNow (s : State) : Nat := s.clk.cycle / 128 % 256

/-- Whether the slot in force lets sage (bit 0) or an audit (bit 1) run; every slot does in throughput mode (spec/12 R351). -/
def maintSlot (s : State) (b : Nat) : Bool :=
  !s.mode.chervil || (match s.mode.table with
    | some t => bitOf b (t.getD (32 * slotNow s + 31) 0).toNat
    | none => false)

/-- Core cycles since warm reset, those that IDLE held back included (spec/12 Table 12.6). -/
def coreCount (s : State) : Nat := s.clk.cycle + s.clk.gated

/-- The core clock after n cycles of 2.0 GHz: it runs in RUN, is held back in IDLE, and stands still otherwise (spec/16 Table 16.2). -/
def coreOn (n : Nat) (s : State) : State :=
  { s with clk := { s.clk with
      cycle := if coreUp s && s.pwr.state == .run then s.clk.cycle + n else s.clk.cycle
      gated := if coreUp s && s.pwr.state == .idle then s.clk.gated + n else s.clk.gated } }

/-- The byte of engine or port i in the slot in force (spec/12 Table 12.3), where its EN is set. -/
def slotByte (s : State) (i : Nat) : Option Nat :=
  match s.mode.table with
  | none => none
  | some t =>
    let b := (t.getD (32 * slotNow s + i) 0).toNat
    if bitOf 7 b then some b else none

/-- Whether the slot in force gives engine i to partition p (spec/12 R351). -/
def slotGives (s : State) (i p : Nat) : Bool := (slotByte s i).any fun b => bitsOf 0 4 b == p

/-- The present core cycle, as a number that moves on whenever time passes: two events with one instant fall into one core cycle (spec/02 R46, R49; log 12). -/
def instant (s : State) : Nat := s.clk.wall + s.clk.cycle

/-- Whether the vigil domain runs (Table 16.2, R448). -/
def vigilUp (s : State) : Bool := s.clk.refclk && s.pwr.state != .off

/-! ### Events and edges -/

def evTimer : Nat := 0
def evEdge : Nat := 1
def evTally : Nat := 2
def evSlot : Nat := 3
def evVerdict : Nat := 4
def evPhase : Nat := 5
def evCommand : Nat := 6
def evCheck : Nat := 7
def evStaged : Nat := 8

/-- Sets a bit of EPEND (R269). -/
def setEpend (p b : Nat) (s : State) : State := modPart p (fun x => { x with epend := x.epend ||| 2 ^ b }) s

/-- Whether a tally is reached (R273). -/
def reached (t : Tally) : Bool := decide ((t.count - t.target).toNat < 2 ^ 31)

/-- Present level of an edge detector's source (R277). -/
def edgeLevel (s : State) (e : Edge) : Bool :=
  match e.src with
  | 1 => reached (tallyOf s e.sel)
  | 2 => (portOf s (e.sel % 8)).state == .up
  | 3 => !s.pin.alertN
  | 4 => !s.pin.wakeN
  | 5 => s.pin.genStep.testBit (e.sel % 16)
  | _ => false

/-- An edge detector follows its source: an edge of its kind latches and counts (R277). -/
def edgeStep (s : State) (e : Edge) : Edge × Bool :=
  let l := edgeLevel s e
  let hit := l != e.level && (e.kind == 2 || (e.kind == 0 && l) || (e.kind == 1 && !l))
  (if hit then { e with level := l, latched := true, count := min (e.count + 1) 0xFFFF } else { e with level := l }, hit)

/-- Every edge detector of a partition follows its source. -/
def updEdgesOf (p : Nat) (s : State) : State :=
  (partOf s p).edge.foldl (fun t x =>
    let (e, hit) := edgeStep t x.2
    let t := modEdge p x.1 (fun _ => e) t
    if hit && e.evt then setEpend p evEdge t else t) s

def updEdges (s : State) : State := forAll (s.part.map (·.1)) updEdgesOf s

/-! ### Messages and alerts -/

def vecOf (s : State) (n : Nat) : VecMap := SMap.look { entry := n } s.msg.vec n

/-- HOST pad group held (Table 16.4). -/
def hostHeld (s : State) : Bool := s.pwr.padHold.testBit 3

/-- Whether the interface behind an address may be used: T1 lies behind TAP, T2 and T3 behind HOST (R437, Table 16.4). -/
def padFree (s : State) (a : Nat) : Bool :=
  if a < 2 ^ 62 then true else if a < 2 ^ 63 then !s.pwr.padHold.testBit 0 else !hostHeld s

/-- Whether the taps may be used (R437). -/
def tapFree (s : State) : Bool := padFree s (2 ^ 62)

/-- Sends vector n, or leaves it pending while it is masked or HOST is held (R386, R437). -/
def sendVec (n : Nat) (s : State) : State :=
  let v := vecOf s n
  if v.mask || hostHeld s then
    { s with msg := { s.msg with vec := SMap.put s.msg.vec n { v with pend := true } } }
  else { s with msg := { s.msg with sent := v.entry :: s.msg.sent } }

/-- Sends the pending message of a vector that may now leave (R386). -/
def releaseVec (n : Nat) (s : State) : State :=
  let v := vecOf s n
  if v.pend && !v.mask && !hostHeld s then
    { s with msg := { s.msg with
        vec := SMap.put s.msg.vec n { v with pend := false }, sent := v.entry :: s.msg.sent } }
  else s

/-- The target address of the management bus (R457). -/
def mgtAddr (s : State) : Nat := 0x5C + s.fuse.straps.val

/-- An alert message waits for the bus; it is formed when it is sent (R460, R463). -/
def queueAlert (kind detail : Nat) (s : State) : State :=
  { s with side := { s.side with queue := s.side.queue ++ [(kind, detail)] } }

/-- The block pulls GRP_ALERT_N low (R460). -/
def pullAlert (s : State) : State := updEdges { s with side := { s.side with driving := true }, pin := { s.pin with alertN := false } }

/-- Queues the message and pulls the line for the pulse, unless the line is stuck or only bit 5 rose; while SIDEBAND is held the pulse waits (R460, spec/16 R437). -/
def alertPulse (bits : Nat) (s : State) : State :=
  let s := queueAlert 1 bits s
  if s.side.stuck || bits &&& (1023 - 32) == 0 then s
  else if s.pwr.padHold.testBit 4 then { s with side := { s.side with owed := true } }
  else pullAlert s

/-- Bits of CAUSE AND ALERT_MASK. -/
def alerting (s : State) : Nat := s.side.alert &&& fld 0 10 s.side.mgtCtl

/-- Bits of CAUSE AND ALERT_MASK that a change made rise alert while ALERT_EN is 1; during a pulse, or within 1 ms after one, they wait for the next (R460). -/
def alertRose (before : Nat) (s : State) : State :=
  let rose := alerting s &&& (1023 - before)
  if rose = 0 || !bit 63 s.side.mgtCtl then s
  else if s.side.driving || s.side.holdoff || s.side.owed then { s with side := { s.side with rose := s.side.rose ||| rose } }
  else alertPulse rose s

/-- Bit i of TKJ_ALERT_STAT is set (R460). -/
def alertRise (i : Nat) (s : State) : State :=
  alertRose (alerting s) { s with side := { s.side with alert := s.side.alert ||| 2 ^ i } }

/-- A pulse that waited for the SIDEBAND pads: the line is pulled now; if it was declared stuck meanwhile no pulse comes, and what rose since gives its message at once (R460, R462, spec/16 R437). -/
def owedPulse (s : State) : State :=
  if !s.side.owed || s.pwr.padHold.testBit 4 then s
  else
    let r := s.side.rose
    let s := { s with side := { s.side with owed := false } }
    if !s.side.stuck then pullAlert s
    else if r = 0 then s
    else alertPulse r { s with side := { s.side with rose := 0 } }

/-- Raises global vector 80 + i (R384, R386) and its alert (R460). -/
def raiseGlobal (i : Nat) (s : State) : State :=
  let s' := if s.msg.cause.testBit i then s
    else sendVec (80 + i) { s with msg := { s.msg with cause := s.msg.cause ||| 2 ^ i } }
  alertRise i s'

def vVerdict : Nat := 0
def vCommit : Nat := 1
def vPower : Nat := 2
def vSram : Nat := 3
def vKeep : Nat := 4
def vAlert : Nat := 5
def vDigest : Nat := 6
def vExport : Nat := 7
def vReplay : Nat := 8
def vCal : Nat := 9

/-- Sets a cause bit of TKJ_P_STAT and raises the partition event vector when it rises (R386). -/
def partCause (p b : Nat) (s : State) : State :=
  let was := (partOf s p).causes.testBit b
  let s := modPart p (fun x => { x with causes := x.causes ||| 2 ^ b }) s
  if was then s else sendVec (5 * p + 4) s

/-! ### Memory -/

/-- Whether a list of cells is in the canonical form: addresses strictly rising, no zero byte listed. -/
def Memory.wf : List Host.Cell → Bool
  | [] => true
  | [c] => c.2 != 0
  | c :: d :: m => decide (c.1 < d.1) && c.2 != 0 && Memory.wf (d :: m)

def tierOf (a : Nat) : Nat := a / 2 ^ 62 % 4
def byteOf (a : Nat) : Nat := a % 2 ^ 62

/-- The cells of [a, a + n), as offsets from a. -/
def memSlice (a n : Nat) (m : List Host.Cell) : UnitImg :=
  (m.filter fun c => decide (a ≤ c.1 ∧ c.1 < a + n)).map fun c => (c.1 - a, c.2)

/-- Replaces [a, a + n) by an image; bytes of the image at n or beyond are not written. -/
def memSplice (a n : Nat) (u : UnitImg) (m : List Host.Cell) : List Host.Cell :=
  u.foldl (fun m x => if x.1 < n then uset m (a + x.1) x.2 else m)
    (m.filter fun c => decide (c.1 < a ∨ a + n ≤ c.1))

/-- Check bits stored for a byte of T0 (R413). -/
def checkOf (s : State) (a : Nat) : BitVec 5 := (SMap.find s.sram.check a).getD (checkBits (uget s.mem a))

/-- Keeps only check bits that differ from fresh ones. -/
def putCheck (a : Nat) (c : BitVec 5) (s : State) : State :=
  { s with sram := { s.sram with
      check := if c = checkBits (uget s.mem a) then SMap.del s.sram.check a else SMap.put s.sram.check a c } }

def splitOn (s : State) : Bool := bit 63 s.sram.split
def splitRaw (s : State) : Bool := bit 62 s.sram.split

/-- Marks the lines of [a, a + n) of T0 as valid (R415). -/
def validate (a n : Nat) (s : State) : State :=
  let l := a / 64
  { s with sram := { s.sram with
      valid := (List.range ((a + n + 63) / 64 - l)).foldl (fun v i => SMap.put v (l + i) true) s.sram.valid } }

/-- A byte that is written leaves the write-back queue (R416). -/
def unfixByte (a : Nat) (s : State) : State :=
  { s with sram := { s.sram with fixBytes := s.sram.fixBytes.filter (· != a), met := s.sram.met.filter (· != a) } }

/-- One byte of T0 under the split-write test mode (R421). -/
def splitByte (a : Nat) (b : Byte) (s : State) : State :=
  if bit 61 s.sram.split then putCheck a (BitVec.ofNat 5 (fld 48 5 s.sram.split)) (unfixByte a s)
  else
    let c := checkOf s a
    putCheck a c { unfixByte a s with mem := uset s.mem a b }

/-- A write of bytes at a tiered address. A write of a byte of T0 clears any error it held (R414), and its write-back is discarded (R416); a whole line written loses its poison (DESIGN CHOICE, log 6). -/
def memWrite (a : Nat) (bs : List Byte) (s : State) : State :=
  let n := bs.length
  if tierOf a = 0 ∧ splitOn s then
    (bs.zipIdx).foldl (fun t x => splitByte (a + x.2) x.1 t) (validate a n s)
  else
    let s := { s with
      mem := memSplice a n (ofDense 0 bs) s.mem
      poison := s.poison.filter fun l => !decide (a ≤ l ∧ l + 64 ≤ a + n) }
    if tierOf a = 0 then
      validate a n { s with sram := { s.sram with
        check := s.sram.check.filter fun c => !decide (a ≤ c.1 ∧ c.1 < a + n)
        fixBytes := s.sram.fixBytes.filter fun b => !decide (a ≤ b ∧ b < a + n)
        met := s.sram.met.filter fun b => !decide (a ≤ b ∧ b < a + n) } }
    else s

/-- A write of a whole image of n bytes. -/
def memWriteImg (a n : Nat) (u : UnitImg) (s : State) : State :=
  if tierOf a = 0 then memWrite a (denseU n 0 u) s
  else { s with
    mem := memSplice a n u s.mem
    poison := s.poison.filter fun l => !decide (a ≤ l ∧ l + 64 ≤ a + n) }

/-- A byte as a read delivers it: corrected unless reads are raw (R414, R421). -/
def peekByte (s : State) (a : Nat) : Byte :=
  let b := uget s.mem a
  if splitOn s && splitRaw s then b
  else match SMap.find s.sram.check a with
    | none => b
    | some c => match eccDecide b c with
      | .fixed d => d
      | _ => b

/-- The image that a read of [a, a + n) delivers. -/
def memImg (a n : Nat) (s : State) : UnitImg :=
  (s.sram.check.filter fun c => decide (a ≤ c.1 ∧ c.1 < a + n)).foldl
    (fun u c => uset u (c.1 - a) (peekByte s c.1)) (memSlice a n s.mem)

def memBytes (a n : Nat) (s : State) : List Byte := denseU n 0 (memImg a n s)
def mem64 (a : Nat) (s : State) : Word := BitVec.ofNat 64 (ofBytes (memBytes a 8 s))

/-- Bank, row, line and byte of an SRAM address (R411), as the fields of TKJ_ECC_STAT. -/
def eccPlace (a : Nat) : Nat :=
  let l := a / 64
  pack [(6, a % 64), (3, l / 64 % 8), (13, l / 64 / 8), (6, l % 64)]

/-- Counts one on a lifetime accumulator (R426). -/
def bumpLife (i : Nat) (s : State) : State :=
  { s with keep := { s.keep with life := SMap.put s.keep.life i (SMap.look 0 s.keep.life i + 1) } }

/-- Counts a corrected byte and queues it with its line for write-back, where the queue has room (R416). -/
def eccCorrected (a : Nat) (s : State) : State :=
  let l := a / 64
  let e := setFld 3 29 (eccPlace a) (bump 32 16 s.sram.ecc)
  let q := if l ∈ s.sram.wbq ∨ s.sram.wbq.length ≥ Config.writeBackLines then s.sram.wbq else s.sram.wbq ++ [l]
  bumpLife 1 { s with sram := { s.sram with
    ecc := e, wbq := q, fixBytes := if q.contains l then a :: s.sram.fixBytes.filter (· != a) else s.sram.fixBytes } }

/-- Counts an uncorrectable byte and raises the SRAM-error vector (R417). -/
def eccBad (a : Nat) (s : State) : State :=
  let e := setFld 3 29 (eccPlace a + 2 ^ 28) (bump 48 16 s.sram.ecc)
  raiseGlobal vSram (bumpLife 2 { s with sram := { s.sram with ecc := e } })

/-- What reading one byte with odd check bits does: the state, and whether the byte is uncorrectable. -/
def eccRead (a : Nat) (c : BitVec 5) (s : State) : State × Bool :=
  match eccDecide (uget s.mem a) c with
  | .good => (s, false)
  | .fixed _ => (eccCorrected a s, false)
  | .bad => (eccBad a s, true)

/-- n free bytes (DESIGN CHOICE, log 8). -/
def freeBytes : Nat → State → State × List Byte
  | 0, s => (s, [])
  | n + 1, s =>
    let (b, s) := freeByte s
    let (s, bs) := freeBytes n s
    (s, b :: bs)

/-- Bytes that a rule leaves undefined are free values (log 8). -/
def forget (a n : Nat) (s : State) : State :=
  let (s, bs) := freeBytes n s
  memWrite a bs s

/-- The lines of a range of which a byte is uncorrectable: those that a tap reported, and those of T0 whose check bits say so (R211, R417). -/
def badLines (a n : Nat) (s : State) : List Nat :=
  (s.poison.filter fun l => decide (l < a + n ∧ a < l + 64)) ++
    (if tierOf a = 0 ∧ !(splitOn s && splitRaw s) then
      ((s.sram.check.filter fun c => decide (a ≤ c.1 ∧ c.1 < a + n) && (match eccDecide (uget s.mem c.1) c.2 with
        | .bad => true
        | _ => false)).map fun c => c.1 / 64 * 64).eraseDups
    else [])

/-- The side effects of a read of [a, a + n): corrections, except of bytes in the write-back queue, which serves them, poison, tier errors (R416, R417, R211, R319). True when the data may not be used. -/
def memTouch (a n : Nat) (s : State) : State × Bool :=
  match tierOf a with
  | 0 =>
    if splitOn s && splitRaw s then
      ({ s with sram := { s.sram with split := setFld 43 5 (checkOf s a).toNat s.sram.split } }, false)
    else
      (s.sram.check.filter fun c => decide (a ≤ c.1 ∧ c.1 < a + n)).foldl
        (fun t c =>
          let (s', b) := if s.sram.fixBytes.contains c.1 then (t.1, false) else eccRead c.1 c.2 t.1
          (s', t.2 || b)) (s, false)
  | 1 =>
    (s, s.poison.any fun l => decide (l < a + n ∧ a < l + 64))
  | _ =>
    if s.badRead.any fun r => decide (r.1 < a + n ∧ a < r.1 + r.2) then
      ({ s with tap := { s.tap with stat := bump 32 16 s.tap.stat } }, true)
    else (s, false)

/-! ### Block areas (spec/15 R412, R417) -/

/-- The bytes of block area k with odd check bits that a read meets: those that the write-back queue does not serve, and whose contents have not been given up (R416, R417). -/
def areaOdd (k : Nat) (s : State) : List (Nat × BitVec 5) :=
  let (a, n) := Config.area k
  s.sram.check.filter fun c => decide (a ≤ c.1 ∧ c.1 < a + n) && !s.sram.fixBytes.contains c.1 && !s.sram.met.contains c.1

/-- A read of block area k: whether it meets an uncorrectable byte. The byte is counted and stays in the SRAM; what it held is given up, so that nothing reads it again until it is written (R417; DESIGN CHOICE, log 180). -/
def areaTouch (k : Nat) (s : State) : State × Bool :=
  (areaOdd k s).foldl (fun t c =>
    let (s', b) := eccRead c.1 c.2 t.1
    (if b then { s' with sram := { s'.sram with met := c.1 :: s'.sram.met } } else s', t.2 || b)) (s, false)

/-- Whether a byte of block area k cannot be read as it was written. -/
def areaHit (k : Nat) (s : State) : Bool := !(areaOdd k s).isEmpty

/-- Whether a range of T0 reaches a block area, which no instruction, register or external agent addresses (R412). -/
def inBlockArea (a n : Nat) : Bool := tierOf a == 0 && decide (Config.t0Bytes < a + n)

/-! ### Record and replay (R355 to R359) -/

def recording (s : State) : Bool := s.rcd.active && s.rcd.op == 1
def replaying (s : State) : Bool := s.rcd.active && s.rcd.op == 2

def recEntries (s : State) : Nat := fld 0 32 s.rcd.size * 32768
def recPayload (s : State) : Nat := fld 32 32 s.rcd.size * 32768

def logBase (w : Word) : Nat := fld 62 2 w * 2 ^ 62 + fld 0 52 w % 2 ^ 50 * 4096

/-- The 32 bytes of a log entry (Table 12.6). -/
def logBytes (cycle kind src crc len d0 d1 : Nat) : List Byte :=
  toBytes 32 (pack [(48, cycle), (4, kind), (4, 0), (8, src), (32, crc), (32, len), (64, d0), (64, d1)])

/-- Place of an entry among those of its cycle: START, the control port, the fabric ports, the sideband, the surroundings, commands, reads of T2 and T3, END (R357; for commands DESIGN CHOICE, log 12). -/
def logRank (kind src : Nat) : Nat :=
  match kind with
  | 0 => 0
  | 1 => 2 + src
  | 2 => 1
  | 3 => 1
  | 4 => 12
  | 5 => 13
  | 6 => 11
  | 7 => 10
  | _ => 14

/-- Puts a row behind those of its rank. -/
def rankInsert (r : Nat) (bs : List Byte) (xs : List (Nat × List Byte)) : List (Nat × List Byte) :=
  (xs.filter fun x => decide (x.1 ≤ r)) ++ (r, bs) :: xs.filter fun x => decide (r < x.1)

/-- Bytes in the record buffer. -/
def bufBytes (b : List (Nat × List Byte)) : Nat := (b.map fun x => x.2.length).sum

/-- The record buffer without its oldest part, where it holds more than its 1 MiB (R358). -/
def bufTrim : List (Nat × List Byte) → List (Nat × List Byte)
  | [] => []
  | x :: xs => if bufBytes (x :: xs) ≤ Config.recordBuffer then x :: xs else bufTrim xs

/-- A write of the record unit: it leaves through the buffer, where it waits while HOST is held (R358, spec/16 R437). -/
def logWrite (a : Nat) (bs : List Byte) (s : State) : State :=
  if hostHeld s && !bs.isEmpty then
    let b := s.rcd.buf.filter (fun x => x.1 != a) ++ [(a, bs)]
    { s with rcd := { s.rcd with buf := if s.rcd.wrap then bufTrim b else b } }
  else memWrite a bs s

/-- What waited in the record buffer is written once HOST is free (R358, spec/16 R437). -/
def logFlush (s : State) : State :=
  if hostHeld s then s else s.rcd.buf.foldl (fun s x => memWrite x.1 x.2 s) { s with rcd := { s.rcd with buf := [] } }

/-- Writes one entry into the entry stream, behind those that R357 puts before it. -/
def logEntry (kind src crc len d0 d1 : Nat) (s : State) : State :=
  let n := recEntries s
  let cyc := coreCount s - s.rcd.start
  let old := if s.rcd.sameAt = cyc then s.rcd.same else []
  let rows := rankInsert (logRank kind src) (logBytes cyc kind src crc len d0 d1) old
  let first := s.rcd.pos - old.length
  let s' := rows.zipIdx.foldl (fun t x =>
    logWrite (logBase s.rcd.base + 32 * (if n = 0 then 0 else (first + x.2) % n)) x.1.2 t) s
  { s' with rcd := { s'.rcd with pos := s.rcd.pos + 1, wrapped := s.rcd.wrapped || decide (n ≤ s.rcd.pos), same := rows, sameAt := cyc } }

/-- Ends a recording with an END entry (R358). -/
def endRecord (cause : Nat) (s : State) : State :=
  if recording s then
    let s := logEntry 8 cause 0 0 (s.rcd.pos) 0 s
    let s := { s with rcd := { s.rcd with active := false, full := s.rcd.full || cause == 1 } }
    if cause = 1 then raiseGlobal vReplay s else s
  else s

/-- Writes a payload at a unit of the payload stream; one that passes the end goes on at its start, over the oldest part (R358). -/
def payWrite (off : Nat) (bs : List Byte) (s : State) : State :=
  let k := 32 * (recPayload s - off)
  let base := logBase s.rcd.pbase
  logWrite base (bs.drop k) (logWrite (base + 32 * off) (bs.take k) s)

/-- Logs one external input from the record's first cycle on (R355, R358), or loses it in the record buffer (spec/15 Table 15.2); d1 is replaced by the payload offset where the kind has a payload. -/
def logIn (kind src d0 d1 : Nat) (pay : List Byte) (s : State) : State :=
  let (s, lost) := if recording s && areaHit 5 s then areaTouch 5 s else (s, false)
  if lost then { s with rcd := { s.rcd with stat := bump 32 32 s.rcd.stat } }
  else if recording s && decide (coreCount s < s.rcd.start) then s
  else if recording s then
    let hasPay := !pay.isEmpty
    let units := if s.rcd.payload && hasPay then cdiv pay.length 32 else 0
    let room := s.rcd.wrap || (decide (s.rcd.pos + 1 < recEntries s) && decide (s.rcd.payPos + units ≤ recPayload s) &&
      (!hostHeld s || decide (bufBytes s.rcd.buf + 32 * (units + 1) ≤ Config.recordBuffer)))
    if room then
      let off := if recPayload s = 0 then 0 else s.rcd.payPos % recPayload s
      let s1 := if units = 0 then s else payWrite off (pay ++ List.replicate (32 * units - pay.length) 0) s
      let crc := if hasPay then (crc32c pay).toNat else 0
      let d1' := if hasPay then (if units = 0 then 0 else off) else d1
      logEntry kind src crc pay.length d0 d1' { s1 with rcd := { s1.rcd with payPos := s.rcd.payPos + units } }
    else endRecord 1 s
  else if s.rcd.full then { s with rcd := { s.rcd with stat := bump 32 32 s.rcd.stat } }
  else s

/-- A live input that replay discards (R359). -/
def countLive (s : State) : State := { s with rcd := { s.rcd with stat := bump 16 16 s.rcd.stat } }

/-- An external input: logged and taken, or discarded during replay (R359). -/
def external (kind src d0 d1 : Nat) (pay : List Byte) (f : State → State) (s : State) : State :=
  if replaying s then countLive s
  else f (logIn kind src d0 d1 pay s)

/-- A checked read: the state after it, whether it failed, and the image. Reads of T2 and T3 are external inputs (KIND 5). -/
def memFetch (a n : Nat) (s : State) : State × Bool × UnitImg :=
  let u := memImg a n s
  let (s1, bad) := memTouch a n s
  let s2 := if tierOf a < 2 then s1
    else if replaying s1 then countLive s1
    else logIn 5 (tierOf a) a 0 (denseU n 0 u) s1
  (s2, bad, u)

/-! ### Sequencer: ends of instructions and of waits -/

/-- Logical rank of this block's coordinate (R217). -/
def torusDim (s : State) (a : Nat) : Nat :=
  match a with
  | 0 => fld 0 5 s.fab.torus + 1
  | 1 => fld 8 5 s.fab.torus + 1
  | 2 => fld 16 4 s.fab.torus + 1
  | _ => fld 24 3 s.fab.torus + 1

def coordAt (c a : Nat) : Nat :=
  match a with
  | 0 => bitsOf 0 5 c
  | 1 => bitsOf 5 5 c
  | 2 => bitsOf 10 4 c
  | _ => bitsOf 14 3 c

def coordOf (x0 x1 x2 x3 : Nat) : Nat := pack [(5, x0), (5, x1), (4, x2), (3, x3)]

/-- Algorithmic rank of a coordinate (R217). -/
def rankOf (s : State) (c : Nat) : Nat :=
  coordAt c 0 + torusDim s 0 * (coordAt c 1 + torusDim s 1 * (coordAt c 2 + torusDim s 2 * coordAt c 3))

def selfRank (s : State) : Nat := rankOf s s.fab.coord

/-- Ranks other than its own that the block serves through exception entries (spec/08 Table 8.16). -/
def servedAlso (s : State) : List Nat :=
  (s.fab.xlat.filter fun e => e.2.valid && !e.2.retired && e.2.coord == s.fab.coord && e.2.rank != selfRank s).map (·.2.rank)

/-- The latest rank of a list of served ones (Table 8.16). -/
def latestServed (s : State) (rs : List Nat) : Option Nat := (s.fab.aliases.find? fun r => rs.contains r).or rs.head?

/-- TKJ_RANK_SELF.ALIAS; none where ALIAS_V is 0. -/
def aliasNow (s : State) : Option Nat := latestServed s (servedAlso s)

/-- The logical rank in which the block acts for the job: that of an exception entry, but the home of a spread rebuild keeps its own (spec/08 R220). -/
def servedRank (s : State) : Nat :=
  (latestServed s ((servedAlso s).filter fun r => !s.reb.runs.any fun q => q.spread && q.failed == r)).getD (selfRank s)

/-- Writes a completion entry (Table 13.2) for a command taken from a queue (R366), with the note of R36 and the coalescing of R385. -/
def complete (c : CurCmd) (st : Nat) (result : Word) (s : State) : State :=
  let x := partOf s c.p
  let s := modSq c.p c.q (fun q => { q with outstanding := q.outstanding - 1 }) s
  let k := cqOf x c.q
  if !k.en || k.gen != c.cqGen then s
  else
    let s := modCq c.p c.q (fun k => { k with reserved := k.reserved - 1 }) s
    let st := if st = stOk && s.ep.fid && x.bound && x.tag == s.job.tag then stFidelity else st
    let e := toBytes 16 (pack [(16, c.cid), (8, st), (1, b2n k.phase), (2, c.q), (5, 0), (16, c.sqHead), (16, 0),
      (64, result.toNat)])
    let wrapT := k.tail + 1 == k.sizeM1 + 1
    let s := memWrite (k.base.toNat + 16 * k.tail) e s
    let since := k.since + 1
    let fire := decide (k.coalCnt ≤ since) || decide (k.coalCnt ≤ 1)
    let s := modCq c.p c.q (fun k => { k with
      tail := if wrapT then 0 else k.tail + 1
      phase := if wrapT then !k.phase else k.phase
      since := if fire then 0 else since }) s
    if fire then sendVec (5 * c.p + c.q) s else s

/-- The sequencer goes back to DISPATCH, or to NOIMAGE without an image (Table 9.1). -/
def toDispatch (p : Nat) (s : State) : State :=
  modPart p (fun x => { x with
    seq := if x.image.isSome then .dispatch else .noImage, wait := none, retry := none, inH := false }) s

/-- The current command leaves the sequencer: no open instruction of it completes it again. -/
def dropCur (c : CurCmd) (x : PartSt) : PartSt :=
  { x with cur := none, ops := x.ops.map fun o => if o.cur == some c then { o with cur := none } else o }

/-- Completes the current command of a sequencer. -/
def endCommand (p st : Nat) (result : Word) (s : State) : State :=
  match (partOf s p).cur with
  | none => toDispatch p s
  | some c => complete c st result (toDispatch p (modPart p (dropCur c) s))

/-- Whether the current command is an INSTR. -/
def isInstr (x : PartSt) : Bool :=
  match x.cur with
  | some c => c.instr
  | none => false

/-- What a completion with a status also shows: the check event (Table 9.7), the count of RANK_UNMAPPED (spec/08 R218). -/
def noteCheck (p st : Nat) (s : State) : State :=
  if st = stCheckFail then setEpend p evCheck s
  else if st = stUnmapped then { s with fab := { s.fab with unmapped := min (s.fab.unmapped + 1) 0xFFFF } }
  else s

/-- Words that an instruction class takes (R260). -/
def classWords (cls : Nat) : Nat := if 2 ≤ cls ∧ cls ≤ 7 then 2 else 1

/-- An instruction of a class ends with a status: ST takes it, PC moves past it, and an INSTR completes (R254, R267). -/
def instrEnd (p cls st : Nat) (result : Word) (s : State) : State :=
  let x := partOf s p
  let s := noteCheck p st (modPart p (fun x => { x with st := st, wait := none }) s)
  if isInstr x then endCommand p st result s
  else modPart p (fun x => { x with
    pc := (x.pc + classWords cls) % 16384, seq := if x.inH then .handler else .run }) s

/-- An instruction that reports no status into ST ends. -/
def instrDone (p cls : Nat) (s : State) : State :=
  if isInstr (partOf s p) then endCommand p stOk 0 s
  else modPart p (fun x => { x with
    pc := (x.pc + classWords cls) % 16384, wait := none, seq := if x.inH then .handler else .run }) s

/-- What WAITEP waits for: the open epoch has passed e, or with ph from 1 to 7 stands at e in phase ph or later (spec/10 R310; DEDUCED, log 33). -/
def epochReached (s : State) (e ph : Nat) : Bool :=
  decide (e < s.ep.epoch) || (ph != 0 && s.ep.epoch == e && decide (ph ≤ s.ep.phase))

/-- Whether a command is ready for a partition: an enabled queue holds an entry that a doorbell covers (R364). -/
def cmdReady (x : PartSt) : Bool := x.sq.any fun q => q.2.en && q.2.head != q.2.tail

/-- A command that is ready while the sequencer is not in DISPATCH sets EPEND.COMMAND (Table 9.7; DEDUCED, log 59). -/
def noteCommand (p : Nat) (s : State) : State :=
  if cmdReady (partOf s p) && (partOf s p).seq != .dispatch then setEpend p evCommand s else s

/-- Whether a partition has a busy completion slot. -/
def slotsBusy (x : PartSt) : Bool := x.slots.any fun y => y.2.busy

/-- The instruction status with which a wait ends now, if it does (R305 to R310). WAITEP names an epoch, and so ends STALE_EPOCH after the last epoch (spec/02 R38) and BAD_COMMAND where no job is open (R55). -/
def waitResult (s : State) (p : Nat) : Wait → Option Nat
  | .tally n => if reached (tallyOf s n) then some stOk else none
  | .slot n => if (slotOf (partOf s p) n).busy then none else some (slotOf (partOf s p) n).status
  | .event m => if (partOf s p).epend &&& m != 0 then some stOk else none
  | .epoch e ph =>
    if s.ep.limit then some stStale
    else if s.ep.phase = 0 then some stBad
    else if epochReached s e ph then some stOk else none
  | .fence sl => if sl && slotsBusy (partOf s p) then none else some stOk
  | .idle =>
    let x := partOf s p
    if cmdReady x || x.epend &&& x.emask != 0 then some stOk else none
  | .remote => none
  | .slotFree _ => none
  | .stall => none

/-- Time spent in IDLE since the count was last taken, in ns, up to what IDLE_US can show; a stay in progress counts (spec/16 Table 16.13). -/
def idleTime (s : State) : Nat :=
  min (s.pwr.idleNs + (if s.pwr.state == .idle then s.clk.wall - s.pwr.idleSince else 0)) (2 ^ 32 * 1000 - 1)

/-- TKJ_PWR_STAT.IDLE_US (spec/16 Table 16.13). -/
def idleUs (s : State) : Nat := idleTime s / 1000

/-- IDLE ends (spec/16 R431, Table 16.14). -/
def leaveIdle (s : State) : State :=
  if s.pwr.state == .idle then
    { s with pwr := { s.pwr with
        state := .run, idleNs := idleTime s } }
  else s

/-- A sequencer in WAIT goes on when its wait has ended; one that waits for a slot issues its instruction again. An IDLE instruction ends as the block returns to RUN (spec/16 R431). -/
def wakePart (p : Nat) (s : State) : State :=
  let x := partOf s p
  match x.wait with
  | none => s
  | some (.slotFree n) =>
    if (slotOf x n).busy then s
    else modPart p (fun x => { x with wait := none, seq := if x.inH then .handler else .run }) s
  | some w => match waitResult s p w with
    | none => s
    | some st => match w with
      | .epoch _ _ => instrEnd p 9 st 0 s
      | .fence _ => instrDone p 9 s
      | .idle => instrEnd p 10 st 0 (leaveIdle s)
      | _ => instrEnd p 8 st 0 s

def wakeAll (s : State) : State := forAll (s.part.map (·.1)) wakePart s

/-! ### Prefetch order -/

/-- Due value u of an entry for its pass (R322). -/
def pfDue (f : Pf) (e : PfEntry) : Half := f.base + BitVec.ofNat 32 (e.pass * f.layers + e.layer)

def countReached (c u : Half) : Bool := decide ((c - u).toNat < 2 ^ 31)

/-- Whether an entry's transfer is eligible (R322). -/
def pfEligible (s : State) (f : Pf) (e : PfEntry) : Bool :=
  f.armed && !f.stopping && !e.flying && (f.passes == 0 || decide (e.pass < f.passes)) &&
    countReached (tallyOf s f.clock).count (pfDue f e - BitVec.ofNat 32 e.lead)

/-- Class of an engine unit (spec/12 Tables 12.2 and 12.3): 0 for the cores. -/
def engineClass (i : Nat) : Nat := if i < 16 then 0 else i - 23

/-- Charges an engine's time to a partition: its account, and its virtual time by its share weight (spec/12 R348, spec/13 R379). -/
def chargeEngine (p e ns : Nat) (s : State) : State :=
  modPart p (fun x => { x with
    acct := SMap.put x.acct e ((SMap.look 0 x.acct e + ns) % 2 ^ 64)
    vt := SMap.put x.vt e (SMap.look 0 x.vt e + ns * 256 / fld (8 * e) 8 x.share.now) }) s

/-- Eligible entries of a schedule by number, in ascending order of u - LEAD, and in entry order on a tie (R322). -/
def pfReady (s : State) (f : Pf) : List Nat :=
  let start (x : PfEntry × Nat) : Int := (x.1.pass * f.layers + x.1.layer : Int) - x.1.lead
  (sortBy (fun a b => decide (start a < start b) || (start a == start b && decide (a.2 ≤ b.2)))
    (f.entries.zipIdx.filter fun x => pfEligible s f x.1)).map (·.2)

/-- Keeps the order in which transfers became eligible; those of one event come by partition and then in the order of their schedule (R322; DEDUCED, log 176). -/
def pfRefresh (s : State) : State :=
  let now := s.part.flatMap fun x => if x.2.pf.armed then (pfReady s x.2.pf).map fun n => (x.1, n) else []
  let keep := s.tap.order.filter now.contains
  { s with tap := { s.tap with order := keep ++ now.filter fun y => !keep.contains y } }

/-! ### Tallies -/

/-- Passes of an entry that are late and not yet counted: those from the first uncounted pass on whose due value the clock has reached before their transfer arrived (R323). -/
def latePasses (f : Pf) (e : PfEntry) (c : Half) : Nat :=
  let q := max e.pass e.late
  let u := pfDue f { e with pass := q }
  if !countReached c u || (f.passes != 0 && decide (f.passes ≤ q)) then 0
  else
    let k := (c - u).toNat / max f.layers 1 + 1
    if f.passes = 0 then k else min k (f.passes - q)

/-- Late layers of one partition's schedule whose clock is tally n, once per entry and pass (R323). -/
def lateCheck (n p : Nat) (s : State) : State :=
  let x := partOf s p
  if x.pf.armed && x.pf.clock == n then
    (x.pf.entries.zipIdx).foldl (fun t y =>
      let k := latePasses x.pf y.1 (tallyOf t n).count
      if k = 0 then t
      else
        let t := { t with tap := { t.tap with
          late := setFld 60 4 p (setFld 32 16 y.1.layer (bumpBy 0 32 k t.tap.late)) } }
        modPart p (fun x => { x with pf := { x.pf with
          entries := x.pf.entries.modify y.2 (fun e => { e with late := max e.pass e.late + k }) } }) t) s
  else s

/-- What follows a change of a tally: REACHED is evaluated, and its events, edges and waiters see it (R273). -/
def afterTally (n : Nat) (was : Bool) (s : State) : State :=
  let t := tallyOf s n
  let s := if t.owned && t.evt && !was && reached t then setEpend t.owner evTally s else s
  wakeAll (updEdges (pfRefresh (forAll (s.part.map (·.1)) (lateCheck n) s)))

/-- Adds to a tally, modulo 2^32 (R273). -/
def incTally (n : Nat) (k : Half) (s : State) : State :=
  let was := reached (tallyOf s n)
  afterTally n was (modTally n (fun t => { t with count := t.count + k }) s)

/-- The tally that TEN names is incremented when the instruction ends (R262). -/
def endTally (ten : Option Nat) (s : State) : State :=
  match ten with
  | none => s
  | some n => incTally n 1 s

/-- An open instruction reaches its outcome: its slot, event, tally and INSTR command (R267, R254). -/
def slotOutcome (p : Nat) (o : OpenOp) (st : Nat) (result : Word) (s : State) : State :=
  let s := match o.slot with
    | none => s
    | some n => setEpend p evSlot (modSlot p n (fun _ => ⟨false, st⟩) s)
  let s := noteCheck p st s
  let s := match o.cur with
    | none => s
    | some c => if (partOf s p).cur == some c then endCommand p st result s else complete c st result s
  endTally o.ten (wakeAll s)

/-- Sets the phase of the open epoch (Table 2.9, event 5 of Table 9.7); the vote flag clears when gather begins (Table 5.10), and with no job open the region table is in force as it stands (R28). -/
def setPhase (ph : Nat) (s : State) : State :=
  let s' := { s with
    ep := { s.ep with phase := ph }
    reg := if ph = 0 then { s.reg with late := [] } else s.reg
    upd := if ph = 1 then { s.upd with nonfiniteStat := setFld 31 1 0 s.upd.nonfiniteStat } else s.upd }
  if s.ep.phase = ph then s'
  else wakeAll (forAll ((s.part.filter fun x => x.2.bound).map (·.1)) (setEpend · evPhase) s')

end Sys2Proof.Machine
end

