-- ==== Sys2Proof/Machine/Keep.lean ====
section
/-! DEFINITION. The keep store: writes, programming, wear and the lifetime snapshot (spec/15 R422 to R426). -/

namespace Sys2Proof.Machine

def keepWord (s : State) (n : Nat) : Word := SMap.look 0 s.keep.word n

/-- The value that a keep word is to hold once every write that waits is programmed. -/
def keepNow (s : State) (n : Nat) : Word :=
  match (s.keep.busy.toList ++ s.keep.queue).reverse.find? fun x => x.1 == n with
  | some x => x.2
  | none => keepWord s n

/-- A write by the block itself, which waits and never drops (R424). -/
def keepBlockWrite (n : Nat) (v : Word) (s : State) : State :=
  match s.keep.busy with
  | none => { s with keep := { s.keep with busy := some (n, v) } }
  | some _ => { s with keep := { s.keep with queue := s.keep.queue ++ [(n, v)] } }

/-- Words that Table 15.3 reserves to the block. -/
def keepReserved (n : Nat) : Bool := n == 0 || n == 2 || (decide (19 ≤ n) && decide (n ≤ 26))

/-- A control-port write of a keep word (R423, R424). -/
def keepWriteOp (n : Nat) (whole : Bool) (v : Word) (s : State) : State :=
  if !whole || bit n s.keep.lock || keepReserved n then violate 6 s
  else if s.keep.busy.isSome then { s with keep := { s.keep with drop := min (s.keep.drop + 1) 0xFFFFFFFF } }
  else keepBlockWrite n v s

/-- Programming of a word ends (R424, R425). -/
def keepProgramDoneOp (back : Word) (s : State) : State :=
  match s.keep.busy with
  | none => s
  | some (n, v) =>
    let k := s.keep
    let c := min (SMap.look 0 k.count n + 1) 0xFFFFFFFF
    let s := { s with keep := { k with
      word := SMap.put k.word n back, count := SMap.put k.count n c, last := n
      verifyFail := if back = v then k.verifyFail else SMap.put k.verifyFail n true
      busy := k.queue.head?, queue := k.queue.tail
      snap := k.snap && (k.queue.any fun x => decide (19 ≤ x.1 ∧ x.1 ≤ 26)) } }
    if back ≠ v ∨ c = 900000 ∨ c = 1000000 then raiseGlobal vKeep s else s

/-- A loss of power ends the writes that wait; the word being programmed keeps its old value or has its new one (R424; which is a free value, log 8). -/
def keepPowerLoss (s : State) : State :=
  let s' := { s with keep := { s.keep with busy := none, queue := [], snap := false } }
  match s.keep.busy with
  | none => s'
  | some (n, v) =>
    let (b, s') := freeByte s'
    if b.getLsbD 0 then { s' with keep := { s'.keep with word := SMap.put s'.keep.word n v, count := SMap.put s'.keep.count n (min (SMap.look 0 s'.keep.count n + 1) 0xFFFFFFFF) } }
    else s'

/-- Lifetime accumulator i (R426); accumulator 0 is the seconds powered. -/
def lifeNow (s : State) (i : Nat) : Nat := SMap.look 0 s.keep.life i + (if i = 0 then (s.clk.time - s.keep.base) / 1000000000 else 0)

/-- Writes the lifetime snapshot to keep words 19 to 26 (R426). -/
def snapshotOp (s : State) : State :=
  let t := (List.range 8).foldl (fun t i => keepBlockWrite (19 + i) (BitVec.ofNat 64 (lifeNow s i)) t) s
  { t with keep := { t.keep with snap := true } }

/-- Last fatal cause (Table 15.3, word 2). -/
def fatalCause (cause p : Nat) (s : State) : State :=
  keepBlockWrite 2 (BitVec.ofNat 64 (pack [(32, s.ep.epoch), (20, 0), (4, p), (8, cause)])) s

end Sys2Proof.Machine
end

