-- ==== Sys2Proof/Machine/Geometry.lean ====
section
/-! DEFINITION. Where units lie: group positions (spec/03 R59), rank translation (spec/08 R217 to R220), roles of stripes (R70, R71), the unit sequence of a slot (R64), coded images (spec/02 R32, spec/07 Table 7.4), parity headers (Table 3.6), and the copy-on-write of an export (spec/14 R397). -/

namespace Sys2Proof.Machine

/-! ### Ranks and coordinates -/

/-- Coordinate code of an algorithmic rank (R218). -/
def coordOfRank (s : State) (r : Nat) : Option Nat :=
  let d0 := torusDim s 0
  let d1 := torusDim s 1
  let d2 := torusDim s 2
  if d0 * d1 * d2 * torusDim s 3 ≤ r then none
  else some (coordOf (r % d0) (r / d0 % d1) (r / (d0 * d1) % d2) (r / (d0 * d1 * d2)))

/-- The exception entry that names a rank: the first valid one. -/
def xlatFind (s : State) (r : Nat) : Option XlatEnt :=
  (s.fab.xlat.find? fun e => e.2.valid && e.2.rank == r).map (·.2)

/-- translate of R218. -/
def translate (s : State) (r : Nat) : Option Nat :=
  match xlatFind s r with
  | some e => if e.retired then none else some e.coord
  | none => coordOfRank s r

/-- Whether a frame for this block's coordinate may name a rank (R219). -/
def servesRank (s : State) (r : Nat) : Bool :=
  (r == selfRank s && !s.fab.xlat.any (fun e => e.2.valid && e.2.retired && e.2.rank == r)) ||
  s.fab.xlat.any fun e => e.2.valid && !e.2.retired && e.2.rank == r && e.2.coord == s.fab.coord

/-- Neighbour of a coordinate by n positive steps on an axis. -/
def stepCoord (s : State) (c a n : Nat) : Nat :=
  let x (i : Nat) := if i = a then (coordAt c i + n) % torusDim s i else coordAt c i
  coordOf (x 0) (x 1) (x 2) (x 3)

/-! ### Groups -/

def gSize (g : Group) : Nat := g.k + g.m
def gTotal (g : Group) : Nat := g.k + g.m + g.standbys
def gCycles (g : Group) : Nat := if g.k = 0 then 0 else cdiv g.dataUnits g.k
def gStripes (g : Group) : Nat := gCycles g * gSize g

/-- Coordinate of position j (R59); a RANK0 at or above the product of the torus dimensions counts from coordinate 0 (DESIGN CHOICE, log 147). -/
def posCoord (s : State) (g : Group) (j : Nat) : Nat :=
  stepCoord s ((coordOfRank s g.rank0).getD 0) g.axis j

/-- Rank of position j (R59). -/
def posRank (s : State) (g : Group) (j : Nat) : Nat := rankOf s (posCoord s g j)

def memberRanks (s : State) (g : Group) : List Nat := (List.range (gSize g)).map (posRank s g)
def groupRanks (s : State) (g : Group) : List Nat := (List.range (gTotal g)).map (posRank s g)

/-- Position of a rank in a group, if it has one. -/
def posOfRank (s : State) (g : Group) (r : Nat) : Option Nat :=
  firstBelow (gTotal g) fun j => posRank s g j == r

/-- Enabled slots. -/
def slotsOn (s : State) : List Nat := (s.grp.filter fun x => x.2.en).map (·.1)

def posLive (g : Group) (j : Nat) : Bool := g.live.testBit j

/-- Whether this block serves a member position of a slot. -/
def isMember (g : Group) : Bool := g.en && decide (g.self < gSize g)

/-- Distance of member i in stripe st (role of R71): below m a parity row, else m plus the data column. -/
def roleNo (g : Group) (i st : Nat) : Nat := (i + gSize g - st % gSize g) % gSize g

/-- Member that holds row t, and member that holds column c, of a stripe (R70). -/
def rowMember (g : Group) (st t : Nat) : Nat := (st + t) % gSize g
def colMember (g : Group) (st c : Nat) : Nat := (st + g.m + c) % gSize g

/-- Stripes of the cycle, in order, in which member i has a data unit, or a parity unit. -/
def roleStripes (g : Group) (i : Nat) (parity : Bool) : List Nat :=
  (List.range (gSize g)).filter fun x => decide (roleNo g i x < g.m) == parity

/-- data_place of R71: stripe and column of member i's data unit u. -/
def dataPlace (g : Group) (i u : Nat) : Nat × Nat :=
  let x := (roleStripes g i false).getD (u % g.k) 0
  (u / g.k * gSize g + x, roleNo g i x - g.m)

/-- parity_place of R71: stripe and row of member i's parity unit v. -/
def parityPlace (g : Group) (i v : Nat) : Nat × Nat :=
  let x := (roleStripes g i true).getD (v % g.m) 0
  (v / g.m * gSize g + x, roleNo g i x)

/-- Data unit of member i in a stripe, and parity unit of member i in a stripe. -/
def dataUnitAt (g : Group) (i st : Nat) : Nat :=
  st / gSize g * g.k + ((roleStripes g i false).takeWhile (· != st % gSize g)).length

def parityUnitAt (g : Group) (i st : Nat) : Nat :=
  st / gSize g * g.m + ((roleStripes g i true).takeWhile (· != st % gSize g)).length

/-! ### Regions and the unit sequence -/

def cExact : Nat := 1
def cNarrow16 : Nat := 2
def cNarrow24 : Nat := 3
def cDerived : Nat := 4
def cScalar : Nat := 5
def cExperience : Nat := 6
def cReplicated : Nat := 7

def codedClass (c : Nat) : Bool := c == 1 || c == 2 || c == 3 || c == 5 || c == 6

/-- A region entry from its four words, with the fields that the block sets cleared (Table 2.1, R27). -/
def regionOfWords (w0 w1 w2 w3 : Word) : Region :=
  { tier := fld 62 2 w0, base := fld 0 52 w0, units := fld 32 32 w1, owner := fld 20 4 w1, cls := fld 16 4 w1
    format := fld 8 8 w1, fresh := bit 4 w1, group := fld 0 4 w1, valid := bit 16 w2, source := fld 0 14 w2, replicas := fld 0 8 w3 }

/-- Tiered byte address of a region (Table 2.1). -/
def regionAddr (r : Region) : Nat := r.tier % 4 * 2 ^ 62 + r.base % 2 ^ 50 * 4096

/-- Coding units that a region contributes (R64). -/
def codingUnits (r : Region) : Nat := if r.cls = 2 then cdiv r.units 2 else r.units

/-- Regions of a slot of a table in ascending index (R64). -/
def tableRegions (m : SMap Region) (sl : Nat) : List (Nat × Region) := m.filter fun x => x.2.valid && x.2.group == sl && codedClass x.2.cls

/-- The region table in force: a change accepted while a job is open takes effect at the next admission (R28). -/
def regionsInForce (s : State) : SMap Region :=
  if s.ep.phase = 0 then s.reg.table else s.reg.late.foldl (fun m x => SMap.put m x.1 x.2) s.reg.table

/-- A region entry in force. -/
def regionNow (s : State) (i : Nat) : Region := SMap.look {} (regionsInForce s) i

def slotRegions (s : State) (sl : Nat) : List (Nat × Region) := tableRegions (regionsInForce s) sl

/-- The region table of a member that failed, by which a spread host works (spec/07 R206; DESIGN CHOICE, log 74). -/
def memberTable (rank : Nat) : SMap Region :=
  (Config.memberEntries rank).foldl (fun m x => SMap.put m x.1 (regionOfWords (x.2.getD 0 0) (x.2.getD 1 0) (x.2.getD 2 0) (x.2.getD 3 0))) []

/-- Coding units that regions contribute (R64). -/
def unitsIn (rs : List (Nat × Region)) : Nat := (rs.map fun x => codingUnits x.2).foldl (· + ·) 0

def unitCount (s : State) (sl : Nat) : Nat := unitsIn (slotRegions s sl)

/-- Region, and unit in it, of unit u of a sequence. -/
def locUnit : List (Nat × Region) → Nat → Option (Nat × Region × Nat)
  | [], _ => none
  | (i, r) :: rs, u => if u < codingUnits r then some (i, r, u) else locUnit rs (u - codingUnits r)

def unitLoc (s : State) (sl u : Nat) : Option (Nat × Region × Nat) := locUnit (slotRegions s sl) u

/-- Index in the sequence of the first unit of a region. -/
def firstUnit : List (Nat × Region) → Nat → Nat
  | [], _ => 0
  | (i, r) :: rs, ix => if i = ix then 0 else codingUnits r + firstUnit rs ix

/-- The valid region that covers an address. -/
def regionAt (s : State) (a : Nat) : Option (Nat × Region) :=
  (regionsInForce s).find? fun x => x.2.valid && decide (regionAddr x.2 ≤ a ∧ a < regionAddr x.2 + 4096 * x.2.units)

/-- Number in its slot of the coding unit that holds byte a of region i (R64). -/
def unitOfByte (s : State) (i : Nat) (r : Region) (a : Nat) : Nat :=
  firstUnit (slotRegions s r.group) i + (a - regionAddr r) / (if r.cls = 2 then 8192 else 4096)

/-- Stored address and length of the bytes behind unit j of a region. -/
def unitExtent (r : Region) (j : Nat) : Nat × Nat :=
  if r.cls = 2 then (regionAddr r + 8192 * j, if 2 * j + 1 < r.units then 8192 else 4096)
  else (regionAddr r + 4096 * j, 4096)

/-- WIDTH of a region's units in squeezed form (R85). -/
def unitWidth (r : Region) : Nat :=
  match r.cls with
  | 2 => 1
  | 3 => 2
  | _ => match r.format with
    | 1 => 2
    | 2 => 1
    | 3 => 2
    | 4 => 2
    | 5 => 3
    | _ => 0

/-- Numbers of the 4-byte elements that are not all zero. -/
def elems4 (u : UnitImg) : List Nat :=
  (u.foldl (fun (acc : List Nat) x => match acc with
    | e :: _ => if e = x.1 / 4 then acc else x.1 / 4 :: acc
    | [] => [x.1 / 4]) []).reverse

/-- Every 4-byte element replaced by w bytes of f of it. -/
def mapElems (w : Nat) (f : Nat → Nat) (u : UnitImg) : UnitImg :=
  (elems4 u).flatMap fun e => ofDense (w * e) (toBytes w (f (ofBytes (denseU 4 (4 * e) u))))

/-- The image function of R82 on the stored bytes of a coding unit. -/
def narrowImage (cls : Nat) (u : UnitImg) : UnitImg :=
  match cls with
  | 2 => mapElems 2 narrow16 u
  | 3 => mapElems 4 narrow24 u
  | _ => u

/-- The stored bytes that an image of a region of a class restores (Table 2.4). -/
def widenImage (cls : Nat) (u : UnitImg) : UnitImg :=
  match cls with
  | 2 => (List.range 2048).flatMap fun e =>
      ofDense (4 * e) (toBytes 4 (widen16 ((uget u (2 * e)).toNat + 256 * (uget u (2 * e + 1)).toNat)))
  | 3 => mapElems 4 widen24 u
  | _ => u

def contentOf (s : State) (r : Region) (j : Nat) : UnitImg :=
  let (a, n) := unitExtent r j
  narrowImage r.cls (memImg a n s)

/-- Image of the current content of data unit u of a slot; a zero unit is empty (R65). -/
def unitContent (s : State) (sl u : Nat) : UnitImg :=
  match unitLoc s sl u with
  | none => []
  | some (_, r, j) => contentOf s r j

/-! ### Pages as units -/

def pagedRegions (m : SMap Region) : List (Nat × Region) := m.filter fun x => x.2.valid && x.2.cls == cExperience

/-- The EXPERIENCE regions, through which pages count in ascending index (spec/11 R338). -/
def experienceRegions (s : State) : List (Nat × Region) := pagedRegions (regionsInForce s)

/-- Pages of a list of EXPERIENCE regions. -/
def pagesIn (rs : List (Nat × Region)) : Nat := (rs.map fun x => x.2.units / 16).foldl (· + ·) 0

def pageFirst : List (Nat × Region) → Nat → Nat
  | [], _ => 0
  | (i, r) :: rs, ix => if i = ix then 0 else r.units / 16 + pageFirst rs ix

def pageAt (s : State) (i : Nat) (r : Region) (a : Nat) : Nat :=
  pageFirst (experienceRegions s) i + (a - regionAddr r) / 65536

def pageTotal (s : State) : Nat := pagesIn (experienceRegions s)

/-- Region and address of page n. -/
def locPage : List (Nat × Region) → Nat → Option (Nat × Region × Nat)
  | [], _ => none
  | (i, r) :: rs, n => if n < r.units / 16 then some (i, r, regionAddr r + 65536 * n) else locPage rs (n - r.units / 16)

def pageLoc (s : State) (n : Nat) : Option (Nat × Region × Nat) := locPage (experienceRegions s) n

/-! ### The memory part of a partition (spec/13 R372) -/

/-- First byte past the enabled windows of a partition that cover byte b of a tier. -/
def winReach (x : PartSt) (tier b : Nat) : Nat :=
  x.mwin.foldl (fun m w =>
    if !bit 63 w.2.w1 then m
    else if bit 62 w.2.w1 then 2 ^ 62
    else if fld 62 2 w.2.w0 == tier && decide (fld 0 62 w.2.w0 ≤ b ∧ b < fld 0 62 w.2.w1) then max m (fld 0 62 w.2.w1)
    else m) b

/-- Whether [a, a + n) lies in the memory part of partition p (spec/13 R372). -/
def inWindow (s : State) (p a n : Nat) : Bool :=
  let x := partOf s p
  let t := tierOf a
  let b := byteOf a
  let r := winReach x t (winReach x t (winReach x t (winReach x t b)))
  n == 0 || (decide (b + n ≤ r) && (t != 0 || decide (b + n ≤ Config.t0Bytes)))

/-! ### Parity headers -/

/-- A parity unit header (Table 3.6); seq holds the columns with CUR 1 and their COUNT. -/
structure ParHdr where
  epoch : Nat := 0
  seq : SMap Nat := []
  mode : Nat := 0
  narrow : Bool := false
  fid : Bool := false
  row : Nat := 0
  suspect : Bool := false
  repaired : Bool := false
  rebuilt : Bool := false
  late : Bool := false
  valid : Bool := false
  crc : Half := 0
  deriving DecidableEq, Repr

def parHdrBytes (h : ParHdr) : List Byte :=
  toBytes 32 (pack ([(32, h.epoch)] ++
    ((List.range 16).map fun c => (8, match SMap.find h.seq c with
      | some n => 128 + n % 128
      | none => 0)) ++
    [(2, h.row), (2, 0), (1, b2n h.fid), (1, b2n h.narrow), (2, h.mode),
     (1, b2n h.valid), (1, b2n h.late), (1, b2n h.rebuilt), (1, b2n h.repaired), (1, b2n h.suspect), (3, 0),
     (32, h.crc.toNat), (48, 0)]))

/-- The header that 32 bytes spell. With VALID 0 it stands at epoch 0 with every column state and flag 0 and the CRC of zero bytes (R75). -/
def parseParHdr (bs : List Byte) : ParHdr :=
  let x := ofBytes (bs.take 32)
  let v := bitOf 168 x
  { epoch := if v then bitsOf 0 32 x else 0
    seq := if v then (List.range 16).filterMap (fun c =>
      if bitOf (39 + 8 * c) x then some (c, bitsOf (32 + 8 * c) 7 x) else none) else []
    mode := bitsOf 166 2 x, narrow := v && bitOf 165 x, fid := v && bitOf 164 x, row := bitsOf 160 2 x
    suspect := v && bitOf 172 x, repaired := v && bitOf 171 x, rebuilt := v && bitOf 170 x, late := v && bitOf 169 x
    valid := v, crc := if v then BitVec.ofNat 32 (bitsOf 176 32 x) else zCrc }

/-- column_state of R99; none stands for None. -/
def columnState (h : ParHdr) (c e : Nat) : Option Nat :=
  if !h.valid || h.epoch < e then some 0
  else if e < h.epoch then none
  else some ((SMap.find h.seq c).getD 0)

/-- Addresses of the parity unit of a stripe and row and of its header, if this block holds it: as its own (R72), or as a hosted unit with its header behind it (R206). The tier comes from the tier field, and bits [51:50] of a base, which overlap it, are dropped (DESIGN CHOICE, log 146). -/
def parityAt (s : State) (sl st t : Nat) : Option (Nat × Nat) :=
  let g := grpOf s sl
  if !g.en || gStripes g ≤ st || g.m ≤ t then none
  else if isMember g && rowMember g st t == g.self then
    let v := parityUnitAt g g.self st
    some (g.parTier % 4 * 2 ^ 62 + g.parBase % 2 ^ 50 * 4096 + 4096 * v,
      g.hdrTier % 4 * 2 ^ 62 + g.hdrBase % 2 ^ 50 * 4096 + 32 * v)
  else match s.reb.hosted.find? fun h => h.slot == sl && h.stripe == st && h.kind == 1 && h.index == t with
    | some h => some (h.addr, h.addr + 4096)
    | none => none

def readParHdr (s : State) (ha : Nat) : ParHdr := parseParHdr (memBytes ha 32 s)

/-- The bytes of a parity unit; with VALID 0 they are zero (R75). -/
def parityImg (s : State) (h : ParHdr) (ua : Nat) : UnitImg := if h.valid then memImg ua 4096 s else []

def writeParity (ua ha : Nat) (u : UnitImg) (h : ParHdr) (s : State) : State :=
  memWrite ha (parHdrBytes h) (memWriteImg ua 4096 u s)

def writeParHdr (ha : Nat) (h : ParHdr) (s : State) : State := memWrite ha (parHdrBytes h) s

/-- Every parity unit that this block holds in a slot: stripe, row and addresses. -/
def heldParity (s : State) (sl : Nat) : List (Nat × Nat × Nat × Nat) :=
  let g := grpOf s sl
  let own := if isMember g then (List.range (gCycles g * g.m)).map (fun v => parityPlace g g.self v) else []
  let host := (s.reb.hosted.filter fun h => h.slot == sl && h.kind == 1).map fun h => (h.stripe, h.index)
  (own ++ host).filterMap fun x => (parityAt s sl x.1 x.2).map fun a => (x.1, x.2, a.1, a.2)

/-- Columns of a stripe whose contributions this block owes: its own, and those of data units it hosts (R206). -/
def ownedCols (s : State) (sl st : Nat) : List Nat :=
  let g := grpOf s sl
  let own := if isMember g then
      let d := roleNo g g.self st
      if d < g.m then [] else [d - g.m]
    else []
  own ++ (s.reb.hosted.filter fun h => h.slot == sl && h.stripe == st && h.kind == 0).map (·.index)

/-- Whether this block's own member has column c of a stripe, as against hosting it. -/
def ownCol (g : Group) (st c : Nat) : Bool := isMember g && colMember g st c == g.self

/-- Every stripe and column that this block owes in a slot, its own and those that it hosts, in the order of R88. -/
def owedUnits (s : State) (sl : Nat) : List (Nat × Nat) :=
  let g := grpOf s sl
  let own := if isMember g then (List.range (gCycles g * g.k)).map (dataPlace g g.self) else []
  let more := (s.reb.hosted.filter fun h => h.slot == sl && h.kind == 0).map fun h => (h.stripe, h.index)
  if more.isEmpty then own else sortBy (fun a b => decide (a.1 ≤ b.1)) (own ++ more)

/-- Key of an outbox entry. -/
def outKey (sl st t c : Nat) : Nat := ((sl * 2 ^ 40 + st) * 4 + t) * 16 + c

/-- Key of a data unit of a slot by its stripe and column. -/
def unitKey (sl st c : Nat) : Nat := (sl * 2 ^ 40 + st) * 16 + c

/-- The data unit of a column that this block hosts (R206). -/
def hostedCol (s : State) (sl st c : Nat) : Option Hosted :=
  s.reb.hosted.find? fun h => h.slot == sl && h.stripe == st && h.kind == 0 && h.index == c

/-- Region, and unit in it, of the data unit of a failed position in a stripe. -/
def failedLoc (s : State) (sl pos st : Nat) : Option (Nat × Region × Nat) :=
  let g := grpOf s sl
  locUnit (tableRegions (memberTable (posRank s g pos)) sl) (dataUnitAt g pos st)

/-- The run that rebuilds position f of a slot, until the commit or the re-run wave closes it. -/
def openRunAt (s : State) (sl f : Nat) : Option Rebuild := s.reb.runs.find? fun r => !r.closed && r.slots.contains (sl, f)

/-- The survivor that hosts a unit of position f after a spread rebuild, as a position: in a SEAL slot by the unit's number in its region (R206; DEDUCED, log 45). All G − 1 other positions count, and what falls to one that is not live goes to the home (DESIGN CHOICE, log 193). -/
def hostPos (s : State) (r : Rebuild) (sl f st tkind : Nat) : Nat :=
  let g := grpOf s sl
  let sv := (List.range (gSize g)).filter (· != f)
  let home := ((r.homes.find? fun x => x.1 == sl).map (·.2)).getD 0
  let nth (n : Nat) : Nat := let j := sv.getD (n % (gSize g - 1)) 0; if posLive g j then j else home
  if tkind = 1 then nth (parityUnitAt g f st)
  else if g.mode = 2 then ((failedLoc s sl f st).map fun x => nth x.2.2).getD home
  else home

/-- Whether position j holds the parity unit (1) or a data unit (0) of a stripe. -/
def unitKind (g : Group) (j st : Nat) : Nat := if roleNo g j st < g.m then 1 else 0

/-- The position of the block that keeps the unit of position j in a stripe: after a spread rebuild its host (R206). -/
def keeperPos (s : State) (sl st j : Nat) : Nat :=
  match s.reb.runs.find? fun r => r.spread && r.slots.contains (sl, j) with
  | some r => hostPos s r sl j st (unitKind (grpOf s sl) j st)
  | none => j

/-- The position that physically holds the unit of position j in a stripe, if any is live (R194). -/
def holderPos (s : State) (sl st j : Nat) : Option Nat :=
  let h := keeperPos s sl st j
  if (openRunAt s sl j).isNone && posLive (grpOf s sl) h then some h else none

/-- Region, and unit in it, of a column that this block owes: its own, or one that it hosts. -/
def colLoc (s : State) (sl st c : Nat) : Option (Nat × Region × Nat) :=
  let g := grpOf s sl
  if ownCol g st c then unitLoc s sl (dataUnitAt g g.self st)
  else (hostedCol s sl st c).bind fun h => failedLoc s sl h.pos st

/-- The stored image behind a column that this block owes, its width, and whether the image is narrow; a hosted unit is kept as its image (R206; DEDUCED, log 148). -/
def colContent (s : State) (sl st c : Nat) : UnitImg × Nat × Bool :=
  let r := colLoc s sl st c
  let u := if ownCol (grpOf s sl) st c then (r.map fun x => contentOf s x.2.1 x.2.2).getD []
    else if r.isNone then []
    else ((hostedCol s sl st c).map fun h => memImg h.addr 4096 s).getD []
  (u, (r.map fun x => unitWidth x.2.1).getD 0, r.any fun x => x.2.1.cls == 2 || x.2.1.cls == 3)

/-- The WIDTH of a column that this block owes (R85), as in colContent. -/
def colWidth (s : State) (sl st c : Nat) : Nat := ((colLoc s sl st c).map fun x => unitWidth x.2.1).getD 0

/-! ### Copy-on-write of an export (R397, R400) -/

def clearPend (s : State) : State :=
  { s with reg := { s.reg with
      table := s.reg.table.map fun x => (x.1, { x.2 with exportPend := false }) } }

/-- A region as it stood at the cut of the export, else as it stands (R395, R402). -/
def cutRegion (s : State) (i : Nat) : Region := (SMap.find s.exp.regs i).getD (regionOf s i)

/-- Numbers of the pages that were sealed at the cut and are not drained (R396). -/
def cutPages (s : State) : List Nat :=
  s.exp.sealedAt.filterMap fun x => ((experienceRegions s).find? fun y => y.1 == x.1).map fun y => pageAt s x.1 y.2 x.2

/-- Failing an export that is ARMED or DRAINING, once (R410): what it wrote of its area becomes undefined (R400; what it did not reach stays, DESIGN CHOICE, log 8). -/
def exportFail (cause : Nat) (s : State) : State :=
  if s.exp.state ≠ 1 ∧ s.exp.state ≠ 2 then s else
  let s := s.exp.wrote.foldl (fun s x => forget x.1 x.2 s) (clearPend s)
  raiseGlobal vExport { s with exp := { s.exp with
    state := 4, cause := cause, taken := [], store := [], buf := [], out := [], shards := [], sealedAt := [], wrote := [], await := false } }

/-- An armed or draining export fails (Table 14.5). -/
def exportStop (cause : Nat) (draining : Bool) (s : State) : State :=
  if s.exp.state = 1 ∨ (draining ∧ s.exp.state = 2) then exportFail cause s else s

/-- Copies the stored bytes of one unit of an export-pending region before its first change (R397). -/
def preserveUnit (i : Nat) (r : Region) (j : Nat) (s : State) : State :=
  if s.exp.state != 2 || !(regionOf s i).exportPend || s.exp.taken.contains (i, j) then s
  else
    let cap := s.exp.copyMib * 256
    match firstBelow cap fun k => (SMap.find s.exp.store k).isNone with
    | none => exportFail 2 s
    | some k =>
      let u := memImg (regionAddr r + 4096 * j) 4096 s
      let s := memWriteImg (logBase s.exp.copyBase + 4096 * k) 4096 u s
      let e := s.exp
      let st := SMap.put e.store k (i, j, 0)
      { s with exp := { e with
          taken := (i, j) :: e.taken, store := st, copies := min (e.copies + 1) 0xFFFFFFFF
          peak := max e.peak (cdiv st.length 256) } }

/-- Preserves every not yet taken unit that a write of [a, a + n) would change. -/
def preserve (a n : Nat) (s : State) : State :=
  if s.exp.state != 2 || n = 0 then s
  else (s.reg.table.filter fun x => x.2.valid && x.2.exportPend).foldl (fun t x =>
    let b := regionAddr x.2
    let e := b + 4096 * x.2.units
    if a < e && b < a + n then
      let lo := (max a b - b) / 4096
      let hi := (min (a + n) e - b + 4095) / 4096
      (List.range (hi - lo)).foldl (fun t k => preserveUnit x.1 x.2 (lo + k) t) t
    else t) s

end Sys2Proof.Machine
end

