-- ==== Sys2Proof/Machine/Send.lean ====
section
/-! DEFINITION. Forming and routing frames: next port (spec/08 R229), reroutes (R230), virtual channels (R228), holds at the first hop (R231), tag generations (R236), floods (R238). -/

namespace Sys2Proof.Machine

/-- What a block gives to a frame that it forms. -/
structure SendReq where
  tag : Nat
  part : Nat
  typ : Nat
  rank : Nat
  body : Payload
  ebound : Bool := false
  accum : Bool := false
  epoch : Nat
  route : Nat := 0
  raxis : Nat := 0
  rdir : Nat := 0
  daxis : Nat := 0
  ddir : Nat := 0
  deriving DecidableEq, Repr

/-- Whether a port carries a frame: data in UP; control also in HOLD and LOWRATE (Table 8.11, R232). -/
def portServes (s : State) (typ p : Nat) : Bool :=
  match (portOf s p).state with
  | .up => true
  | .hold => typ == 7 || typ == 8 || typ == 14
  | .lowrate => typ == 7 || typ == 8 || typ == 14
  | _ => false

/-- Minimal port on an axis that still differs; a tie goes positive (R229). -/
def minimalOn (s : State) (c : Nat) (a : Nat) : Option Nat :=
  let d := torusDim s a
  let x := coordAt s.fab.coord a
  let y := coordAt c a
  if x = y then none
  else
    let up := (y + d - x % d) % d
    some (if up ≤ d - up then 2 * a else 2 * a + 1)

/-- next_port of R229, with the header as the router leaves it. -/
def plainPort (s : State) (h : FrameHdr) : Option (Nat × FrameHdr) :=
  if h.route = 2 then some (2 * h.daxis + h.ddir, { h with route := 1 })
  else if h.route = 1 ∧ coordAt s.fab.coord h.raxis ≠ coordAt h.destCoord h.raxis then
    some (2 * h.raxis + h.rdir, h)
  else ((List.range 4).findSome? (minimalOn s h.destCoord)).map fun p => (p, h)

/-- Whether a DIRECTED frame has still to go along RAXIS. -/
def unaligned (s : State) (h : FrameHdr) : Bool :=
  h.route == 1 && coordAt s.fab.coord h.raxis != coordAt h.destCoord h.raxis

/-- Whether a frame is on a detour: its first hop left DAXIS other than RAXIS (R230; DEDUCED, log 71). -/
def onDetour (h : FrameHdr) : Bool := h.route == 1 && h.daxis != h.raxis

/-- Whether a frame has taken a detour hop: it is on a detour, or DDIR marks one that is over (R228; DEDUCED, log 71). -/
def detoured (h : FrameHdr) : Bool := h.daxis != h.raxis || h.ddir == 1

/-- The next port of a frame that came in on a port: R229, and after the second hop of a detour, taken on RAXIS, the third back on DAXIS, with which the detour is over (R230; DEDUCED, log 71). -/
def nextPort (s : State) (inPort : Option Nat) (h : FrameHdr) : Option (Nat × FrameHdr) :=
  if onDetour h && inPort.any (fun q => q / 2 == h.raxis) then
    some (2 * h.daxis + (1 - h.ddir), { h with daxis := h.raxis, ddir := 1 })
  else plainPort s h

/-- The alternatives of R230, in order; a frame off its RAXIS takes the detour alone, be the blocked hop the first or the third of one (DEDUCED, log 71). -/
def alternatives (s : State) (h : FrameHdr) (p : Nat) : List (Nat × FrameHdr) :=
  let a := p / 2
  let minimal := !unaligned s h
  let one := if minimal && decide (2 < torusDim s a) then
      [(if p % 2 = 0 then p + 1 else p - 1, { h with route := 1, raxis := a, rdir := 1 - p % 2, daxis := a, ddir := b2n (detoured h) })]
    else []
  let two := if minimal then
      ((List.range 4).filter (· != a)).filterMap fun b => (minimalOn s h.destCoord b).map fun q => (q, h)
    else []
  let three := match (List.range 4).find? fun b => b != a && decide (1 < torusDim s b) with
    | none => []
    | some b =>
      let h' := { h with route := 1, raxis := a, rdir := p % 2, daxis := b }
      [(2 * b, { h' with ddir := 0 }), (2 * b + 1, { h' with ddir := 1 })]
  one ++ two ++ three

/-- Whether a hop through port p crosses the wrap link of its axis (R228). -/
def crossesWrap (s : State) (p : Nat) : Bool :=
  let x := coordAt s.fab.coord (p / 2)
  if p % 2 = 0 then x + 1 == torusDim s (p / 2) else x == 0

/-- Virtual channel of the hop through port p, for a frame that came in on a port, if any (R228). -/
def hopVc (s : State) (h : FrameHdr) (b : Payload) (inPort : Option Nat) (p : Nat) : Nat :=
  let lo := lowerVc h.typ b
  let stays := match inPort with
    | some q => q / 2 == p / 2
    | none => false
  if lo = 0 then 0
  else if detoured h || crossesWrap s p || (stays && h.vc == lo + 1) then lo + 1 else lo

/-! ### The transmitter of a port (R235, R244, R246) -/

/-- The link word of a flit (R244). -/
def linkWord (x : OutFlit) : Nat :=
  pack [(3, x.kind), (1, b2n x.eof), (1, b2n x.sof), (3, x.vc), (12, x.ack), (12, x.lseq)]

/-- The flits of a frame: 60 bytes of frame data each, starting on a flit boundary (R244). -/
def frameFlits (f : Frame) : List OutFlit :=
  let n := cdiv (frameLen f) 60
  (List.range n).map fun i => { vc := f.hdr.vc, sof := i == 0, eof := i + 1 == n, frame := some f, index := i }

/-- The frame data of a flit. -/
def flitData (x : OutFlit) : List Byte :=
  match x.frame with
  | some f => ((frameBytes f).drop (60 * x.index)).take 60
  | none => []

/-- The 64 bytes of a flit: its link word and 60 bytes of frame data, zero behind the end of the frame (R244). -/
def flitBytes (x : OutFlit) : List Byte :=
  let d := flitData x
  toBytes 4 (linkWord x) ++ d ++ List.replicate (60 - d.length) 0

/-- Puts flits on the link: each takes the next LSEQ, acknowledges what has been taken, and stays in the replay buffer (R244, R246). -/
def putFlits (p : Nat) (fs : List OutFlit) (s : State) : State :=
  let x := portOf s p
  let fs := fs.zipIdx.map fun y => { y.1 with lseq := (x.txNext + y.2) % 4096, ack := x.rxNext }
  let s := modPort p (fun x => { x with txNext := (x.txNext + fs.length) % 4096, buf := x.buf ++ fs }) s
  { s with fab := { s.fab with line := (fs.map fun y => (p, y)).reverse ++ s.fab.line } }

/-- Flits that may stand without an acknowledgement, so that a receiver can tell an old LSEQ from a later one; they fit the 512 KiB of R246 (DEDUCED, log 161). -/
def flitWindow : Nat := 2047

/-- Of these, the ones that only control frames may take, so that they never wait for data (Table 8.5, spec/02 R48; DESIGN CHOICE, log 161). -/
def controlFlits : Nat := 256

/-- Whether the link has room for a frame: data stops short of what is kept for control (R227, R48). -/
def linkRoom (x : PortSt) (f : Frame) : Bool :=
  decide (x.buf.length + cdiv (frameLen f) 60 ≤ if f.hdr.vc = 0 then flitWindow else flitWindow - controlFlits)

/-- Weight of a queue (Table 8.15). -/
def queueWeight (x : PortSt) (q : Nat) : Nat :=
  if q < 8 then fld (8 * q) 8 x.share0.now else if q < 16 then fld (8 * (q - 8)) 8 x.share1.now else fld 0 8 x.share2.now

def isResponse (f : Frame) : Bool := f.hdr.vc == 3 || f.hdr.vc == 4
def isRequest (f : Frame) : Bool := f.hdr.vc == 1 || f.hdr.vc == 2

/-- The queue that the slot in force gives the transmitter of port p (spec/12 Table 12.3). -/
def slotQueue (s : State) (p : Nat) : Option Nat := (slotByte s (16 + p)).map fun b => if bitOf 6 b then 16 else bitsOf 0 4 b

/-- The share to which a frame is charged beside the queues: 4 rebuild chains with their STATE and PLAN frames (spec/07 R471), 5 audit trains (R235 step 1). -/
def shareOf (f : Frame) : Option Nat :=
  match f.body with
  | .chain _ => some f.hdr.typ
  | .notice n => if n.typ = 3 then some 4 else none
  | _ => none

/-- SHARE_PCT of a share: that of TKJ_REBUILD_CTL or of TKJ_AUDIT_CTL. -/
def sharePct (s : State) (k : Nat) : Nat := if k = 4 then fld 51 7 s.reb.ctl.now else fld 0 7 s.aud.ctl.now

/-- Whether a share is not used up: the part that its frames had of the bytes sent while one of them waits (R235; DESIGN CHOICE, log 161). -/
def shareLeft (s : State) (x : PortSt) (k : Nat) : Bool :=
  let y := SMap.look (0, 0) x.spent k
  decide (100 * y.1 ≤ sharePct s k * y.2)

/-- The waiting frames that may go next: control first (Table 8.5), no request while a response is ready (Table 8.5), then chains and audit trains within their share, which is their cap as well (R235 step 1), and a queue of weight 0 only where no other has a frame (R235). -/
def contenders (s : State) (x : PortSt) : List Ready :=
  let control := x.ready.filter fun y => y.frame.hdr.vc == 0
  let rest := if x.ready.any fun y => isResponse y.frame then x.ready.filter fun y => !isRequest y.frame else x.ready
  let shared := rest.filter fun y => (shareOf y.frame).any (shareLeft s x)
  let plain := rest.filter fun y => (shareOf y.frame).isNone
  let weighed := plain.filter fun y => decide (0 < queueWeight x y.queue)
  if !control.isEmpty then control.take 1
  else if !shared.isEmpty then shared.take 1
  else if plain.isEmpty then rest.take 1
  else if weighed.isEmpty then plain.take 1 else weighed

/-- Charges a frame that leaves to the shares that have a frame waiting. -/
def chargeShares (y : Ready) (x : PortSt) : PortSt :=
  { x with spent := ([4, 5].filter fun k => x.ready.any fun z => shareOf z.frame == some k).foldl (fun m k =>
      let o := SMap.look (0, 0) x.spent k
      let n := frameLen y.frame
      SMap.put m k (o.1 + (if shareOf y.frame = some k then n else 0), o.2 + n)) [] }

/-- Deficit round robin over the queues of the contenders: a visit grants 64 bytes for each unit of weight (R235). -/
def roundRobin (cs : List Ready) : Nat → PortSt → PortSt × Option Ready
  | 0, x => (x, cs.head?)
  | n + 1, x =>
    let have' := SMap.look 0 x.credit x.turn
    match cs.find? fun y => y.queue == x.turn with
    | some y =>
      if frameLen y.frame ≤ have' then ({ x with credit := SMap.put x.credit x.turn (have' - frameLen y.frame) }, some y)
      else
        let t := (x.turn + 1) % 17
        roundRobin cs n { x with turn := t, credit := SMap.put x.credit t (SMap.look 0 x.credit t + 64 * queueWeight x t) }
    | none =>
      let t := (x.turn + 1) % 17
      roundRobin cs n { x with turn := t, credit := SMap.put (SMap.put x.credit x.turn 0) t (SMap.look 0 x.credit t + 64 * queueWeight x t) }

/-- The frame that the transmitter takes next (R235). -/
def nextReady (s : State) (x : PortSt) : PortSt × Option Ready :=
  match contenders s x with
  | [] => (x, none)
  | [y] => (x, some y)
  | cs => roundRobin cs 1200 x

/-- The frame that port p takes next: in chervil mode a control frame, a rebuild chain within its share from a verdict to the commit after the restoration, or at the start of a slot one of the queue that it names (spec/12 R351, R352). -/
def nextFrame (p : Nat) (slot : Bool) (s : State) : PortSt × Option Ready :=
  let x := portOf s p
  if !s.mode.chervil then nextReady s x
  else (x, ((x.ready.find? fun y => y.frame.hdr.vc == 0).or
    (if s.reb.runs.isEmpty then none else x.ready.find? fun y => shareOf y.frame == some 4 && shareLeft s x 4)).or
    (if slot then x.ready.find? fun y => slotQueue s p == some y.queue else none))

/-- Charges a frame of the request, response and bulk classes to the partition whose queue it left, in bytes (R235, spec/13 R379; DEDUCED, log 26). -/
def chargePort (y : Ready) (x : PortSt) : PortSt :=
  if 16 ≤ y.queue || y.frame.hdr.vc == 0 then x
  else { x with sent := SMap.put x.sent y.queue (SMap.look 0 x.sent y.queue + frameLen y.frame) }

/-- Frames leave a port while the link has room for their flits (R235, R246). -/
def pumpPort (p : Nat) (slot : Bool) : Nat → State → State
  | 0, s => s
  | n + 1, s =>
    let (x, y) := nextFrame p slot s
    match y with
    | none => s
    | some y =>
      if linkRoom x y.frame && portServes s y.frame.hdr.typ p then
        pumpPort p slot n (putFlits p (frameFlits y.frame) (modPort p (fun _ => { chargePort y (chargeShares y x) with ready := x.ready.erase y }) s))
      else s

def pumpReady (p : Nat) (s : State) : State := pumpPort p false (portOf s p).ready.length s

/-- Puts a frame on a port: VC, HOPS, LEN and HCRC are rewritten (R223), HOPS with the link that the frame now takes, so that the first shows 1 (DEDUCED, log 134), and it joins its queue: FWD for a frame of another block, be it packed in a gateway's, else that of the partition it is charged to (R235, R241). -/
def transmit (inPort : Option Nat) (p : Nat) (f : Frame) (s : State) : State :=
  if replaying s && inPort.isNone && f.hdr.tag != 0 then { s with rcd := { s.rcd with stat := bump 0 16 s.rcd.stat } } else
  let h := sealHdr { f.hdr with vc := hopVc s f.hdr f.body inPort p, hops := f.hdr.hops + 1, len := payloadLen f.body }
  let s := modPort p (fun x => { x with ready := x.ready ++ [⟨if inPort.isSome || h.typ == 13 then 16 else h.part, ⟨h, f.body⟩⟩] }) s
  pumpReady p { s with fab := { s.fab with tx := (p, ⟨h, f.body⟩) :: s.fab.tx } }

/-- Counts a reroute (R230). -/
def countReroute (s : State) : State := { s with fab := { s.fab with stat := bump 32 16 s.fab.stat } }

/-- Sends by the chosen port, else by the first alternative in service; false when none is (R230). -/
def route (inPort : Option Nat) (p : Nat) (f : Frame) (s : State) : State × Bool :=
  if portServes s f.hdr.typ p then (transmit inPort p f s, true)
  else match (alternatives s f.hdr p).find? fun x => portServes s f.hdr.typ x.1 with
    | some x => (countReroute (transmit inPort x.1 ⟨x.2, f.body⟩ s), true)
    | none => (s, false)

/-- Whether a port is in bring-up, where a frame that this block forms is held (R231). -/
def portBringing (s : State) (p : Nat) : Bool :=
  match (portOf s p).state with
  | .seek => true
  | .lock => true
  | .align => true
  | .train => true
  | _ => false

/-- GEN of a partition of a rank, from the peer generation table (R236). -/
def genOf (s : State) (rank part : Nat) : Nat :=
  if rank = servedRank s ∨ rank = selfRank s then (partOf s part).gen
  else (SMap.look [] s.fab.peerGen rank).getD part 0

/-- The frame that a request forms for a coordinate. -/
def formFrame (s : State) (x : SendReq) (c : Nat) : Frame :=
  let h : FrameHdr := { destCoord := c, destRank := x.rank, srcRank := servedRank s, tag := x.tag
                        gen := if x.typ = 7 ∨ x.tag = 0 then 0 else genOf s x.rank x.part
                        part := x.part, typ := x.typ, vc := lowerVc x.typ x.body, route := x.route, raxis := x.raxis
                        rdir := x.rdir, daxis := x.daxis, ddir := x.ddir, accum := x.accum, ebound := x.ebound
                        hops := 0, len := payloadLen x.body, epoch := x.epoch, hcrc := 0 }
  ⟨sealHdr h, x.body⟩

/-- Sends a formed frame on its first hop: to this block itself, on a port, or into the hold of R231. The status is PORT_NOT_READY where nothing is in service. -/
def sendFormed (f : Frame) (s : State) : State × Nat :=
  match nextPort s none f.hdr with
  | none => ({ s with fab := { s.fab with loop := s.fab.loop ++ [f] } }, stOk)
  | some (p, h) =>
    if portBringing s p then ({ s with fab := { s.fab with held := s.fab.held ++ [(p, ⟨h, f.body⟩)] } }, stOk)
    else
      let (s', ok) := route none p ⟨h, f.body⟩ s
      (s', if ok then stOk else stPortNotReady)

/-- Sends a frame to a rank; RANK_UNMAPPED where translation gives none (R218). -/
def sendFrame (x : SendReq) (s : State) : State × Nat :=
  match translate s x.rank with
  | none => (s, stUnmapped)
  | some c => sendFormed (formFrame s x c) s

/-- The partition to which a job's own traffic is charged and addressed: its step partition (R235; DEDUCED, log 34). -/
def stepPartNo (s : State) : Nat :=
  match s.job.stepPart with
  | some p => p.val
  | none => 0

/-- Sends a frame of coding traffic, for which no command waits. -/
def sendCode (typ rank epoch : Nat) (body : Payload) (s : State) : State :=
  (sendFrame { tag := s.job.tag, part := stepPartNo s, typ := typ, rank := rank, body := body, ebound := true, epoch := epoch } s).1

/-- Whether a KIND concerns an epoch: all but REPORT, CLOSURE, PROBE, PROBE_ANSWER, QUIET and ADMIT (Table 8.4; DEDUCED, log 195). -/
def kindOfEpoch (kind : Nat) : Bool := !([0, 1, 3, 4, 15, 20].contains kind)

/-- A tarragon message of this block for the open epoch; ATTEMPT is 0 where the KIND concerns none (Table 8.4). -/
def tarraOf (s : State) (kind rank inc epoch : Nat) : Tarra :=
  { kind := kind, rank := rank, inc := inc, epoch := epoch, cause := 0, count := 0, origin := servedRank s, data := 0
    attempt := if kindOfEpoch kind then s.ep.attempt else 0, crc := 0 }

/-- Sends a tarragon message to a rank by a MINIMAL route (R238). -/
def sendTarra (rank : Nat) (t : Tarra) (s : State) : State :=
  (sendFrame { tag := s.job.tag, part := 0, typ := 7, rank := rank, body := .tarra (sealTarra t) none, epoch := s.ep.epoch } s).1

/-- Sends an ADMIT record to a rank (R375). -/
def sendAdmit (rank : Nat) (t : Tarra) (r : AdmitRec) (s : State) : State :=
  (sendFrame { tag := s.job.tag, part := 0, typ := 7, rank := rank, body := .tarra (sealTarra t) (some r), epoch := s.ep.epoch } s).1

/-- Coordinate of the neighbour at a port (R214). -/
def neighbour (s : State) (p : Nat) : Nat :=
  let a := p / 2
  stepCoord s s.fab.coord a (if p % 2 = 0 then 1 else torusDim s a - 1)

/-- Ports with a neighbour, an axis length of 2 or more (R214). -/
def wiredPorts (s : State) : List Nat := (List.range 8).filter fun p => decide (1 < torusDim s (p / 2))

/-- Key by which later copies of a wave are dropped (R238). -/
def floodKey (t : Tarra) : Nat × Nat × Nat × Nat × Nat := (t.kind, t.epoch, t.attempt, t.origin, t.rank)

/-- Sends a wave on every port in service except the port of arrival (R238); each copy has a header of this block, with SRC_RANK its own and HOPS from 1 (DESIGN CHOICE, log 185). -/
def floodOut (tag : Nat) (t : Tarra) (inPort : Option Nat) (s : State) : State :=
  ((wiredPorts s).filter fun p => some p != inPort && portServes s 7 p).foldl (fun u p =>
    let c := neighbour u p
    let x : SendReq := { tag := tag, part := 0, typ := 7, rank := rankOf u c, body := .tarra t none, epoch := u.ep.epoch }
    transmit inPort p (formFrame u x c) u) s

/-- Issues a wave: floods it, notes its key, and delivers it to this block as well. -/
def issueWave (t : Tarra) (s : State) : State :=
  let t := sealTarra t
  let s := floodOut s.job.tag t none s
  let x : SendReq := { tag := s.job.tag, part := 0, typ := 7, rank := servedRank s, body := .tarra t none, epoch := s.ep.epoch }
  { s with fab := { s.fab with
      floods := floodKey t :: s.fab.floods, loop := s.fab.loop ++ [formFrame s x s.fab.coord] } }

end Sys2Proof.Machine
end

