-- ==== Sys2Proof/Machine/Coding.lean ====
section
/-! DEFINITION. Delta coding in flight: the outbox (spec/04 R100, R107), sweeps (R88 to R91), trains (R94 to R97), idempotent apply (R99), notices, queries and repeats (R101 to R104), the coded-store path (R109, R110) and the abort of an epoch (R111). -/

namespace Sys2Proof.Machine

/-! ### Outbox entries -/

/-- The outbox entry of a parity unit and column for an epoch; a new one when none of that epoch stands. -/
def outFor (s : State) (e sl st t c : Nat) : Out :=
  match SMap.find s.cod.out (outKey sl st t c) with
  | some o => if o.epoch = e ∨ o.ready.isSome ∨ o.flight.isSome then o
    else { slot := sl, stripe := st, row := t, col := c, unit := o.unit, epoch := e, pend := o.pend }
  | none => { slot := sl, stripe := st, row := t, col := c, unit := unitKey sl st c, epoch := e }

def putOut (o : Out) (s : State) : State :=
  { s with cod := { s.cod with out := SMap.put s.cod.out (outKey o.slot o.stripe o.row o.col) o } }

/-- Whether the update-sweep or guard contribution of a column stands formed in the open epoch. -/
def sweepFormed (s : State) (sl st c : Nat) : Bool :=
  match SMap.find s.cod.out (outKey sl st 0 c) with
  | some o => o.epoch == s.ep.epoch && o.sweep
  | none => false

/-- Whether the guard contribution of a column stands formed in the open epoch (R109). -/
def guardFormed (s : State) (sl st c : Nat) : Bool :=
  match SMap.find s.cod.out (outKey sl st 0 c) with
  | some o => o.epoch == s.ep.epoch && o.guarded
  | none => false

def inflightLen : Option InFlight → Nat
  | some f => match f.payload with
    | some u => squeezedLen (squeeze f.width u)
    | none => 0
  | none => 0

def isScalarCol (s : State) (sl st c : Nat) : Bool := (colLoc s sl st c).any fun x => x.2.1.cls == 5

/-- Whether contributions of a column have a payload in the outbox: those of DELTA slots and of SCALAR units (R107). -/
def hasPayload (s : State) (sl st c : Nat) : Bool := (grpOf s sl).mode == 0 || isScalarCol s sl st c

/-- Bytes of a column's raw delta in squeezed form, at the WIDTH of its unit (R84, R85). -/
def rawLen (s : State) (sl st c : Nat) (u : UnitImg) : Nat := squeezedLen (squeeze (colWidth s sl st c) u)

/-- Payload bytes that an entry keeps (R107). -/
def outPayload (s : State) (o : Out) : Nat :=
  if hasPayload s o.slot o.stripe o.col then
    inflightLen o.ready + inflightLen o.flight + (match o.pend with
      | some u => rawLen s o.slot o.stripe o.col u
      | none => 0)
  else 0

/-- Space that an entry takes: the record and the raw delta are shared by the rows of a unit (R87, R107; DEDUCED, log 35). -/
def outSpace (s : State) (o : Out) : Nat :=
  let lower := (List.range o.row).any fun t => match SMap.find s.cod.out (outKey o.slot o.stripe t o.col) with
    | some p => outPayload s p != 0
    | none => false
  (if o.row = 0 then 64 else 0) + (if lower then 0 else outPayload s o)

/-- Bytes of the outbox in use (Table 4.12). -/
def outboxLevel (s : State) : Nat :=
  (s.cod.out.map fun x => outSpace s x.2).foldl (· + ·) 0 +
    (s.cod.deltas.map fun x => 64 + rawLen s (x.1 / 16 / 2 ^ 40) (x.1 / 16 % 2 ^ 40) (x.1 % 16) x.2).foldl (· + ·) 0 + 4096 * s.cod.shadow.length

def outboxRoom (s : State) : Bool := decide (outboxLevel s + 4184 ≤ fld 0 20 s.cod.outboxSize * 1048576)

/-- Follows the level with its highest value of the open epoch (Table 4.12). -/
def notePeak (s : State) : State :=
  { s with cod := { s.cod with peakNow := max s.cod.peakNow (cdiv (outboxLevel s) 1048576) } }

/-! ### Sending contributions -/

/-- The raw unit behind a contribution that was sent: the payload kept, or the source read again (R107). -/
def rawOf (s : State) (o : Out) (f : InFlight) : UnitImg :=
  match f.payload with
  | some u => u
  | none => (colContent s o.slot o.stripe o.col).1

/-- The header and coded unit of one column's contribution (Table 4.3, R82). -/
def contribOf (s : State) (o : Out) (f : InFlight) (kind bypass : Nat) : Contrib :=
  { epoch := o.epoch, stripe := o.stripe, slot := Fin.ofNat 16 o.slot, row := Fin.ofNat 4 o.row, kind := kind
    mask := 2 ^ o.col, bypass := bypass, seq := [(o.col, f.seq)], origin := servedRank s, narrow := f.narrow
    guard := f.guard, attempt := f.attempt
    unit := squeeze f.width (scaleU (coef o.row o.col) (rawOf s o f)) }

/-- Rank that holds row t of a stripe (R70), of a unit that a spread rebuild moved its host's (spec/07 R206). -/
def holderRank (s : State) (sl st t : Nat) : Nat :=
  let g := grpOf s sl
  posRank s g (keeperPos s sl st (rowMember g st t))

/-- Rank of the member with column c of a stripe (R70), or of the host of its unit (spec/07 R206). -/
def columnRank (s : State) (sl st c : Nat) : Nat :=
  let g := grpOf s sl
  posRank s g (keeperPos s sl st (colMember g st c))

/-- Whether the holder of an outbox entry is live, and no rebuild has its unit yet to bring back. -/
def holderLive (s : State) (o : Out) : Bool := (holderPos s o.slot o.stripe (rowMember (grpOf s o.slot) o.stripe o.row)).isSome

/-- Sends one column's contribution straight to its holder (KIND 1 DIRECT or 2 REPEAT); to a failed one it stays in the outbox (spec/07 R193). -/
def sendDirect (kind : Nat) (o : Out) (f : InFlight) (s : State) : State :=
  if !holderLive s o then s else sendCode 2 (holderRank s o.slot o.stripe o.row) o.epoch (.contrib (contribOf s o f kind 0)) s

/-- Direction of the train of row t: 0 positive, 1 negative (R94). -/
def trainDir (g : Group) (t : Nat) : Nat := if 2 * t ≤ g.m - 1 then 0 else 1

/-- Data columns in the order in which the train of row t meets them (R94). -/
def routeCols (g : Group) (t : Nat) : List Nat :=
  if trainDir g t = 0 then List.range g.k else (List.range g.k).reverse

def colsBefore (g : Group) (t c : Nat) : List Nat := (routeCols g t).takeWhile (· != c)
def maskOfCols (cs : List Nat) : Nat := (cs.map (2 ^ ·)).foldl (· ||| ·) 0

/-- Starts a train with one contribution, with BYPASS for the columns that it leaves behind. -/
def startTrain (bypass : Nat) (o : Out) (f : InFlight) (s : State) : State :=
  let g := grpOf s o.slot
  (sendFrame { tag := s.job.tag, part := stepPartNo s, typ := 1, rank := holderRank s o.slot o.stripe o.row
               body := .contrib (contribOf s o f 0 bypass), ebound := true, accum := true, epoch := o.epoch
               route := 1, raxis := g.axis, rdir := trainDir g o.row, daxis := g.axis } s).1

def countTrain (lo : Nat) (s : State) : State :=
  { s with cod := { s.cod with trainStat := bump lo 16 s.cod.trainStat } }

/-- A train takes a ready contribution (R87, R96). -/
def takeTerm (s : State) (o : Out) (f : InFlight) (x : Contrib) : Contrib :=
  { x with mask := x.mask ||| 2 ^ o.col, seq := SMap.put x.seq o.col f.seq, narrow := x.narrow || f.narrow
           unit := addSqueezed x.unit (scaleU (coef o.row o.col) (rawOf s o f)) }

/-- The entry after its ready contribution left in a train. -/
def departed (o : Out) : Out := { o with ready := none, flight := o.ready }

/-- Forwards a frame from this block; with no port in service it is dropped and counted (R231). -/
def forward (inPort : Option Nat) (f : Frame) (s : State) : State :=
  match nextPort s inPort f.hdr with
  | none => { s with fab := { s.fab with loop := s.fab.loop ++ [f] } }
  | some (p, h) =>
    let (s', ok) := route inPort p ⟨h, f.body⟩ s
    if ok then s' else { s' with fab := { s'.fab with stat := bump 48 16 s'.fab.stat } }

/-- A train frame whose payload has changed leaves this block. -/
def departTrain (x : Stored) (c : Contrib) (s : State) : State :=
  forward (some x.port) ⟨x.frame.hdr, .contrib c⟩ s

/-- Whether a stored train is the one of a stripe and row of the open epoch and attempt. -/
def trainIs (s : State) (sl st t : Nat) (x : Stored) : Bool :=
  match x.frame.body with
  | .contrib c => x.frame.hdr.typ == 1 && c.slot.val == sl && c.stripe == st && c.row.val == t &&
      c.epoch == s.ep.epoch && c.attempt == s.ep.attempt
  | _ => false

/-- Whether a column's delta waits for an earlier landing wave of its instruction (R200). -/
def waveHeld (s : State) (sl st c : Nat) : Bool :=
  s.cod.waves.any fun w => w.held && w.slot == sl && w.stripe == st && w.col == c

/-- Columns that this block owes to a train and has neither sent nor been bypassed in, and whose contribution is still to be formed (R96). -/
def stillOwed (s : State) (sl st t : Nat) (c : Nat) : Bool :=
  let o := outFor s s.ep.epoch sl st t c
  let g := grpOf s sl
  let due := match g.mode with
    | 0 => !s.ep.skip && (!s.ep.updEnded || waveHeld s sl st c)
    | 1 => !s.ep.skip && !s.ep.guardWave
    | _ => false
  due && !o.sweep && !o.bypassed && o.ready.isNone && o.flight.isNone

/-- One column of this block meets a train: its ready contribution is taken. -/
def meetColumn (sl st t : Nat) (a : State × Contrib) (c : Nat) : State × Contrib :=
  let o := outFor a.1 a.1.ep.epoch sl st t c
  match o.ready with
  | some f => if o.bypassed || a.2.mask.testBit c then a else (putOut (departed o) a.1, takeTerm a.1 o f a.2)
  | none => a

/-- A train at this block: the payload after every ready term is added, and whether it must wait for a term (R96, R233). -/
def meetTrain (x : Contrib) (s : State) : State × Contrib × Bool :=
  if x.epoch != s.ep.epoch || x.attempt != s.ep.attempt || !(grpOf s x.slot.val).en then (s, x, false)
  else
    let cols := ownedCols s x.slot.val x.stripe
    let (s', x') := cols.foldl (meetColumn x.slot.val x.stripe x.row.val) (s, x)
    (s', x', cols.any (stillOwed s x.slot.val x.stripe x.row.val))

def storedBytes (s : State) : Nat := (s.cod.store.map fun x => frameLen x.frame).foldl (· + ·) 0

/-- A train leaves the store without the terms that this block still owes it: the BYPASS bits are set and the bypass is recorded (R96). -/
def departBypassed (x : Stored) (s : State) : State :=
  match x.frame.body with
  | .contrib c =>
    let owed := (ownedCols s c.slot.val c.stripe).filter (stillOwed s c.slot.val c.stripe c.row.val)
    let s := owed.foldl (fun u k => putOut { outFor u u.ep.epoch c.slot.val c.stripe c.row.val k with bypassed := true } u) s
    departTrain x { c with bypass := c.bypass ||| maskOfCols owed } (if owed.isEmpty then s else countTrain 48 s)
  | _ => forward (some x.port) x.frame s

/-- Puts a frame into the train store; while it does not fit, the frame that has waited longest departs (R97). -/
def storeFrame (x : Stored) : Nat → State → State
  | 0, s => { s with cod := { s.cod with store := s.cod.store ++ [x] } }
  | n + 1, s =>
    if storedBytes s + frameLen x.frame ≤ Config.trainStoreBytes then
      { s with cod := { s.cod with store := s.cod.store ++ [x] } }
    else match s.cod.store with
      | [] => { s with cod := { s.cod with store := [x] } }
      | y :: ys => storeFrame x n (countTrain 0 (departBypassed y { s with cod := { s.cod with store := ys } }))

/-- A train arrives at a hop of its route: it takes this block's term and goes on, or waits in the store (R96, R233). -/
def trainHop (port : Nat) (f : Frame) (x : Contrib) (s : State) : State :=
  let (s', x', wait) := meetTrain x s
  let y : Stored := ⟨port, ⟨f.hdr, .contrib x'⟩⟩
  if wait then storeFrame y (s'.cod.store.length + 1) s' else departTrain y x' s'

/-- A formed contribution is offered: it stays in the outbox while its holder is lost, for R103 to send once that one is rebuilt (spec/07 R193; DEDUCED, log 175), or leaves as a late delta if bypassed, to a waiting train, which keeps its place in the store while it still waits (R97), as the start of the train, or it stays ready (R96). -/
def offer (o : Out) (f : InFlight) (s : State) : State :=
  let s := notePeak (putOut { o with ready := some f } s)
  if !holderLive s o then putOut (departed { o with ready := some f }) s
  else if o.bypassed then
    countTrain 16 (sendDirect 1 o f (putOut (departed { o with ready := some f }) s))
  else match s.cod.store.find? (trainIs s o.slot o.stripe o.row) with
    | some x => match x.frame.body with
      | .contrib c =>
        let (s', c', wait) := meetTrain c s
        let y : Stored := { x with frame := ⟨x.frame.hdr, .contrib c'⟩ }
        if wait then { s' with cod := { s'.cod with store := s'.cod.store.replace x y } }
        else departTrain y c' { s' with cod := { s'.cod with store := s'.cod.store.erase x } }
      | _ => s
    | none =>
      if (routeCols (grpOf s o.slot) o.row).head? = some o.col then
        startTrain 0 o f (putOut (departed { o with ready := some f }) s)
      else s

/-! ### Forming contributions -/

/-- What is sent for one column: the raw unit, its width, whether narrow, guard, and whether the outbox keeps the payload. -/
structure Term where
  raw : UnitImg
  width : Nat := 0
  narrow : Bool := false
  guard : Bool := false
  keep : Bool := true
  deriving DecidableEq, Repr

/-- The epoch in which a change accepted now is coded: n + 1 once this block has reported landed (R43). -/
def formEpoch (s : State) : Nat := if s.ep.landedRep then s.ep.epoch + 1 else s.ep.epoch
def formAttempt (s : State) : Nat := if s.ep.landedRep then 0 else s.ep.attempt

def inFlightOf (s : State) (o : Out) (x : Term) : InFlight :=
  { seq := o.last + 1, payload := if x.keep then some x.raw else none, width := x.width, guard := x.guard
    narrow := x.narrow, attempt := formAttempt s }

def rowsOf (s : State) (sl : Nat) : List Nat := List.range (grpOf s sl).m

/-- Forms one column's contribution of a train sweep, for every row (R89). -/
def formTrain (sl st c : Nat) (x : Term) (s : State) : State :=
  (rowsOf s sl).foldl (fun s t =>
    let o := outFor s (formEpoch s) sl st t c
    let f := inFlightOf s o x
    offer { o with last := f.seq, sweep := true, guarded := o.guarded || x.guard } f s) s

/-- Sends a contribution directly, with the next sequence number (R100). -/
def sendNext (o : Out) (x : Term) (s : State) : State :=
  let f := inFlightOf s o x
  let o := { o with last := f.seq, flight := some f, pend := none }
  sendDirect 1 o f (notePeak (putOut o s))

/-- Whether a further contribution of an entry may be sent now: none is unlanded, and number 127 waits for the close of the epoch (R100, R105). -/
def maySend (s : State) (o : Out) : Bool :=
  o.ready.isNone && o.flight.isNone && (decide (o.last < 126) || (o.last == 126 && s.ep.closed))

/-- Whether a raw delta must be kept with its entry: a unit of a SEAL slot is read again while its content is the delta (R107). The DIRECT delta of a write into a FRESH-slot unit, which no read of the source could give again, is kept as well, though R107 gives it no payload space (DESIGN CHOICE, log 149). -/
def keepRaw (s : State) (sl st c : Nat) (raw : UnitImg) : Bool :=
  (grpOf s sl).mode != 2 || raw != (colContent s sl st c).1

/-- One column's DIRECT contribution to one row, or its merge into the pending entry (R100). -/
def formDirectRow (sl st c : Nat) (x : Term) (t : Nat) (s : State) : State :=
  let o := outFor s (formEpoch s) sl st t c
  let raw := match o.pend with
    | some u => xorU u x.raw
    | none => x.raw
  if maySend s o then sendNext o { x with raw := raw, keep := keepRaw s sl st c raw } s
  else notePeak (putOut { o with pend := some raw } s)

def formDirect (sl st c : Nat) (x : Term) (s : State) : State :=
  (rowsOf s sl).foldl (fun s t => formDirectRow sl st c x t s) s

/-- Sends the pending entry of an outbox entry if it may leave (R100). -/
def releasePend (o : Out) (s : State) : State :=
  match o.pend with
  | none => s
  | some u =>
    if maySend s o then
      let (_, w, nar) := colContent s o.slot o.stripe o.col
      sendNext o { raw := u, width := w, narrow := nar, keep := keepRaw s o.slot o.stripe o.col u } s
    else s

/-- A pending delta of an entry whose holder is lost becomes its next contribution, which the recomputed unit holds, so that the holder's notice releases it (spec/07 R202). -/
def formPend (sl st t c e : Nat) (s : State) : State :=
  match SMap.find s.cod.out (outKey sl st t c) with
  | none => s
  | some o => match o.pend with
    | none => s
    | some u =>
      let old := o.flight.or o.ready
      let f : InFlight := { seq := o.last + 1, payload := some (xorU u ((old.bind (·.payload)).getD [])), width := colWidth s sl st c
                            guard := false, narrow := (colContent s sl st c).2.2, attempt := formAttempt s }
      if o.epoch = e then putOut { o with last := o.last + 1, ready := none, flight := some f, pend := none } s else s

/-- A NOTICE with count n lands contributions 1 to n of an entry (R102). -/
def landOut (o : Out) (n : Nat) (s : State) : State :=
  let landed (f : InFlight) : Bool := decide (f.seq ≤ n)
  if o.flight.any landed || o.ready.any landed then
    let o' := { o with flight := o.flight.filter fun f => !landed f, ready := o.ready.filter fun f => !landed f }
    releasePend o' (putOut o' s)
  else s

/-- The term of the whole image of a column (seed, guard). -/
def wholeTerm (s : State) (sl st c : Nat) (guard keep : Bool) : Term :=
  let (u, w, nar) := colContent s sl st c
  { raw := u, width := w, narrow := nar, guard := guard, keep := keep }

/-- Sets the shadow of a SCALAR column to its content (R91). -/
def setShadow (sl st c : Nat) (s : State) : State :=
  if isScalarCol s sl st c then
    { s with cod := { s.cod with shadow := SMap.put s.cod.shadow (unitKey sl st c) (colContent s sl st c).1 } }
  else s

/-- Guard contribution of one column of a FRESH slot (Table 4.2); the unit becomes guard-clean (R192). -/
def guardColumn (sl st c : Nat) (s : State) : State :=
  let sc := isScalarCol s sl st c
  let x := wholeTerm s sl st c true sc
  let s := setShadow sl st c (formTrain sl st c x s)
  { s with cod := { s.cod with dirty := SMap.del s.cod.dirty (unitKey sl st c) } }

/-- The delta merged so far into a column's update-sweep contribution (R109). -/
def mergedDelta (s : State) (sl st c : Nat) : UnitImg := SMap.look [] s.cod.deltas (unitKey sl st c)

def dropDelta (sl st c : Nat) (s : State) : State :=
  { s with cod := { s.cod with deltas := SMap.del s.cod.deltas (unitKey sl st c) } }

/-- Seed contribution of one column of a DELTA or FRESH slot (Table 4.2): the whole image, which holds every delta merged before it. -/
def seedColumn (sl st c : Nat) (s : State) : State :=
  let s := setShadow sl st c (formTrain sl st c (wholeTerm s sl st c false (hasPayload s sl st c)) s)
  dropDelta sl st c { s with cod := { s.cod with dirty := SMap.del s.cod.dirty (unitKey sl st c) } }

/-- A delta that a STEP instruction forms: the column's update-sweep contribution, or a DIRECT one once that is formed (R90). -/
def stepDelta (sl st c : Nat) (x : Term) (s : State) : State :=
  let x := { x with raw := xorU x.raw (mergedDelta s sl st c) }
  let s' := dropDelta sl st c s
  if sweepFormed s sl st c then formDirect sl st c x s' else formTrain sl st c x s'

/-- Whether every contribution of a column in the open epoch has landed at every row. -/
def columnLanded (s : State) (sl st c : Nat) : Bool :=
  (rowsOf s sl).all fun t =>
    let o := outFor s s.ep.epoch sl st t c
    o.ready.isNone && o.flight.isNone && o.pend.isNone

/-- Deltas of a later landing wave become ready once every contribution of the waves before it has landed, and are offered in the order of R88 (R200, R128). -/
def releaseWaves (s : State) : State :=
  (sortByKey (fun w => unitKey w.slot w.stripe w.col) s.cod.waves).foldl (fun s w =>
    let early := s.cod.waves.filter fun v => v.ins == w.ins && decide (v.wave < w.wave)
    if w.held && s.cod.walked.contains w.ins && early.all (fun v => !v.held && columnLanded s v.slot v.stripe v.col) then
      let (_, wd, nar) := colContent s w.slot w.stripe w.col
      stepDelta w.slot w.stripe w.col { raw := [], width := wd, narrow := nar }
        { s with cod := { s.cod with waves := s.cod.waves.map fun v => if v == w then { v with held := false } else v } }
    else s) s

/-- The update sweep ends: every column not yet formed contributes the deltas merged into it, or nothing (R90, R311). -/
def endUpdateSweep (s : State) : State :=
  let s := { s with ep := { s.ep with updEnded := true } }
  (slotsOn s).foldl (fun s sl =>
    if (grpOf s sl).mode = 0 then
      (owedUnits s sl).foldl (fun s x =>
        if sweepFormed s sl x.1 x.2 || waveHeld s sl x.1 x.2 then s
        else
          let (_, w, nar) := colContent s sl x.1 x.2
          formTrain sl x.1 x.2 { raw := mergedDelta s sl x.1 x.2, width := w, narrow := nar && !(mergedDelta s sl x.1 x.2).isEmpty }
            (dropDelta sl x.1 x.2 s)) s
    else s) s

/-- Departure of every pending coded-store delta when the vote result is SKIP (R109). -/
def releaseDeltas (s : State) : State :=
  (slotsOn s).foldl (fun s sl => (owedUnits s sl).foldl (fun s x =>
    match SMap.find s.cod.deltas (unitKey sl x.1 x.2) with
    | some u =>
      let (_, w, nar) := colContent s sl x.1 x.2
      formDirect sl x.1 x.2 { raw := u, width := w, narrow := nar } (dropDelta sl x.1 x.2 s)
    | none => s) s) s

/-- Scalar land contributions: content XOR shadow of every SCALAR unit, after which the shadow is the content (R91). -/
def scalarLand (s : State) : State :=
  (slotsOn s).foldl (fun s sl =>
    if (grpOf s sl).mode = 1 then
      (owedUnits s sl).foldl (fun s x =>
        if isScalarCol s sl x.1 x.2 then
          let (u, w, nar) := colContent s sl x.1 x.2
          let sh := SMap.look [] s.cod.shadow (unitKey sl x.1 x.2)
          setShadow sl x.1 x.2 (formDirect sl x.1 x.2 { raw := xorU u sh, width := w, narrow := nar } s)
        else s) s
    else s) s

/-! ### Notices -/

def noticeEntry (sl st t c n : Nat) : NoticeEntry :=
  { stripe := st, slot := Fin.ofNat 16 sl, row := Fin.ofNat 4 t, column := Fin.ofNat 16 c, seq := n
    past := false, suspect := false, noImage := false, rsvd := 0 }

/-- Sends one notice frame (Table 4.4). -/
def sendNoticeFrame (typ sub rank epoch attempt : Nat) (es : List NoticeEntry) (s : State) : State :=
  if es.isEmpty then s
  else
    let n : NoticeFrame := { epoch := epoch, crc := 0, typ := typ, count := es.length, attempt := attempt, sub := sub, rsvd := 0, entries := es }
    sendCode 3 rank epoch (.notice { n with crc := noticeCrc n }) s

/-- Sends the batch that a holder keeps for a contributor (R102). -/
def flushBatch (rank : Nat) (s : State) : State :=
  let b := SMap.look {} s.cod.batches rank
  sendNoticeFrame 0 0 rank b.epoch b.attempt b.entries
    { s with cod := { s.cod with batches := SMap.del s.cod.batches rank } }

/-- Batches one NOTICE entry of an epoch and attempt; 63 entries leave at once, and so do the entries of another epoch or attempt (R102, Table 4.4). -/
def batchNotice (rank epoch attempt : Nat) (e : NoticeEntry) (s : State) : State :=
  let b := SMap.look {} s.cod.batches rank
  let s := if b.epoch = epoch ∧ b.attempt = attempt then s else flushBatch rank s
  let es := (SMap.look {} s.cod.batches rank).entries ++ [e]
  let s := { s with cod := { s.cod with batches := SMap.put s.cod.batches rank ⟨epoch, attempt, es⟩ } }
  if 63 ≤ es.length then flushBatch rank s else s

/-- Sends an entry at once in a frame of its own: typ 0 NOTICE, 1 NEED, 2 QUERY (R102). -/
def sendEntry (typ rank epoch attempt : Nat) (e : NoticeEntry) (s : State) : State :=
  let s := sendNoticeFrame typ 0 rank epoch attempt [e] s
  if typ = 1 then { s with cod := { s.cod with codeStat := bump 0 16 s.cod.codeStat } } else s

def colsIn (mask : Nat) : List Nat := (List.range 16).filter fun c => mask.testBit c

/-- Counts a contribution or entry that a holder may not answer (R469). -/
def misdirected (s : State) : State := violate 10 s

/-- The unit and header that apply of R99 writes for a contribution whose columns are all next. ROW and MODE, which the pseudocode of R99 never writes, are written at each apply (DESIGN CHOICE, log 163). -/
def applied (h : ParHdr) (unit : UnitImg) (x : Contrib) (mode k : Nat) : UnitImg × ParHdr :=
  let newer := !h.valid || decide (h.epoch < x.epoch)
  let fresh := mode == 1 && x.guard && newer
  let u := if fresh then x.unit.bytes else xorU (if h.valid then unit else []) x.unit.bytes
  let base := if h.valid then h.crc else zCrc
  let h1 : ParHdr := { h with
    crc := if fresh then x.unit.crc else base ^^^ x.unit.crc ^^^ zCrc
    narrow := if fresh then x.narrow else (h.valid && h.narrow) || x.narrow
    suspect := !fresh && h.suspect, mode := mode, row := x.row.val }
  let h2 := if newer then { h1 with epoch := x.epoch, seq := [], late := false, repaired := false, rebuilt := false } else h1
  let sq := (colsIn x.mask).foldl (fun m c => SMap.put m c (SMap.look 0 x.seq c)) h2.seq
  let done := allBelow k fun c => (SMap.find sq c).isSome
  (u, { h2 with seq := sq, late := !done && (h2.late || x.bypass != 0), valid := true })

/-- apply of R99 at a holder, after the rules of R54, R111 and R469. -/
def applyContrib (x : Contrib) (ua ha : Nat) (s : State) : State :=
  let sl := x.slot.val
  let st := x.stripe
  let t := x.row.val
  let g := grpOf s sl
  let send (typ n c : Nat) (s : State) := sendEntry typ (columnRank s sl st c) x.epoch x.attempt (noticeEntry sl st t c n) s
  let cols := colsIn x.mask
  let sq (c : Nat) := SMap.look 0 x.seq c
  if !squeezedOk x.unit then
    cols.foldl (fun s c => send 1 (sq c) c s) { s with cod := { s.cod with unitCheck := bump 48 16 s.cod.unitCheck } }
  else
    let h := readParHdr s ha
    let have? (c : Nat) := columnState h c x.epoch
    let dup := cols.filter fun c => match have? c with
      | none => true
      | some n => decide (sq c ≤ n)
    let next := cols.filter fun c => match have? c with
      | none => false
      | some n => n + 1 == sq c
    let gap := cols.filter fun c => !dup.contains c && !next.contains c
    if dup.isEmpty && gap.isEmpty then
      let (u, h') := applied h (parityImg s h ua) x g.mode g.k
      let s := preserve ua 4096 s
      cols.foldl (fun s c => batchNotice (columnRank s sl st c) x.epoch x.attempt (noticeEntry sl st t c (sq c)) s) (writeParity ua ha u h' s)
    else
      let s := if dup.isEmpty then s else { s with cod := { s.cod with noticeStat := bump 48 16 s.cod.noticeStat } }
      let s := if gap.isEmpty then s else { s with cod := { s.cod with noticeStat := bump 32 16 s.cod.noticeStat } }
      let s := dup.foldl (fun s c => send 0 ((have? c).getD (sq c)) c s) s
      next.foldl (fun s c => send 1 (sq c) c s) s

/-- A contribution behind the open epoch: dropped, and an owed landing notice is sent again (R54). -/
def answerBehind (x : Contrib) (s : State) : State :=
  match parityAt s x.slot.val x.stripe x.row.val with
  | none => s
  | some (_, ha) =>
    let h := readParHdr s ha
    (colsIn x.mask).foldl (fun s c =>
      let n := SMap.look 0 x.seq c
      let ok := match columnState h c x.epoch with
        | none => true
        | some m => decide (n ≤ m)
      if ok then sendEntry 0 (columnRank s x.slot.val x.stripe c) x.epoch x.attempt
        (noticeEntry x.slot.val x.stripe x.row.val c ((columnState h c x.epoch).getD n)) s
      else s) s

/-- A contribution of the open epoch and attempt at its holder (R469, R99). -/
def holdContrib (x : Contrib) (s : State) : State :=
  if !(grpOf s x.slot.val).en then misdirected s
  else match parityAt s x.slot.val x.stripe x.row.val with
    | none => misdirected s
    | some (ua, ha) => applyContrib x ua ha s

/-- A holder answers one QUERY entry (R104, R469). -/
def answerQuery (epoch attempt : Nat) (e : NoticeEntry) (s : State) : State :=
  let sl := e.slot.val
  if !(grpOf s sl).en then misdirected s
  else match parityAt s sl e.stripe e.row.val with
    | none => misdirected s
    | some (_, ha) =>
      let h := readParHdr s ha
      let dst := columnRank s sl e.stripe e.column.val
      let mk (n : Nat) := noticeEntry sl e.stripe e.row.val e.column.val n
      match columnState h e.column.val epoch with
      | none => sendEntry 0 dst epoch attempt (mk e.seq) s
      | some n => if e.seq ≤ n then sendEntry 0 dst epoch attempt (mk n) s else sendEntry 1 dst epoch attempt (mk e.seq) s

/-- A contributor takes one NOTICE entry (R102). -/
def takeNotice (epoch : Nat) (e : NoticeEntry) (s : State) : State :=
  match SMap.find s.cod.out (outKey e.slot.val e.stripe e.row.val e.column.val) with
  | some o => if o.epoch = epoch then landOut o e.seq s else s
  | none => s

def countRepeat (s : State) : State := { s with cod := { s.cod with noticeStat := bump 0 16 s.cod.noticeStat } }

/-- Sends a REPEAT of an unlanded contribution (R103), to a live holder. -/
def sendRepeat (o : Out) (f : InFlight) (s : State) : State :=
  if !holderLive s o then s else countRepeat (sendDirect 2 o f (putOut { o with flight := some { f with queried := false } } s))

/-- A contributor takes one NEED entry (R103). -/
def takeNeed (epoch : Nat) (e : NoticeEntry) (s : State) : State :=
  match SMap.find s.cod.out (outKey e.slot.val e.stripe e.row.val e.column.val) with
  | some o => match o.flight with
    | some f => if o.epoch = epoch ∧ f.seq = e.seq then sendRepeat o f s else s
    | none => s
  | none => s

/-- The notice timer of an unlanded contribution expires: QUERY first, then REPEAT (R103). -/
def noticeTimer (sl st t c : Nat) (s : State) : State :=
  match SMap.find s.cod.out (outKey sl st t c) with
  | some o => match o.flight with
    | some f =>
      if !holderLive s o then s
      else if f.queried then sendRepeat o f s
      else
        let s := putOut { o with flight := some { f with queried := true } } s
        let s := { s with cod := { s.cod with noticeStat := bump 16 16 s.cod.noticeStat } }
        sendEntry 2 (holderRank s sl st t) o.epoch f.attempt (noticeEntry sl st t c f.seq) s
    | none => s
  | none => s

/-- The train window of a stored train ends at this block (R96). -/
def windowExpiry (sl st t : Nat) (s : State) : State :=
  match s.cod.store.find? (trainIs s sl st t) with
  | some x => departBypassed x { s with cod := { s.cod with store := s.cod.store.filter (· != x) } }
  | none => s

/-- A contribution has been ready for one train window: a relay train starts (R96). -/
def relay (sl st t : Nat) (s : State) : State :=
  (ownedCols s sl st).foldl (fun s c =>
    let o := outFor s s.ep.epoch sl st t c
    match o.ready with
    | some f =>
      if o.bypassed || !holderLive s o then s
      else countTrain 32 (startTrain (maskOfCols (colsBefore (grpOf s sl) t c)) o f (putOut (departed o) s))
    | none => s) s

/-! ### The coded-store path -/

/-- Whether a job's coding is in force: a phase is open (R45). -/
def codingOn (s : State) : Bool := s.ep.phase != 0

/-- Whether a guard contribution of a FRESH-slot unit is formed and unlanded at some row (R110). -/
def guardUnlanded (s : State) (sl st c : Nat) : Bool :=
  (rowsOf s sl).any fun t => match SMap.find s.cod.out (outKey sl st t c) with
    | some o => o.epoch == s.ep.epoch &&
        ((match o.ready with
          | some f => f.guard
          | none => false) || (match o.flight with
          | some f => f.guard
          | none => false))
    | none => false

/-- Coding units of DELTA and FRESH slots that a write of [a, a + n) enters: region, unit, slot, stripe, column. -/
structure Touched where
  ix : Nat
  r : Region
  j : Nat
  sl : Nat
  st : Nat
  col : Nat
  deriving DecidableEq, Repr

def touchedUnits (a n : Nat) (s : State) : List Touched :=
  if n = 0 then []
  else ((regionsInForce s).filter fun x => x.2.valid && codedClass x.2.cls && isMember (grpOf s x.2.group) &&
      decide (regionAddr x.2 < a + n ∧ a < regionAddr x.2 + 4096 * x.2.units)).flatMap fun x =>
    let r := x.2
    let b := regionAddr r
    let z := if r.cls = 2 then 8192 else 4096
    let lo := (max a b - b) / z
    let hi := (min (a + n) (b + 4096 * r.units) - b + z - 1) / z
    let g := grpOf s r.group
    (List.range (hi - lo)).map fun k =>
      let pl := dataPlace g g.self (firstUnit (slotRegions s r.group) x.1 + lo + k)
      { ix := x.1, r := r, j := lo + k, sl := r.group, st := pl.1, col := pl.2 }

/-- Whether a rebuild of an aborted epoch holds the writes into a slot: its chains have not started (spec/07 R193). -/
def rebuildHolds (s : State) (sl : Nat) : Bool :=
  s.reb.runs.any fun r => r.aborted && !r.chained && !r.closed && r.slots.any fun x => x.1 == sl

/-- Whether a write must wait for the commit or for a guard contribution to land (R109, R110, spec/07 R193). -/
def writeHeld (a n : Nat) (s : State) : Bool :=
  codingOn s && (touchedUnits a n s).any fun x =>
    let mode := (grpOf s x.sl).mode
    (mode != 2 && (s.ep.closed || rebuildHolds s x.sl)) ||
    (mode == 1 && x.r.cls != 5 && guardUnlanded s x.sl x.st x.col)

/-- Whether a write finds no payload space (R108). -/
def roomShort (a n : Nat) (s : State) : Bool :=
  codingOn s && !outboxRoom s && (touchedUnits a n s).any fun x => (grpOf s x.sl).mode == 0

/-- Whether a granule holds the interlock on a unit of an export-pending region that [a, a + n) meets (spec/14 R398). -/
def pendLocked (a n : Nat) (s : State) : Bool :=
  s.upd.lock.any fun x => (regionsInForce s).any fun r => r.2.valid && r.2.exportPend &&
    decide (regionAddr r.2 ≤ x.2 ∧ x.2 < regionAddr r.2 + 4096 * r.2.units) &&
    decide (x.2 < a + n ∧ a < x.2 + (if r.2.cls = 2 then 8192 else 4096))

/-- The block as partition p sees the interlock: its own units do not stop it (R398, spec/05 R129). -/
def lockFree (p : Nat) (s : State) : State := { s with upd := { s.upd with lock := s.upd.lock.filter fun x => x.1 != p } }

/-- Whether the path holds a write now: the epoch is closed, a guard contribution is unlanded, no payload space is left (R108 to R110), or a granule holds the unit (spec/14 R398). -/
def writeBlocked (a n : Nat) (s : State) : Bool := writeHeld a n s || roomShort a n s || pendLocked a n s

/-- The path holds a write of a partition, or with 16 of a frame (Table 4.17). -/
def markHold (k : Nat) (s : State) : State :=
  { s with cod := { s.cod with holds := k :: s.cod.holds.filter (· != k), holdFrom := s.cod.holdFrom.or (some s.clk.wall) } }

/-- A STEP instruction of a partition stands for payload space (R108). -/
def markStall (p : Nat) (s : State) : State :=
  { s with cod := { s.cod with stalls := p :: s.cod.stalls.filter (· != p), stallFrom := s.cod.stallFrom.or (some s.clk.wall) } }

/-- The write of a partition, or with 16 those of frames, no longer waits, or is tried again. -/
def unmark (k : Nat) (s : State) : State :=
  { s with cod := { s.cod with holds := s.cod.holds.filter (· != k), stalls := s.cod.stalls.filter (· != k) } }

/-- Whether the coded-store path holds a write now (Table 4.12). -/
def pathHolds (s : State) : Bool := !s.cod.held.isEmpty || !s.cod.holds.isEmpty

/-- Whether the sequencer of a partition stands at a long instruction or at one that issues again. -/
def standsHeld (s : State) (p : Nat) : Bool := (partOf s p).seq == .long || (partOf s p).wait == some .stall

/-- Ends the spans of HOLD_US and STALL_US for which nothing waits any longer: µs during which some write was held, or some STEP instruction stood (Table 4.17; DEDUCED, log 150). -/
def closeHolds (s : State) : State :=
  let s := { s with cod := { s.cod with
    holds := s.cod.holds.filter fun p => p == 16 || standsHeld s p, stalls := s.cod.stalls.filter (standsHeld s) } }
  let s := match s.cod.holdFrom with
    | some t => if pathHolds s then s
      else { s with cod := { s.cod with outboxStall := bumpBy 32 32 ((s.clk.wall - t) / 1000) s.cod.outboxStall, holdFrom := none } }
    | none => s
  match s.cod.stallFrom with
  | some t => if !s.cod.stalls.isEmpty then s
    else { s with cod := { s.cod with outboxStall := bumpBy 0 32 ((s.clk.wall - t) / 1000) s.cod.outboxStall, stallFrom := none } }
  | none => s

/-- The delta that a write leaves for one coding unit (R109, R110). -/
def noteDelta (x : Touched) (d : UnitImg) (s : State) : State :=
  let nar := x.r.cls == 2 || x.r.cls == 3
  let term : Term := { raw := d, width := unitWidth x.r, narrow := nar }
  match (grpOf s x.sl).mode with
  | 0 =>
    if s.ep.skip || sweepFormed s x.sl x.st x.col then
      formDirect x.sl x.st x.col { term with raw := xorU d (mergedDelta s x.sl x.st x.col) } (dropDelta x.sl x.st x.col s)
    else { s with cod := { s.cod with
        deltas := SMap.put s.cod.deltas (unitKey x.sl x.st x.col) (xorU (mergedDelta s x.sl x.st x.col) d) } }
  | 1 =>
    if x.r.cls = 5 then s
    else
      let s := { s with cod := { s.cod with dirty := SMap.put s.cod.dirty (unitKey x.sl x.st x.col) true } }
      if guardFormed s x.sl x.st x.col then formDirect x.sl x.st x.col term s else s
  | _ => s

/-- Images of touched units. -/
def imagesOf (xs : List Touched) (s : State) : List UnitImg := xs.map fun x => contentOf s x.r x.j

/-- Runs a change of memory inside [a, a + n), preserving an export's cut and coding every unit it enters through note. -/
def withDeltas (a n : Nat) (note : Touched → UnitImg → State → State) (f : State → State) (s : State) : State :=
  let s := preserve a n s
  if !codingOn s then f s
  else
    let xs := touchedUnits a n s
    let old := imagesOf xs s
    let s' := f s
    let new := imagesOf xs s'
    (xs.zip (old.zip new)).foldl (fun s y => note y.1 (xorU y.2.1 y.2.2) s) s'

/-- Whether [a, a + n) enters a page whose record has SEALED set (spec/11 R341). -/
def entersSealed (s : State) (a n : Nat) : Bool :=
  (s.page.recs.any fun x => x.2.isSealed) && (experienceRegions s).any fun x =>
    let b := regionAddr x.2
    let e := b + 4096 * x.2.units
    decide (a < e ∧ b < a + n) &&
      (List.range (cdiv (min (a + n) e - b) 65536)).any fun k =>
        decide (max a b < b + 65536 * (k + 1)) && (pageOf s (pageFirst (experienceRegions s) x.1 + k)).isSealed

/-- A write through the coded-store path that nothing holds (R109); one into a sealed page is not applied, and counted (spec/11 R341, R342). -/
def codedWrite (a : Nat) (bs : List Byte) (s : State) : State :=
  if entersSealed s a bs.length then violate 7 s else notePeak (withDeltas a bs.length noteDelta (memWrite a bs) s)

def codedWriteImg (a n : Nat) (u : UnitImg) (s : State) : State :=
  if entersSealed s a n then violate 7 s else notePeak (withDeltas a n noteDelta (memWriteImg a n u) s)

/-- Holds a write of the surroundings (R109, R110). -/
def holdWrite (a : Word) (bs : List Byte) (s : State) : State :=
  { s with cod := { s.cod with held := s.cod.held ++ [⟨a, bs, s.clk.wall⟩], holdFrom := s.cod.holdFrom.or (some s.clk.wall) } }

/-- Writes that are held and no longer need to be are applied in order; one that waits holds back later ones that overlap its units (R109, R110). -/
def releaseHeld (s : State) : State :=
  let hs := s.cod.held
  let (s', left) := hs.foldl (fun (acc : State × List HeldWrite) h =>
    let a := h.addr.toNat
    let clash := acc.2.any fun k => decide (k.addr.toNat < a + h.data.length ∧ a < k.addr.toNat + k.data.length)
    if clash || writeBlocked a h.data.length acc.1 then (acc.1, acc.2 ++ [h]) else (codedWrite a h.data acc.1, acc.2))
    ({ s with cod := { s.cod with held := [] } }, [])
  { s' with cod := { s'.cod with held := left ++ s'.cod.held } }

/-! ### Guarded, landed, closed -/

def outsOf (s : State) (e : Nat) : List Out := (s.cod.out.filter fun x => x.2.epoch == e).map (·.2)

/-- Every outbox entry of the open epoch has landed (R105). -/
def allLanded (s : State) : Bool :=
  (outsOf s s.ep.epoch).all fun o => o.ready.isNone && o.flight.isNone && o.pend.isNone

/-- Every parity unit held in a slot of a mode in the list shows the open epoch with CUR for all columns (R105, R106). -/
def parityCurrent (s : State) (modes : List Nat) : Bool :=
  (slotsOn s).all fun sl =>
    let g := grpOf s sl
    !modes.contains g.mode || (heldParity s sl).all fun x =>
      let h := readParHdr s x.2.2.2
      h.valid && h.epoch == s.ep.epoch && allBelow g.k fun c => (SMap.find h.seq c).isSome

/-- The guard contributions of the open epoch have landed (R106). -/
def guardLanded (s : State) : Bool :=
  (outsOf s s.ep.epoch).all fun o => (match o.ready with
    | some f => !f.guard
    | none => true) && (match o.flight with
    | some f => !f.guard
    | none => true)

/-- Whether a STEP instruction of the open epoch stands PARTIAL or unstarted on a bound partition of the job (R134). -/
def stepStands (s : State) : Bool :=
  (boundTo s s.job.tag).any fun p =>
    let x := partOf s p
    (match x.long with
      | some l => l.step && l.epoch == s.ep.epoch
      | none => false) ||
    (match x.susp with
      | some l => l.step && l.epoch == s.ep.epoch
      | none => false) ||
    x.stepHeld == some s.ep.epoch

/-- The block closes the epoch: pending entries held as contribution 127 are released (R105), and the deltas of units that a walk has not left go as DIRECT contributions of the epoch (DESIGN CHOICE, log 151). -/
def closeEpoch (s : State) : State :=
  let s := releaseDeltas { s with ep := { s.ep with closed := true } }
  (s.cod.out.map (·.1)).foldl (fun s k =>
    match SMap.find s.cod.out k with
    | some o => if o.epoch = s.ep.epoch then releasePend o s else s
    | none => s) s

/-- Whether every train contribution of this block has departed, which ends update (Table 2.5). -/
def trainsDeparted (s : State) : Bool := !(s.cod.waves.any (·.held)) && (outsOf s s.ep.epoch).all fun o => o.ready.isNone

/-- The abort of the open epoch at the coding machinery (R111). -/
def abortCoding (s : State) : State :=
  let n := s.ep.epoch
  let s := (slotsOn s).foldl (fun s sl =>
    if (grpOf s sl).mode = 1 then
      (heldParity s sl).foldl (fun s x =>
        let h := readParHdr s x.2.2.2
        if h.valid && h.epoch == n then
          writeParHdr x.2.2.2 { h with epoch := n - 1, seq := [], late := false, suspect := true } s
        else s) s
    else s) s
  let att := (s.ep.attempt + 1) % 256
  let keep := s.cod.out.filter fun x => !((grpOf s x.2.slot).mode == 1 && x.2.epoch == n)
  let mark (o : Out) : Out :=
    if (grpOf s o.slot).mode == 2 && o.epoch == n then
      { o with flight := o.flight.map fun f => { f with attempt := att }, ready := o.ready.map fun f => { f with attempt := att } }
    else o
  { s with
    ep := { s.ep with attempt := att }
    cod := { s.cod with out := keep.map fun x => (x.1, mark x.2) } }

end Sys2Proof.Machine
end

