-- ==== Sys2Proof/Machine/Pages.lean ====
section
/-! DEFINITION. The page keeper (spec/11 R338 to R343), the publication directory and its readers (R331 to R336), prefetch schedules (R320 to R324), and the writes of the surroundings through the taps (R315, R342, R109). -/

namespace Sys2Proof.Machine

def outResp (r : Resp) (s : State) : State := { s with fab := { s.fab with resp := r :: s.fab.resp } }

/-! ### Pages -/

def countIgnored (s : State) : State := { s with page := { s.page with ignored := min (s.page.ignored + 1) 0xFFFF } }
def countNoRoom (s : State) : State := { s with page := { s.page with noroom := min (s.page.noroom + 1) 0xFFFF } }

/-- Whether a page record is that of a free page (R338). -/
def recFree (r : Page) : Bool := r.ref == 0 && !r.retiring && !r.lost && !r.copying

/-- Pages that may be taken: the free ones, but a page sealed at an export's cut stays out of the pool until it is drained (spec/14 R396). -/
def pageFree (s : State) (n : Nat) : Bool := recFree (pageOf s n) && !(cutPages s).contains n

def lowestFree (s : State) : Option Nat := firstBelow (min (pageTotal s) Config.maxPages) (pageFree s)

/-- Slot, stripe and column of the 16 units of a page. -/
def pageUnits (s : State) (n : Nat) : List (Nat × Nat × Nat) :=
  match pageLoc s n with
  | none => []
  | some (i, r, a) =>
    let g := grpOf s r.group
    let u := firstUnit (slotRegions s r.group) i + (a - regionAddr r) / 4096
    (List.range 16).map fun k =>
      let pl := dataPlace g g.self (u + k)
      (r.group, pl.1, pl.2)

/-- Direct contributions of every unit of a page: the seal and the retire sweep (Table 4.2). -/
def pageSweep (n : Nat) (s : State) : State :=
  if codingOn s then
    (pageUnits s n).foldl (fun s x =>
      formDirect x.1 x.2.1 x.2.2 (wholeTerm s x.1 x.2.1 x.2.2 false false) s) s
  else s

/-- Whether every contribution of a page's units has landed. -/
def pageLanded (s : State) (n : Nat) : Bool :=
  (pageUnits s n).all fun x => (rowsOf s x.1).all fun t =>
    match SMap.find s.cod.out (outKey x.1 x.2.1 t x.2.2) with
    | some o => o.ready.isNone && o.flight.isNone && o.pend.isNone
    | none => true

/-- A page whose count fell to 0: free, or retired first if it is sealed (R339, R92). -/
def pageDropped (n : Nat) (s : State) : State :=
  if (pageOf s n).isSealed then pageSweep n (modPage n (fun r => { r with retiring := true }) s) else s

/-- Pages whose retire contributions have all landed become free (R339). -/
def settlePages (s : State) : State :=
  ((s.page.recs.filter fun x => x.2.retiring).map (·.1)).foldl (fun s n =>
    if pageLanded s n then modPage n (fun r => { r with retiring := false, isSealed := false }) s else s) s

/-- RELEASE: the count falls by 1; on a free page it is ignored and counted. -/
def pageRelease (n : Nat) (s : State) : State :=
  if (pageOf s n).ref = 0 then countIgnored s
  else
    let s := modPage n (fun r => { r with ref := r.ref - 1 }) s
    if (pageOf s n).ref = 0 then pageDropped n s else s

/-- RETAIN: the count rises by 1, that of a lost, retiring or copying page too; the status is NO_ROOM at 0xFFFF, and on a free page it is ignored and counted (R339). -/
def pageRetain (n : Nat) (s : State) : State × Nat :=
  let r := pageOf s n
  if recFree r then (countIgnored s, stOk)
  else if 0xFFFF ≤ r.ref then (s, stNoRoom)
  else (modPage n (fun r => { r with ref := r.ref + 1 }) s, stOk)

/-- A SEAL waits until the accepted writes are visible (R341). -/
def pageSealAsk (n : Nat) (s : State) : State :=
  let r := pageOf s n
  if r.ref = 0 || r.isSealed || s.page.seals.contains n then countIgnored s
  else { s with page := { s.page with seals := s.page.seals ++ [n] } }


/-- ALLOC (R339). -/
def pageAlloc (s : State) : State :=
  match lowestFree s with
  | some n => outResp (.page n) (modPage n (fun r => { r with ref := 1, isSealed := false }) s)
  | none => outResp .noRoom (countNoRoom s)

/-- OPEN (R339, R340). A page without a reference has nothing to open: ignored and counted (DESIGN CHOICE, log 36). -/
def pageOpen (n : Nat) (s : State) : State :=
  let r := pageOf s n
  if r.ref = 0 then outResp .noRoom (countIgnored s)
  else if r.ref = 1 && !r.isSealed then outResp (.page n) s
  else match lowestFree s with
    | none => outResp .noRoom (countNoRoom s)
    | some d =>
      let s := modPage d (fun r => { r with copying := true }) (modPage n (fun r => { r with ref := r.ref + 1 }) s)
      { s with page := { s.page with cow := s.page.cow ++ [(n, d)] } }

/-- A page operation of the page port by its operand in the log: 0 ALLOC, 1 OPEN, 2 RETAIN, 3 RELEASE (R339; DESIGN CHOICE, log 57). -/
def pageRequest (k n : Nat) (s : State) : State :=
  match k with
  | 0 => pageAlloc s
  | 1 => pageOpen n s
  | 2 =>
    let (s, st) := pageRetain n s
    if st = stNoRoom then outResp .noRoom s else s
  | _ => pageRelease n s

/-- A request of the page port; one on a page whose SEAL waits is taken after it, for operations on one page take effect one at a time (R339). -/
def pagePort (k n : Nat) (s : State) : State :=
  if k ≠ 0 ∧ s.page.seals.contains n then { s with page := { s.page with waiting := s.page.waiting ++ [(k, n)] } }
  else pageRequest k n s

/-- The seal of a page that still holds a reference is accepted, and its sweep follows; then the requests that waited for it are taken (R341, R43, R339). -/
def pageSealNow (n : Nat) (s : State) : State :=
  if s.page.seals.contains n then
    let s := { s with page := { s.page with seals := s.page.seals.filter (· != n) } }
    let r := pageOf s n
    let s := if r.ref = 0 || r.isSealed then s else pageSweep n (modPage n (fun r => { r with isSealed := true }) s)
    let due := s.page.waiting.filter fun x => x.2 == n
    due.foldl (fun s x => pageRequest x.1 x.2 s) { s with page := { s.page with waiting := s.page.waiting.filter fun x => x.2 != n } }
  else s

/-- The copy of a copy-on-write completes (R340), unless a granule holds a unit of it that is export-pending (spec/14 R398). -/
def cowDone (d : Nat) (s0 : State) : State :=
  match s0.page.cow.find? fun x => x.2 == d with
  | none => s0
  | some (n, _) =>
    let s := s0
    let s := { s with page := { s.page with cow := s.page.cow.filter (fun x => x.2 != d), copies := min (s.page.copies + 1) 0xFFFFFFFF } }
    match pageLoc s n, pageLoc s d with
    | some (_, _, a), some (_, _, b) =>
      if pendLocked b 65536 s0 then s0 else
      let u := memImg a 65536 s
      let s := memWriteImg b 65536 u (preserve b 65536 s)
      let s := modPage d (fun r => { r with ref := r.ref + 1, isSealed := false, copying := false }) s
      outResp (.page d) (pageRelease n (pageRelease n s))
    | _, _ => s

/-- LOST pages become free again (R343). -/
def clearLost (s : State) : State :=
  { s with page := { s.page with recs := s.page.recs.map fun x => (x.1, { x.2 with lost := false }) } }

/-- The page record as a word (Table 11.9). -/
def pageWord (r : Page) : Word :=
  BitVec.ofNat 64 (pack [(12, 0), (1, b2n r.copying), (1, b2n r.lost), (1, b2n r.retiring), (1, b2n r.isSealed), (16, r.ref)])

/-! ### Writes of the surroundings -/

/-- A tap write into an EXPERIENCE page that is sealed, shared or free is not applied (R342). -/
def pageWriteOk (s : State) (a n : Nat) : Bool :=
  (experienceRegions s).all fun x =>
    let b := regionAddr x.2
    if a < b + 4096 * x.2.units && b < a + n then
      let lo := (max a b - b) / 65536
      let hi := (min (a + n) (b + 4096 * x.2.units) - b + 65535) / 65536
      let f := pageFirst (experienceRegions s) x.1
      (List.range (hi - lo)).all fun k =>
        let r := pageOf s (f + lo + k)
        !r.isSealed && decide (r.ref ≤ 1) && !recFree r
    else true

/-- Counts a write that the coded-store path accepts. -/
def countCsWrite (s : State) : State := { s with tap := { s.tap with stat := bump 0 32 s.tap.stat } }

/-! ### Publication directory -/

def fmtBlockBytes (fmt : Nat) : Nat :=
  match fmt with
  | 0x10 => 33
  | 0x11 => 33
  | 0x12 => 25
  | 0x13 => 25
  | _ => 17

/-- Bytes of a bay (R331). -/
def bayBytes (fmt elems : Nat) : Nat := if fmt = 2 then 2 * elems else elems / 32 * fmtBlockBytes fmt

def touchesCoded (s : State) (a n : Nat) : Bool :=
  s.reg.table.any fun x => x.2.valid && codedClass x.2.cls &&
    decide (regionAddr x.2 < a + n ∧ a < regionAddr x.2 + 4096 * x.2.units)

/-- The checks of R331 on an entry whose word +0x00 declares it. -/
def pubOk (s : State) (e : Pub) : Bool :=
  let a := e.bayA.toNat
  let b := e.bayB.toNat
  let n := bayBytes e.format e.elems
  (e.format == 2 || (decide (0x10 ≤ e.format ∧ e.format ≤ 0x14) && e.elems % 32 == 0)) &&
  tierOf a == 1 && tierOf b == 1 && a % 64 == 0 && b % 64 == 0 && decide (byteOf a + n ≤ 2 ^ 62) && decide (byteOf b + n ≤ 2 ^ 62) &&
  (decide (a + n ≤ b) || decide (b + n ≤ a)) && !touchesCoded s a n && !touchesCoded s b n

def pubFrozen (e : Pub) : Bool := e.writing || e.readersA != 0 || e.readersB != 0

/-- Write of word +0x00 of an entry (R331), ignored whole while the entry is frozen; PUB_BAD is cleared by writing 1. -/
def pubWrite (i : Nat) (v : Word) (s : State) : State :=
  let e := pubOf s i
  let e1 := if bit 55 v then { e with bad := false } else e
  if pubFrozen e then s
  else
    let e2 := { e1 with
      valid := bit 63 v, kind := fld 61 2 v, pubStep := bit 60 v, hint := fld 56 2 v, format := fld 40 8 v, elems := fld 0 40 v }
    if bit 63 v && !pubOk s e2 then modPub i (fun _ => { e1 with bad := true }) s
    else modPub i (fun _ => e2) s

/-- The active bay: A when COUNT of VTALLY is even (R332). -/
def activeB (s : State) (e : Pub) : Bool := (tallyOf s e.vtally).count.getLsbD 0

def pubCount (lo w i : Nat) (s : State) : State := modPub i (fun e => { e with cnt := bump lo w e.cnt }) s

/-- ACQUIRE of the reader port (R333). -/
def pubAcquire (i : Nat) (s : State) : State :=
  let e := pubOf s i
  let b := activeB s e
  let n := if b then e.readersB else e.readersA
  if 0xFFFF ≤ n then outResp .refusedBay (pubCount 0 16 i s)
  else
    let s := modPub i (fun e => if b then { e with readersB := n + 1 } else { e with readersA := n + 1 }) s
    outResp (.bay b (if b then e.bayB else e.bayA) (if b then e.epochB else e.epochA)) s

/-- RELEASE of the reader port (R333). -/
def pubRelease (i : Nat) (b : Bool) (s : State) : State :=
  let e := pubOf s i
  let n := if b then e.readersB else e.readersA
  if n = 0 then pubCount 0 16 i s
  else modPub i (fun e => if b then { e with readersB := n - 1 } else { e with readersA := n - 1 }) s

/-- The last granule of a PUBLISH is visible (R334). -/
def publishDone (i : Nat) (s : State) : State :=
  let e := pubOf s i
  let b := activeB s e
  let s := modPub i (fun e => { e with
    writing := false, pend := false, cnt := bump 32 32 e.cnt
    epochA := if b then s.ep.committed else e.epochA
    epochB := if b then e.epochB else s.ep.committed }) s
  incTally e.vtally 1 s

/-- A partition reset ends a PUBLISH (R335). -/
def publishAbandon (i : Nat) (s : State) : State :=
  let b := activeB s (pubOf s i)
  modPub i (fun e => { e with
    writing := false, epochA := if b then 0xFFFFFFFF else e.epochA, epochB := if b then e.epochB else 0xFFFFFFFF }) s

/-! ### Prefetch schedules -/

def pfInFlight (s : State) : Nat := (s.part.map fun x => (x.2.pf.entries.filter (·.flying)).length).foldl (· + ·) 0

/-- Whether entry n is the next of its schedule to start: no eligible entry has an earlier start value, or the same and an earlier place. -/
def pfNext (s : State) (f : Pf) (n : Nat) : Bool := (pfReady s f).head? == some n

/-- Place of a partition's next transfer among the eligible ones of the block, which share what is left of 64 in the order in which they became eligible (R322). -/
def pfPlace (s : State) (p : Nat) : Nat := (s.tap.order.map (·.1)).idxOf p

/-- Whether a transfer may be made now: inside its partition's windows (spec/13 R372), and into T2 or T3 only while no partition is bound (R318). -/
def pfAllowed (s : State) (p : Nat) (e : PfEntry) : Bool :=
  inWindow s p e.src.toNat e.size && inWindow s p e.dst.toNat e.size && !(anyBound s && decide (2 ≤ tierOf e.dst.toNat))

/-- A stopping schedule disarms when no transfer flies, a finished one after its last arrival (R324). -/
def pfDisarm (p : Nat) (s : State) : State :=
  let f := (partOf s p).pf
  let flying := f.entries.any (·.flying)
  let done := f.passes != 0 && f.entries.all fun e => decide (f.passes ≤ e.pass)
  if f.armed && !flying && (f.stopping || done) then
    modPart p (fun x => { x with pf := { x.pf with armed := false, stopping := false } }) s
  else s

/-- A schedule disarms with FAULT when one of its transfers cannot be made (R324, R319; for a refused one DESIGN CHOICE, log 177). -/
def pfFail (p n : Nat) (e : PfEntry) (s : State) : State :=
  pfDisarm p (partCause p 4 (modPart p (fun x => { x with pf := { x.pf with
    entries := x.pf.entries.set n { e with flying := false }, fault := true, stopping := true } }) s))

/-- Whether the tier mover may start work for a partition: in chervil mode at the first cycle of a slot that names it, and while it holds no other (spec/12 R351). -/
def moverFree (s : State) (p : Nat) : Bool :=
  !s.mode.chervil || (slotGives s 29 p && s.clk.cycle % 128 == 0 && (SMap.find s.mode.held 29).isNone)

/-- In chervil mode a transfer holds the tier mover until it ends (spec/12 R351). -/
def holdMover (p : Nat) (s : State) : State :=
  if s.mode.chervil then { s with mode := { s.mode with held := SMap.put s.mode.held 29 p } } else s

def dropMover (p : Nat) (s : State) : State :=
  if SMap.find s.mode.held 29 = some p then { s with mode := { s.mode with held := SMap.del s.mode.held 29 } } else s

/-- A transfer starts (R322, spec/12 R351). -/
def pfStart (p n : Nat) (s : State) : State :=
  let f := (partOf s p).pf
  match f.entries[n]? with
  | some e =>
    if !(moverFree s p && padFree s e.src.toNat && padFree s e.dst.toNat && pfNext s f n && decide (pfInFlight s + pfPlace s p < Config.maxTransfers)) then s
    else if !pfAllowed s p e then
      pfRefresh (pfFail p n e (if inWindow s p e.src.toNat e.size && inWindow s p e.dst.toNat e.size then s else violate 0 s))
    else
      pfRefresh <| holdMover p <| modPart p (fun x => { x with pf := { x.pf with entries := x.pf.entries.set n { e with flying := true, began := coreCount s } } }) s
  | none => s

/-- DISARM: no new transfer starts, and those in flight arrive (R324). -/
def disarmOp (p : Nat) (s : State) : State := pfRefresh <| pfDisarm p (modPart p (fun x => { x with pf := { x.pf with stopping := x.pf.armed } }) s)

/-- A partition reset abandons the transfers in flight and disarms (R324). -/
def pfAbandon (p : Nat) (s : State) : State :=
  pfRefresh <| dropMover p <| modPart p (fun x => { x with pf := { x.pf with
    armed := false, stopping := false, entries := x.pf.entries.map fun e => { e with flying := false } } }) s

/-- A transfer arrives: its bytes become visible at DST and its tally is incremented, or it fails (R322, R319, R324). It does not while a granule holds an export-pending unit that it writes (spec/14 R398). -/
def pfArrive (p n : Nat) (s : State) : State :=
  let f := (partOf s p).pf
  match f.entries[n]? with
  | some e =>
    if !e.flying || pendLocked e.dst.toNat e.size s then s
    else
      let s := dropMover p (chargeEngine p 6 ((coreCount s - e.began) / 2) s)
      if !pfAllowed s p e then pfRefresh (pfFail p n e s)
      else
        let (s, bad, u) := memFetch e.src.toNat e.size s
        let e' := { e with flying := false }
        if bad then pfRefresh (pfFail p n e s)
        else
          let s := memWriteImg e.dst.toNat e.size u (preserve e.dst.toNat e.size s)
          let s := modPart p (fun x => { x with pf := { x.pf with
            entries := x.pf.entries.set n { e' with pass := e.pass + 1 } } }) s
          pfRefresh (pfDisarm p (lateCheck f.clock p (incTally e.tally 1 s)))
  | none => s

end Sys2Proof.Machine
end

