-- ==== Sys2Proof/Machine/Tensor.lean ====
section
/-! DEFINITION. Tensor descriptors: their fields and checks (spec/09 R257 to R259), the element walk and its granules (spec/05 R123 to R126), masks (R125), the byte stream of a tensor, and writes that are coded as one change (R127). -/

namespace Sys2Proof.Machine

def dWord (d : Desc) (i : Nat) : Word :=
  match i with
  | 0 => d.w0
  | 1 => d.w1
  | 2 => d.w2
  | 3 => d.w3
  | 4 => d.w4
  | _ => d.w5

def setDWord (d : Desc) (i : Nat) (v : Word) : Desc :=
  match i with
  | 0 => { d with w0 := v }
  | 1 => { d with w1 := v }
  | 2 => { d with w2 := v }
  | 3 => { d with w3 := v }
  | 4 => { d with w4 := v }
  | 5 => { d with w5 := v }
  | _ => d

def descWords (d : Desc) : List Word := [d.w0, d.w1, d.w2, d.w3, d.w4, d.w5]

def descOf (ws : List Word) : Desc :=
  { w0 := ws.getD 0 0, w1 := ws.getD 1 0, w2 := ws.getD 2 0, w3 := ws.getD 3 0, w4 := ws.getD 4 0, w5 := ws.getD 5 0 }

def dFmt (d : Desc) : Nat := fld 0 8 d.w1
def dDims (d : Desc) : Nat := fld 8 2 d.w1 + 1

/-- Size of a dimension; a dimension at or above NDIM + 1 has size 1 (R257). -/
def dSize (d : Desc) (i : Nat) : Nat := if i < dDims d then fld 0 32 (dWord d (2 + i)) else 1
def dStride (d : Desc) (i : Nat) : Int := if i < dDims d then toS 32 (fld 32 32 (dWord d (2 + i))) else 0
def dCount (d : Desc) : Nat := dSize d 0 * dSize d 1 * dSize d 2 * dSize d 3
def dSizes (d : Desc) : List Nat := (List.range 4).map (dSize d)

/-- Bytes of an atom: an element, or a block of 32 elements of an MX format (R326). -/
def atomBytes (d : Desc) : Nat := if fmtMx (dFmt d) then fmtBlockBytes (dFmt d) else fmtWidth (dFmt d)
def atomElems (d : Desc) : Nat := if fmtMx (dFmt d) then 32 else 1
def atomCount (d : Desc) : Nat := dCount d / atomElems d

/-- Whether a descriptor is dense (R258). -/
def dDense (d : Desc) : Bool :=
  dStride d 0 == 1 && ((List.range (dDims d)).drop 1).all fun i => dStride d i == dStride d (i - 1) * dSize d (i - 1)

/-- Index of walk element e in dimension i (R123). -/
def walkIndex (d : Desc) (e i : Nat) : Nat :=
  match i with
  | 0 => e % dSize d 0
  | 1 => e / dSize d 0 % dSize d 1
  | 2 => e / (dSize d 0 * dSize d 1) % dSize d 2
  | _ => e / (dSize d 0 * dSize d 1 * dSize d 2)

/-- Offset in atoms from BASE of the atom of walk element e (R257, R326). -/
def atomOff (d : Desc) (e : Nat) : Int :=
  if fmtMx (dFmt d) then
    (walkIndex d e 0 / 32 : Nat) + ((List.range 4).drop 1).foldl (fun a i => a + dStride d i / 32 * walkIndex d e i) 0
  else (List.range 4).foldl (fun a i => a + dStride d i * walkIndex d e i) 0

/-- Tiered byte address of the atom of walk element e. -/
def elemAddr (d : Desc) (e : Nat) : Nat :=
  tierOf d.w0.toNat * 2 ^ 62 + ((byteOf d.w0.toNat : Int) + atomOff d e * atomBytes d).toNat

/-- Lowest and highest atom offsets that a descriptor addresses. -/
def offRange (d : Desc) : Int × Int :=
  (List.range 4).foldl (fun a i =>
    let st := if fmtMx (dFmt d) ∧ 0 < i then dStride d i / 32 else dStride d i
    let n : Int := if fmtMx (dFmt d) ∧ i = 0 then (dSize d 0 / 32 : Nat) - 1 else (dSize d i : Int) - 1
    if 0 ≤ st then (a.1, a.2 + st * n) else (a.1 + st * n, a.2)) (0, 0)

/-- First byte, and byte after the last, that a descriptor addresses, without the tier. -/
def byteRange (d : Desc) : Int × Int :=
  let (lo, hi) := offRange d
  let b : Int := byteOf d.w0.toNat
  (b + lo * atomBytes d, b + (hi + 1) * atomBytes d)

/-- The checks of R259 and R257 on one descriptor; `out` for an output while any partition is bound to a job (spec/11 R318). -/
def descOk (d : Desc) (out : Bool) : Bool :=
  let f := dFmt d
  let (lo, hi) := byteRange d
  fmtKnown f && fld 10 47 d.w1 == 0 && (fmtMx f || byteOf d.w0.toNat % fmtWidth f == 0) &&
  (!fmtMx f || (dStride d 0 == 1 && dSize d 0 % 32 == 0 &&
    ((List.range (dDims d)).drop 1).all fun i => dStride d i % 32 == 0)) &&
  (dCount d == 0 || (decide (0 ≤ lo) && decide (hi ≤ 2 ^ 62))) &&
  !(out && decide (2 ≤ tierOf d.w0.toNat))

/-- Whether two descriptors are exact aliases: same tier, base, format, sizes and strides (R126). -/
def sameTensor (a b : Desc) : Bool :=
  a.w0 == b.w0 && dFmt a == dFmt b && dSizes a == dSizes b && (List.range 4).all fun i => dStride a i == dStride b i

/-- Whether the byte ranges of two descriptors meet otherwise than as an exact alias (R126). -/
def badOverlap (a b : Desc) : Bool :=
  let (al, ah) := byteRange a
  let (bl, bh) := byteRange b
  dCount a != 0 && dCount b != 0 && tierOf a.w0.toNat == tierOf b.w0.toNat && decide (al < bh ∧ bl < ah) && !sameTensor a b

/-- An output with stride 0 in a dimension of size above 1 (R123). -/
def outStrides (d : Desc) : Bool := (List.range 4).all fun i => decide (dSize d i ≤ 1) || dStride d i != 0

/-- Elements of a granule: 4,096 over the smallest element width of the data operands (R124); an MX operand counts one byte. -/
def granuleElems (ds : List Desc) : Nat :=
  4096 / (ds.map fun d => if fmtMx (dFmt d) then 1 else fmtWidth (dFmt d)).foldl min 8

/-- A mask bit of walk element e (R125). -/
def maskBit (s : State) (d : Desc) (e : Nat) : Bool :=
  (peekByte s (d.w0.toNat + e / 8)).getLsbD (e % 8)

/-- The masks that the descriptors of an instruction carry (R125). -/
def maskDescs (regs : Nat → Desc) (ds : List Desc) : List Desc :=
  (ds.filter fun d => bit 63 d.w1).map fun d => regs (fld 57 6 d.w1)

def active (s : State) (ms : List Desc) (e : Nat) : Bool := ms.all fun m => maskBit s m e

/-- The exceptions of a partition's lane work accumulate (R121). -/
def addFlags (p fl : Nat) (s : State) : State := modPart p (fun x => { x with laneFlags := x.laneFlags ||| fl }) s

/-! ### Elements and streams -/

/-- The stored bits of walk element e of a tensor without MX format; bits [31:24] of a K24 container read as 0 (spec/02 R33). -/
def readElem (s : State) (d : Desc) (e : Nat) : Nat :=
  let w := fmtWidth (dFmt d)
  let a := elemAddr d e
  let v := ofBytes ((List.range w).map fun i => peekByte s (a + i))
  if dFmt d = 3 then v % 16777216 else v

/-- Address of byte k of the stream of a tensor's atoms in walk order. -/
def streamAddr (d : Desc) (k : Nat) : Nat := elemAddr d (k / atomBytes d * atomElems d) + k % atomBytes d

/-- Bytes [k, k + n) of a tensor's stream. -/
def readStream (s : State) (d : Desc) (k n : Nat) : List Byte :=
  if dDense d then memBytes (streamAddr d k) n s
  else (List.range n).map fun i => peekByte s (streamAddr d (k + i))

/-- Writes to make, as address and bytes. -/
abbrev Writes := List (Nat × List Byte)

def streamWrites (d : Desc) (k : Nat) (bs : List Byte) : Writes :=
  if dDense d then [(streamAddr d k, bs)]
  else (bs.zipIdx).map fun x => (streamAddr d (k + x.2), [x.1])

/-- Units that a list of writes enters, each once. -/
def touchedBy (ws : Writes) (s : State) : List Touched :=
  ws.foldl (fun acc w => acc ++ (touchedUnits w.1 w.2.length s).filter fun t => !acc.contains t) []

/-- Makes writes as one change, but for those into a sealed page, which are counted (spec/11 R341, R342): an export's cut is preserved, and every coding unit entered is noted once with its delta, in the order of slots and stripes in which trains take contributions (R127 to R129, spec/04 R88). -/
def writeAll (note : Touched → UnitImg → State → State) (ws0 : Writes) (s : State) : State :=
  let ws := ws0.filter fun w => !entersSealed s w.1 w.2.length
  let s := if ws.length = ws0.length then s else violate 7 s
  let s := ws.foldl (fun s w => preserve w.1 w.2.length s) s
  let go (s : State) := ws.foldl (fun s w => memWrite w.1 w.2 s) s
  if !codingOn s then go s
  else
    let xs := sortByKey (fun t => unitKey t.sl t.st t.col) (touchedBy ws s)
    let old := imagesOf xs s
    let s' := go s
    notePeak ((xs.zip (old.zip (imagesOf xs s'))).foldl (fun s y => note y.1 (xorU y.2.1 y.2.2) s) s')

/-- Whether a coded unit that the writes enter makes the writer wait (R109, R110). -/
def writesBlocked (ws : Writes) (s : State) : Bool := ws.any fun w => writeBlocked w.1 w.2.length s

/-- Whether such a unit makes the writer wait for the commit or for a guard contribution (R109, R110). -/
def writesHeld (ws : Writes) (s : State) : Bool := ws.any fun w => writeHeld w.1 w.2.length s

/-- Checked reads of every extent: whether one returned poison or an error (R211, R319, R417). -/
def touchAll (xs : List (Nat × Nat)) (s : State) : State × Bool :=
  xs.foldl (fun a x =>
    let (t, b, _) := memFetch x.1 x.2 a.1
    (t, a.2 || b)) (s, false)

end Sys2Proof.Machine
end

