-- ==== Sys2Proof/Machine/Coll.lean ====
section
/-! DEFINITION. Exact reduction and collectives: the EPS format (spec/06 R150 to R154), the exact accumulator (R155, R156), ORDERED sums (R158), chunks, credits and checks (R166 to R171), the count phase (R168) and the ends of a collective (R172 to R176). The schedule, which the spec leaves to the block, is direct: each member sends to the owner of a shard (DEDUCED, log 37). -/

namespace Sys2Proof.Machine

/-! ### EPS -/

/-- An element in exact reduction: the accumulator at weight 2^-149, and its class: 0 finite, 1 NaN, 2 +infinity, 3 −infinity (R155). -/
abbrev Eps := Int × Nat

def mergeCls (a b : Nat) : Nat :=
  if a = 1 ∨ b = 1 ∨ (a = 2 ∧ b = 3) ∨ (a = 3 ∧ b = 2) then 1 else max a b

/-- The sum in the 384-bit two's-complement accumulator, and the merged class (R155). -/
def epsAdd (x y : Eps) : Eps := (toS 384 (ofS 384 (x.1 + y.1)), mergeCls x.2 y.2)

/-- The exact value and class of a binary32 pattern. -/
def epsOf (b : Nat) : Eps :=
  if isNan 23 b then (0, 1)
  else if isInf 23 b then (0, if fSign 23 b then 3 else 2)
  else
    let (v, q) := valOf 23 b
    (v * 2 ^ (q + 149).toNat, 0)

/-- The result of R156 as bits of a format with mb fraction bits. -/
def epsRound (mb : Nat) (x : Eps) : Nat :=
  match x.2 with
  | 1 => defaultNan mb
  | 2 => infOf mb false
  | 3 => infOf mb true
  | _ => (roundVal mb 0 x.1 (-149) false).1

def signedWidth (v : Int) : Nat := bitLen (if v < 0 then (-v - 1).toNat else v.toNat) + 1

def trailingZeros (v : Int) : Nat := (firstBelow 400 fun i => v.natAbs.testBit i).getD 0

/-- encode_sub of R154 with the layout of Table 6.1. -/
def encodeSub (xs : List Eps) : List Byte :=
  let special := xs.any fun x => x.2 != 0
  let vals := xs.map fun x => if x.2 = 0 then x.1 else 0
  let nz := vals.filter (· != 0)
  let t : Nat := match nz with
    | [] => 0
    | v :: vs => (vs.map trailingZeros).foldl min (trailingZeros v)
  let vals := vals.map fun v => v / 2 ^ t
  let w0 := (vals.map signedWidth).foldl max 1
  let w := if special then w0 + 2 else w0
  let fields := (vals.zip xs).map fun y => if special then ofS w (y.1 * 4 + y.2.2) else ofS w y.1
  let has (c : Nat) := b2n (xs.any fun x => x.2 == c)
  toBytes (3 + w) (pack ([(11, ofS 11 ((t : Int) - 149)), (9, w), (1, has 1), (1, has 2), (1, has 3), (1, 0)] ++
    fields.map fun f => (w, f)))

/-- One well-formed sub-block at the head of bytes, with the bytes behind it (R152, R153). -/
def decodeSub (bs : List Byte) : Option (List Eps × List Byte) :=
  let h := ofBytes (bs.take 3)
  let w := bitsOf 11 9 h
  let e := toS 11 (bitsOf 0 11 h)
  let fl := bitsOf 20 3 h
  if bs.length < 3 + w ∨ w < 1 ∨ 384 < w ∨ bitOf 23 h ∨ e < -149 ∨ 235 < e + w ∨ (fl ≠ 0 ∧ w < 3) then none
  else
    let x := ofBytes ((bs.drop 3).take w)
    let fields := (List.range 8).map fun j => bitsOf (w * j) w x
    let sh := (e + 149).toNat
    if fl = 0 then some (fields.map fun f => (toS w f * 2 ^ sh, 0), bs.drop (3 + w))
    else
      let es : List Eps := fields.map fun f => (toS (w - 2) (f / 4) * 2 ^ sh, f % 4)
      let ok := ((List.range 3).all fun i => fl.testBit i == es.any fun y => y.2 == i + 1) &&
        es.all fun y => y.2 == 0 || y.1 == 0
      if ok then some (es, bs.drop (3 + w)) else none

def decodeSubs : Nat → List Byte → Option (List Eps)
  | 0, bs => if bs.isEmpty then some [] else none
  | n + 1, bs => match decodeSub bs with
    | none => none
    | some (xs, r) => (decodeSubs n r).map (xs ++ ·)

/-- A span: 128 sub-blocks, the last ending at the last valid byte (R153). -/
def decodeSpan (bs : List Byte) : Option (List Eps) := decodeSubs 128 bs

def encodeSpan (xs : List Eps) : List Byte :=
  (List.range 128).flatMap fun b => encodeSub ((List.range 8).map fun i => xs.getD (8 * b + i) (0, 0))

/-! ### Lookup and numbering -/

def collKey (axes seq : Nat) (c : Coll) (p : Nat) : Bool := c.part == p && c.axes == axes && c.seq == seq

def findColl (s : State) (p axes seq : Nat) : Option Coll := s.coll.openC.find? fun c => collKey axes seq c p

def putColl (c : Coll) (s : State) : State :=
  { s with coll := { s.coll with
      openC := s.coll.openC.map fun d => if collKey c.axes c.seq d c.part then c else d } }

def dropColl (c : Coll) (s : State) : State :=
  { s with coll := { s.coll with openC := s.coll.openC.filter fun d => !collKey c.axes c.seq d c.part } }

def countColl (lo : Nat) (s : State) : State :=
  { s with coll := { s.coll with stat := bump lo 16 s.coll.stat } }

/-- Ranks of a member set in ascending order: those of the job whose coordinates equal this block's on the axes not in the mask (R160). On a block that serves a failed rank the coordinate is that of the rank it serves (DESIGN CHOICE, log 172). -/
def memberSet (s : State) (axes : Nat) : List Nat :=
  let here := (coordOfRank s (servedRank s)).getD s.fab.coord
  sortBy (fun a b => decide (a ≤ b)) (s.job.members.filter fun r => match coordOfRank s r with
    | some c => (List.range 4).all fun a => axes.testBit a || coordAt c a == coordAt here a
    | none => false)

/-- Shard boundaries of R164 in even mode. -/
def evenBounds (n p : Nat) : List Nat :=
  (List.range (p + 1)).map fun j => min n (1024 * (j * cdiv n 1024 / p))

def boundAt (c : Coll) (j : Nat) : Nat := c.bounds.getD j 0
def shardLen (c : Coll) (j : Nat) : Nat := boundAt c (j + 1) - boundAt c j
def rootRank (c : Coll) : Nat := c.members.getD 0 0

/-! ### Reports, DONE and outcomes -/

/-- DATA of a COLL message: sequence, status, axes, partition (Table 8.4; the places are the model's; DESIGN CHOICE, log 38). -/
def collData (seq st axes part : Nat) : Nat := pack [(32, seq), (8, st), (4, axes), (4, part)]

def sendColl (kind rank subject : Nat) (epoch seq st axes part : Nat) (s : State) : State :=
  sendTarra rank { tarraOf s kind subject s.job.inc epoch with data := collData seq st axes part } s

/-- Reports a status to the root, once (R172, R173). -/
def collReport (c : Coll) (st : Nat) (s : State) : State :=
  match findColl s c.part c.axes c.seq with
  | none => s
  | some c =>
    if c.doneSent || c.reportSent then s
    else sendColl 16 (rootRank c) (servedRank s) c.epoch c.seq st c.axes c.part (putColl { c with reportSent := true } s)

/-- Sends DONE when the last output is written and every chunk owed is sent (R172). -/
def collDone (c : Coll) (s : State) : State :=
  let spans (j : Nat) := if c.op = 0 ∨ c.op = 2 then cdiv (shardLen c j) 1024 else 0
  let fmt := if c.op = 2 then c.outFormat else c.format
  let gspans (j : Nat) :=
    let n := if c.op = 3 then (if j = c.root then c.elems else 0) else shardLen c j
    let d := descOf c.outd
    let k := if fmtMx fmt then n / 32 * atomBytes d else n * fmtWidth fmt
    cdiv k 4096
  let reduced := (c.op != 0 && c.op != 2) || (List.range (spans c.me)).all fun k => c.gathered.contains (1000000 + c.me, k)
  let gathered := c.op == 0 || (List.range c.members.length).all fun j =>
    j == c.me || (List.range (gspans j)).all fun k => c.gathered.contains (j, k)
  if c.started && c.moved && c.waiting.isEmpty && reduced && gathered && !c.doneSent && !c.reportSent then
    sendColl 17 (rootRank c) (servedRank s) c.epoch c.seq stOk c.axes c.part (putColl { c with doneSent := true } s)
  else s

def settleDone (p axes seq : Nat) (s : State) : State :=
  match findColl s p axes seq with
  | some c => collDone c s
  | none => s

/-- Bytes that a failed collective leaves in its outputs are free values (R174); an uneven one that has not begun its data phase leaves them unchanged (R168). The coded-store path holds such a byte like any write (spec/04 R109, R110). -/
def forgetOutput (c : Coll) (s : State) : State :=
  if c.uneven && c.started && !c.moved then s
  else
    let d := descOf c.outd
    (List.range (atomCount d * atomBytes d)).foldl (fun s k =>
      let (b, s) := freeByte s
      let ws : Writes := [(streamAddr d k, [b])]
      if writesBlocked ws s then holdWrite (BitVec.ofNat 64 (streamAddr d k)) [b] s else writeAll noteDelta ws s) s

/-- The actions of a step reduce that completes OK (R167). -/
def stepReduceEnd (c : Coll) (s : State) : State :=
  let d := descOf c.outd
  let vals := (List.range (shardLen c c.me)).map fun e => readElem s d e
  let nans := (vals.filter (isNan 23)).length
  let infs := (vals.filter (isInf 23)).length
  let flag := s.ep.flag || nans + infs != 0
  let s := { s with
    ep := { s.ep with flag := flag }
    upd := { s.upd with
      nonfiniteStat := if flag then s.upd.nonfiniteStat ||| BitVec.ofNat 64 (2 ^ 31) else s.upd.nonfiniteStat
      nonfiniteCnt := bumpBy 48 16 nans (bumpBy 32 16 infs s.upd.nonfiniteCnt) } }
  if s.ep.phase = 2 then setPhase 3 s else s

/-- A collective ends on this member with a status (R173, R174, R176). -/
def collEnd (c : Coll) (st rank : Nat) (s : State) : State :=
  let s := dropColl c s
  let o := (partOf s c.part).ops.find? fun o => o.kind == .coll c.axes c.seq
  let s := modPart c.part (fun x => { x with ops := x.ops.filter fun o => o.kind != .coll c.axes c.seq }) s
  let s := if st = stOk then (if c.step then stepReduceEnd c s else s)
    else
      let w := BitVec.ofNat 64 (pack [(17, rank), (3, 0), (4, c.part), (8, st), (32, c.seq)])
      let s := countColl 16 { s with
        coll := { s.coll with last := w } }
      partCause c.part 3 (forgetOutput c s)
  match o with
  | some o => slotOutcome c.part o st 0 s
  | none => s

/-! ### Chunks -/

def emptyChunk (c : Coll) (kind span piece pieces stage : Nat) (s : State) : ChunkMsg :=
  { epoch := c.epoch, seq := c.seq, span := span, piece := piece, pieces := pieces, kind := kind, mode := c.ordered
    op := c.op, axes := c.axes, part := c.part, format := c.format, crc := 0, bytes := 0, stage := stage
    origin := servedRank s, payload := [] }

def payloadChunk (c : Coll) (kind span piece pieces stage : Nat) (bs : List Byte) (s : State) : ChunkMsg :=
  let u := ofDense 0 bs
  { emptyChunk c kind span piece pieces stage s with crc := crcUnit u, bytes := bs.length, payload := u }

/-- Sends a chunk; a first hop or a rank that is out of reach is reported to the root (R173). -/
def sendChunk (c : Coll) (rank : Nat) (x : ChunkMsg) (s : State) : State :=
  let (s, st) := sendFrame { tag := (partOf s c.part).tag, part := c.part, typ := 6, rank := rank, body := .chunk x, ebound := true, epoch := c.epoch } s
  if st = stOk then s else collReport c st s

def creditKey (j stage : Nat) : Nat := j * 4 + stage

/-- Queues a chunk for member j, to leave against a credit (R166). -/
def queueChunk (j : Nat) (x : ChunkMsg) (c : Coll) : Coll := { c with waiting := c.waiting ++ [(j, x)] }

/-- Whether the collective area of 16 MiB has room for one more chunk beside those kept of every collective (R166). -/
def areaRoom (c : Coll) (s : State) : Bool :=
  let others := (s.coll.openC.filter fun d => !collKey c.axes c.seq d c.part).map fun d => d.kept.length
  decide (others.foldl (· + ·) c.kept.length + 1 ≤ 4096)

/-- Chunks that hold a credit leave, in order, while the collective area has room, and are kept until the credit returns (R166). -/
def pumpList : List (Nat × ChunkMsg) → Coll → State → List (Nat × ChunkMsg) → Coll × State
  | [], c, s, left => ({ c with waiting := left }, s)
  | (j, x) :: xs, c, s, left =>
    let n := SMap.look 0 c.credits (creditKey j x.stage)
    if n = 0 || !areaRoom c s then pumpList xs c s (left ++ [(j, x)])
    else
      let c := { c with credits := SMap.put c.credits (creditKey j x.stage) (n - 1), kept := c.kept ++ [(j, x)] }
      pumpList xs c (sendChunk c (c.members.getD j 0) x s) left

def pump (p axes seq : Nat) (s : State) : State :=
  match findColl s p axes seq with
  | none => s
  | some c =>
    let (c', s') := pumpList c.waiting c s []
    match findColl s' p axes seq with
    | some d => collDone { c' with reportSent := d.reportSent, doneSent := d.doneSent }
        (putColl { c' with reportSent := d.reportSent, doneSent := d.doneSent } s')
    | none => s'

/-- This member's exact partial sum of element e of the tensor (R155). -/
def partialAt (s : State) (c : Coll) (e : Nat) : Eps :=
  c.ins.foldl (fun a w => epsAdd a (epsOf (toF32 (dFmt (descOf w)) (readElem s (descOf w) e)))) (0, 0)

/-- One binary32 addition of ORDERED mode, with the flags gathered so far (R158, R121). -/
def ordAdd (a : FRes) (b : Nat) : FRes := let r := fAdd 23 0 a.1 b; (r.1, a.2 ||| r.2)

/-- This member's local value of element e in ORDERED mode, and the flags of its additions (R158). -/
def orderedLocal (s : State) (c : Coll) (e : Nat) : FRes :=
  let x (w : List Word) := toF32 (dFmt (descOf w)) (readElem s (descOf w) e)
  match c.ins with
  | [] => (0, 0)
  | w :: ws => ws.foldl (fun a v => ordAdd a (x v)) (x w, 0)

/-- The flags of this member's local additions, which are lane work of its partition (R159). -/
def orderedFlags (s : State) (c : Coll) : Nat :=
  if c.ordered then (List.range c.elems).foldl (fun a e => a ||| (orderedLocal s c e).2) 0 else 0

/-- Cuts bytes into pieces of 4,096 (R169). -/
def cutPieces : Nat → List Byte → List (List Byte)
  | 0, _ => []
  | n + 1, bs => if bs.isEmpty then [] else bs.take 4096 :: cutPieces n (bs.drop 4096)

/-- The REDUCE chunks of one span of member j's shard (R169). -/
def spanChunks (s : State) (c : Coll) (j k : Nat) : List ChunkMsg :=
  let len := shardLen c j
  let pos (i : Nat) := 1024 * k + i
  if c.ordered then
    let bs := (List.range 1024).flatMap fun i =>
      if pos i < len then toBytes 4 (orderedLocal s c (boundAt c j + pos i)).1 else [0, 0, 0, 0]
    [payloadChunk c 0 k 0 1 0 bs s]
  else
    let bs := encodeSpan ((List.range 1024).map fun i =>
      if pos i < len then partialAt s c (boundAt c j + pos i) else (0, 0))
    let ps := cutPieces 13 bs
    (ps.zipIdx).map fun p => payloadChunk c 0 k p.2 ps.length 0 p.1 s

/-- The GATHER chunks of a stream's bytes from this member (R165). -/
def gatherChunks (s : State) (c : Coll) (bs : List Byte) : List ChunkMsg :=
  ((cutPieces (bs.length / 4096 + 1) bs).zipIdx).map fun p => payloadChunk c 1 p.2 0 1 1 p.1 s

/-- Absorbs member i's values of a span of this member's own shard. -/
def absorbSpan (c : Coll) (i k : Nat) (xs : List Eps) : Coll :=
  let acc := (xs.zipIdx).foldl (fun m x =>
    if 1024 * k + x.2 < shardLen c c.me ∧ x.1 ≠ (0, 0) then
      SMap.put m (1024 * k + x.2) (epsAdd (SMap.look (0, 0) m (1024 * k + x.2)) x.1)
    else m) c.acc
  { c with acc := acc, absorbed := (i, k) :: c.absorbed }

/-- Keeps member i's ORDERED values of a span. -/
def keepOrdered (c : Coll) (i k : Nat) (xs : List Nat) : Coll :=
  let m := (xs.zipIdx).foldl (fun m x =>
    SMap.put m ((1024 * k + x.2) * c.members.length + i) (BitVec.ofNat 32 x.1)) c.ordv
  { c with ordv := m, absorbed := (i, k) :: c.absorbed }

/-- Segment length L of this block (R158). -/
def ordSeg (s : State) : Nat :=
  match s.fuse.grade with
  | .a => 256
  | .b => 192

/-- ordered_sum of R158 for an element of this member's shard. -/
def orderedSum (s : State) (c : Coll) (e : Nat) : FRes :=
  let p := c.members.length
  let st := (c.me + 1 + e / ordSeg s) % p
  let x (i : Nat) := (SMap.look 0 c.ordv (e * p + i % p)).toNat
  ((List.range p).drop 1).foldl (fun a r => ordAdd a (x (st + r))) (x st, 0)

/-- The rounded result of an element of this member's shard, in the output format, and the flags of lane work (R156, R158, R159). -/
def collResult (s : State) (c : Coll) (e : Nat) : FRes :=
  if c.ordered then
    let r := orderedSum s c e
    (ofF32 c.outFormat r.1, if c.outFormat = 2 then r.2 ||| narrowFlags 7 r.1 else r.2)
  else (epsRound (if c.outFormat = 2 then 7 else 23) (SMap.look (0, 0) c.acc e), 0)

/-- First element of the output that holds this member's shard. -/
def outBase (c : Coll) : Nat := if c.op = 0 then 0 else boundAt c c.me

/-- A span of this member's shard to which every member has contributed is rounded and written, once the coded-store path takes the writes (R156, R167, R170, spec/04 R109). The flags of the additions around the set go to the owner's partition (R159; DESIGN CHOICE, log 170). -/
def finishSpan (p axes seq k : Nat) (s : State) : State :=
  match findColl s p axes seq with
  | none => s
  | some c =>
    if !(List.range c.members.length).all (fun i => c.absorbed.contains (i, k)) || c.gathered.contains (1000000 + c.me, k) then s
    else
      let n := min 1024 (shardLen c c.me - 1024 * k)
      let w := fmtWidth c.outFormat
      let d := descOf c.outd
      let rs := (List.range n).map fun i => collResult s c (1024 * k + i)
      let ws : Writes := (rs.zipIdx).map fun r => (elemAddr d (outBase c + 1024 * k + r.2), toBytes w r.1.1)
      if writesBlocked ws s then markHold 16 s
      else
        putColl { c with gathered := (1000000 + c.me, k) :: c.gathered }
          (addFlags p (rs.foldl (fun a r => a ||| r.2) 0) (writeAll noteDelta ws s))

/-- An all-reduce whose own shard is finished gathers it to the others (R165). -/
def gatherOwn (p axes seq : Nat) (s : State) : State :=
  match findColl s p axes seq with
  | none => s
  | some c =>
    let n := cdiv (shardLen c c.me) 1024
    if c.op != 2 || c.gathered.contains (2000000, 0) ||
        !(List.range n).all (fun k => c.gathered.contains (1000000 + c.me, k)) then s
    else
      let w := fmtWidth c.outFormat
      let xs := gatherChunks s { c with format := c.outFormat }
        (readStream s (descOf c.outd) (boundAt c c.me * w) (shardLen c c.me * w))
      let c := { c with gathered := (2000000, 0) :: c.gathered }
      putColl (((List.range c.members.length).filter (· != c.me)).foldl (fun c j =>
        xs.foldl (fun c x => queueChunk j x c) c) c) s

/-- The writes of this member's own part at the start of an all-gather or of the root's broadcast. -/
def ownWrites (s : State) (c : Coll) : Writes :=
  let di := descOf (c.ins.getD 0 [])
  let d := descOf c.outd
  let aw := atomBytes d
  let one (off : Nat) (bs : List Byte) : Writes := if bs.isEmpty then [] else streamWrites d off bs
  match c.op with
  | 1 =>
    let by_ (n : Nat) := if fmtMx c.format then n / 32 * aw else n * aw
    one (by_ (boundAt c c.me)) (readStream s di 0 (by_ (shardLen c c.me)))
  | 3 => if c.me = c.root then one 0 (readStream s di 0 (c.elems / atomElems di * atomBytes di)) else []
  | _ => []

/-- Whether every other member has granted credits for the first data stage: an uneven collective moves data only then, so that a member without space leaves every output unchanged (R168; DESIGN CHOICE, log 156). -/
def allGranted (c : Coll) : Bool :=
  let stage := if c.op = 0 ∨ c.op = 2 then 0 else 1
  (List.range c.members.length).all fun j => j == c.me || (SMap.find c.credits (creditKey j stage)).isSome

/-- The data phase begins: what this member owes is queued, and its own part is taken (R164, R168). -/
def startData (p axes seq : Nat) (s : State) : State :=
  match findColl s p axes seq with
  | none => s
  | some c0 =>
    if !c0.ready || c0.moved || (c0.uneven && !allGranted c0) then s
    else if writesBlocked (ownWrites s c0) s then markHold 16 s
    else
    let c := { c0 with moved := true }
    let s := addFlags p (orderedFlags s c) (putColl c s)
    let others := (List.range c.members.length).filter (· != c.me)
    let s := match c.op with
      | 1 =>
        let xs := gatherChunks s c ((ownWrites s c).flatMap (·.2))
        let ws := ownWrites s c
        let s := putColl (others.foldl (fun c j => xs.foldl (fun c x => queueChunk j x c) c) c) s
        writeAll noteDelta ws s
      | 3 =>
        if c.me = c.root then
          let xs := gatherChunks s c ((ownWrites s c).flatMap (·.2))
          let ws := ownWrites s c
          let s := putColl (others.foldl (fun c j => xs.foldl (fun c x => queueChunk j x c) c) c) s
          writeAll noteDelta ws s
        else s
      | _ =>
        let c := others.foldl (fun c j =>
          (List.range (cdiv (shardLen c j) 1024)).foldl (fun c k =>
            (spanChunks s c j k).foldl (fun c x => queueChunk j x c) c) c) c
        let own := (List.range (cdiv (shardLen c c.me) 1024)).foldl (fun d k =>
          let e (i : Nat) := boundAt c c.me + 1024 * k + i
          let n := min 1024 (shardLen c c.me - 1024 * k)
          if c.ordered then keepOrdered d c.me k ((List.range n).map fun i => (orderedLocal s c (e i)).1)
          else absorbSpan d c.me k ((List.range n).map fun i => partialAt s c (e i))) c
        let s := putColl own s
        let s := (List.range (cdiv (shardLen c c.me) 1024)).foldl (fun s k => finishSpan p axes seq k s) s
        gatherOwn p axes seq s
    pump p axes seq s

/-- CRC of the parameters under R160; the record's layout is the model's (DESIGN CHOICE, log 38). -/
def paramCrc (c : Coll) : Nat :=
  (crc32c (toBytes 24 (pack [(8, c.axes), (8, c.op), (8, b2n c.ordered), (8, c.format), (64, c.elems), (32, c.epoch), (32, c.root)]))).toNat

/-- Whether this member's own space suffices (R303). -/
def spaceOk (c : Coll) : Bool :=
  let outN := dCount (descOf c.outd)
  match c.op with
  | 0 => decide (shardLen c c.me ≤ outN)
  | 2 => decide (c.elems ≤ outN)
  | 1 => decide (c.elems ≤ outN) && (c.uneven || decide (shardLen c c.me ≤ dCount (descOf (c.ins.getD 0 []))))
  | _ => decide (c.elems ≤ outN)

/-- Grants 32 credits to every other member for some stages (R166). -/
def grantCredits (stages : List Nat) (c : Coll) (s : State) : State :=
  ((List.range c.members.length).filter (· != c.me)).foldl (fun s j =>
    stages.foldl (fun s st =>
      sendChunk c (c.members.getD j 0) { emptyChunk c 4 0 0 0 st s with bytes := 32 } s) s) s

/-- Stages in which a collective moves data: reduction 0, gathering 1. -/
def dataStages (c : Coll) : List Nat := (if c.op = 0 ∨ c.op = 2 then [0] else []) ++ (if c.op = 0 then [] else [1])

/-- Boundaries are known: with space for this member's part, credits are granted for the data and it moves; else NO_ROOM is reported (R166, R168, R303). -/
def boundsReady (p axes seq : Nat) (s : State) : State :=
  match findColl s p axes seq with
  | none => s
  | some c =>
    if spaceOk c then startData p axes seq (grantCredits (dataStages c) c (putColl { c with ready := true } s))
    else collReport c stNoRoom s

/-- Every count record is held: BAD_COMMAND, which no report decides, so that TKJ_COLL_LAST names this block (R174; DESIGN CHOICE, log 171), or the boundaries (R168). -/
def decideCounts (p axes seq : Nat) (s : State) : State :=
  match findColl s p axes seq with
  | none => s
  | some c =>
    let n := c.members.length
    if !(List.range n).all (fun j => (SMap.find c.counts j).isSome) then s
    else
      let rs := c.counts.map (·.2)
      let total := (rs.map (·.1)).foldl (· + ·) 0
      let same := rs.all fun r => r.2.1 == c.elems && r.2.2 == paramCrc c
      let mx := fmtMx c.format && rs.any fun r => r.1 % 32 != 0
      if !same || total != c.elems || mx then collEnd c stBad (servedRank s) s
      else
        let bs := (List.range (n + 1)).map fun j =>
          ((List.range j).map fun i => (SMap.look (0, 0, 0) c.counts i).1).foldl (· + ·) 0
        boundsReady p axes seq (putColl { c with bounds := bs } s)

/-- Whether MODE, OP and FORMAT of a chunk are those of the receiver's own collective (R171); an all-reduce gathers in its output's format. Chunks of the count phase, its records, credits and NEEDs, pass: a difference there is decided by the parameter CRC (R168; DESIGN CHOICE, log 38). -/
def headFits (c : Coll) (x : ChunkMsg) : Bool :=
  x.kind == 2 || x.stage == 2 || x.op == c.op && x.mode == c.ordered && (x.format == c.format || (c.op == 2 && x.format == c.outFormat))

/-- TKJ_COLL_STAT.CHUNK_BAD (Table 6.9). -/
def chunkBad (s : State) : Nat := fld 48 16 s.coll.stat

/-- A chunk of a collective counts in CHUNK_BAD, and the collective notes that it did (R171). -/
def badChunk (c : Coll) (s : State) : State :=
  let s' := countColl 48 s
  if chunkBad s' = chunkBad s then s'
  else match findColl s c.part c.axes c.seq with
    | some d => putColl { d with same := (d.same.1, d.same.2.1, d.same.2.2 + 1) } s'
    | none => s'

def failKey (i : Nat) (x : ChunkMsg) : Nat := ((i * 8 + x.kind) * 2 ^ 40 + x.span) * 16 + x.piece

/-- Returns NEED for a chunk, or reports CHECK_FAIL after its fourth failed copy (R171). -/
def needChunk (c : Coll) (i : Nat) (x : ChunkMsg) (s : State) : State :=
  match findColl s c.part c.axes c.seq with
  | none => s
  | some c =>
    let n := SMap.look 0 c.fails (failKey i x) + 1
    let s := putColl { c with fails := SMap.put c.fails (failKey i x) n } s
    if 4 ≤ n then collReport c stCheckFail s
    else sendChunk c (c.members.getD i 0) { emptyChunk c 3 x.span x.piece x.pieces x.stage s with bytes := 0 } s

/-- Takes one CREDIT from member j (R166). -/
def takeCredit (c : Coll) (j : Nat) (x : ChunkMsg) : Coll :=
  let n := SMap.look 0 c.credits (creditKey j x.stage)
  let c := { c with credits := SMap.put c.credits (creditKey j x.stage) (n + x.bytes) }
  if x.pieces = 0 then c
  else { c with kept := c.kept.filter fun y => !(y.1 == j && y.2.span == x.span && y.2.piece == x.piece && y.2.stage == x.stage) }

/-- A collective starts with its epoch open: a kept outcome ends it at once, else credits are granted and its first phase begins (R166, R168, R175). -/
def startColl (c : Coll) (s : State) : State :=
  match s.coll.kept.find? fun k => k.part == c.part && k.axes == c.axes && k.seq == c.seq with
  | some k =>
    collEnd c k.status k.rank { s with coll := { s.coll with
      kept := s.coll.kept.filter fun y => !(y.part == c.part && y.axes == c.axes && y.seq == c.seq) } }
  | none =>
    let early := s.coll.credits.filter fun y => y.2.part == c.part && y.2.axes == c.axes && y.2.seq == c.seq
    let s := { s with coll := { s.coll with credits := s.coll.credits.filter fun y => !early.contains y } }
    let c := (early.filter fun y => headFits c y.2).foldl (fun c y => match c.members.findIdx? (· == y.1) with
      | some j => takeCredit c j y.2
      | none => c) { c with started := true }
    let s := if c.uneven then grantCredits [2] c (putColl c s) else putColl c s
    let s := (early.filter fun y => !headFits c y.2).foldl (fun s y => match c.members.findIdx? (· == y.1) with
      | some j => needChunk c j y.2 (countColl 48 s)
      | none => countColl 48 s) s
    let s := if c.step && s.ep.phase == 1 then setPhase 2 s else s
    let c := (findColl s c.part c.axes c.seq).getD c
    if c.uneven then
      let others := (List.range c.members.length).filter (· != c.me)
      let bs := toBytes 16 (pack [(48, c.count), (48, c.elems), (32, paramCrc c)])
      let c := { c with counts := SMap.put c.counts c.me (c.count, c.elems, paramCrc c) }
      let c := others.foldl (fun c j => queueChunk j (payloadChunk c 2 0 0 1 2 bs s) c) c
      decideCounts c.part c.axes c.seq (pump c.part c.axes c.seq (putColl c s))
    else boundsReady c.part c.axes c.seq (putColl { c with bounds := evenBounds c.elems c.members.length } s)

/-- Collectives of a partition that may start now: fewer than 8 run, the epoch is open, and no earlier one of the partition that names the epoch still waits, a step reduce that waits for the re-run wave apart (R162, R163, spec/02 R55, spec/07 R203). -/
def startWaiting (s : State) : State :=
  s.coll.openC.foldl (fun s c =>
    match findColl s c.part c.axes c.seq with
    | some d =>
      let run := (s.coll.openC.filter fun y => y.part == c.part && y.started).length
      let before := (s.coll.openC.takeWhile fun y => !collKey c.axes c.seq y c.part).any fun y =>
        y.part == c.part && !y.started && y.epoch == s.ep.epoch && !(y.step && s.ep.rerun)
      if !d.started && !before && decide (run < Config.maxColl) && d.epoch == s.ep.epoch && codingOn s && !(d.step && s.ep.rerun) then startColl d s else s
    | none => s) s

/-! ### Arrivals -/

/-- Whether a chunk is what the receiver's own collective expects (R171); data of a collective whose boundaries are not known, or whose space does not suffice, is not expected (R168). -/
def chunkFits (c : Coll) (i : Nat) (x : ChunkMsg) : Bool :=
  (x.kind == 2 || (x.op == c.op && x.mode == c.ordered)) &&
  match x.kind with
  | 0 => (c.op == 0 || c.op == 2) && x.format == c.format && decide (1 ≤ x.bytes ∧ x.bytes ≤ 4096) &&
      decide (x.piece < x.pieces) && decide (x.pieces ≤ 13) && (!c.ordered || (x.pieces == 1 && x.bytes == 4096)) &&
      c.ready && decide (x.span < cdiv (shardLen c c.me) 1024)
  | 1 =>
    let n := if c.op = 3 then (if i = c.root then c.elems else 0) else shardLen c i
    let d := descOf c.outd
    let k := n / atomElems d * atomBytes d
    c.op != 0 && x.format == (if c.op = 2 then c.outFormat else c.format) && x.piece == 0 && x.pieces == 1 &&
      c.ready && decide (4096 * x.span < k) && x.bytes == min 4096 (k - 4096 * x.span)
  | 2 => c.uneven && x.span == 0 && x.piece == 0 && x.bytes == 16
  | _ => false

/-- An accepted chunk returns its credit (R166). -/
def returnCredit (c : Coll) (i : Nat) (x : ChunkMsg) (s : State) : State :=
  sendChunk c (c.members.getD i 0) { emptyChunk c 4 x.span x.piece x.pieces x.stage s with bytes := 1 } s

/-- First byte and length of the first sub-block at place k or later that the bytes hold whole, or by its header alone, and that is not well formed (R153). -/
def firstBad : Nat → Nat → List Byte → Option (Nat × Nat)
  | 0, _, _ => none
  | n + 1, k, bs =>
    if bs.length < 3 then none
    else
      let w := bitsOf 11 9 (ofBytes (bs.take 3))
      if w < 1 ∨ 384 < w then some (k, 3)
      else if bs.length < 3 + w then none
      else match decodeSub bs with
        | some (_, r) => firstBad n (k + 3 + w) r
        | none => some (k, 3 + w)

/-- The piece that alone holds the first ill-formed sub-block of the pieces held from the first on without a gap, if one does (R171). -/
def badPiece (mine : List Piece) : Option Nat :=
  let n := ((List.range 13).takeWhile fun k => mine.any fun z => z.piece == k).length
  let held := (List.range n).filterMap fun k => mine.find? fun z => z.piece == k
  if held.dropLast.any fun z => z.bytes != 4096 then none
  else match firstBad 128 0 (held.flatMap fun z => denseU z.bytes 0 z.payload) with
    | some (a, k) => if a / 4096 = (a + k - 1) / 4096 then some (a / 4096) else none
    | none => none

/-- A checked REDUCE chunk: the span is absorbed, and its pieces' credits return, once all its pieces are held and well formed. A piece that alone holds an ill-formed sub-block is asked for again at once, every piece where only the whole span shows the fault (R153, R166, R170, R171). -/
def takeReduce (c : Coll) (i : Nat) (x : ChunkMsg) (s : State) : State :=
  if c.absorbed.contains (i, x.span) then s
  else if c.ordered then
    let n := min 1024 (shardLen c c.me - 1024 * x.span)
    let vals := (List.range n).map fun e => ofBytes (denseU 4 (4 * e) x.payload)
    let s := finishSpan c.part c.axes c.seq x.span (putColl (keepOrdered c i x.span vals) (returnCredit c i x s))
    gatherOwn c.part c.axes c.seq s
  else
    let y : Piece := { origin := i, kind := 0, span := x.span, piece := x.piece, pieces := x.pieces, bytes := x.bytes, payload := x.payload }
    let ps := c.pieces.filter (fun z => !(z.origin == i && z.span == x.span && z.piece == x.piece)) ++ [y]
    let mine := ps.filter fun z => z.origin == i && z.span == x.span
    match badPiece mine with
    | some q =>
      needChunk c i { x with piece := q } (badChunk c
        (putColl { c with pieces := ps.filter fun z => !(z.origin == i && z.span == x.span && z.piece == q) } s))
    | none =>
    if (List.range x.pieces).all fun k => mine.any fun z => z.piece == k then
      let bs := (List.range x.pieces).flatMap fun k => match mine.find? fun z => z.piece == k with
        | some z => denseU z.bytes 0 z.payload
        | none => []
      let rest := ps.filter fun z => !(z.origin == i && z.span == x.span)
      match decodeSpan bs with
      | some xs =>
        let s := mine.foldl (fun s z => returnCredit c i { x with piece := z.piece } s) s
        let s := finishSpan c.part c.axes c.seq x.span (putColl (absorbSpan { c with pieces := rest } i x.span xs) s)
        gatherOwn c.part c.axes c.seq s
      | none =>
        mine.foldl (fun s z => needChunk c i { x with piece := z.piece } (badChunk c s)) (putColl { c with pieces := rest } s)
    else putColl { c with pieces := ps } s

/-- A checked GATHER chunk is written into the output, once the coded-store path takes the write (R165, spec/04 R109). -/
def takeGather (c : Coll) (i : Nat) (x : ChunkMsg) (s : State) : State :=
  if c.gathered.contains (i, x.span) then s
  else
    let d := descOf c.outd
    let off := if c.op = 3 then 0 else boundAt c i / atomElems d * atomBytes d
    let ws := streamWrites d (off + 4096 * x.span) (denseU x.bytes 0 x.payload)
    if writesBlocked ws s then
      markHold 16 (putColl { c with heldIn := c.heldIn.filter (fun y => !(y.1 == i && y.2.span == x.span)) ++ [(i, x)] } s)
    else
      let s := writeAll noteDelta ws (returnCredit c i x s)
      match findColl s c.part c.axes c.seq with
      | some c => putColl { c with gathered := (i, x.span) :: c.gathered } s
      | none => s

/-- A count record is taken, once of each member (R168). -/
def takeCount (c : Coll) (i : Nat) (x : ChunkMsg) (s : State) : State :=
  if (SMap.find c.counts i).isSome then s
  else
  let v := ofBytes (denseU 16 0 x.payload)
  let s := returnCredit c i x s
  decideCounts c.part c.axes c.seq
    (putColl { c with counts := SMap.put c.counts i (bitsOf 0 48 v, bitsOf 48 48 v, bitsOf 96 32 v) } s)

/-- A CREDIT for a sequence that has not started is kept if it is among the next 8 that this member will start on the set (R166). -/
def keepCredit (x : ChunkMsg) (s : State) : State :=
  let next := (s.coll.openC.filter fun c => c.part == x.part && c.axes == x.axes && !c.started).foldl (fun n c => min n c.seq)
    (SMap.look 0 s.coll.seq (x.part * 16 + x.axes))
  if next ≤ x.seq ∧ x.seq < next + 8 then { s with coll := { s.coll with credits := s.coll.credits ++ [(x.origin, x)] } }
  else countColl 32 s

/-- Chunks of every collective leave as credits and the collective area allow. -/
def pumpColls (s : State) : State := s.coll.openC.foldl (fun s c => if c.started then pump c.part c.axes c.seq s else s) s

/-- A chunk of the open epoch reaches its partition (R166, R171). -/
def collChunk (x : ChunkMsg) (s : State) : State :=
  match findColl s x.part x.axes x.seq with
  | none => if x.kind = 4 then keepCredit x s else countColl 32 s
  | some c =>
    match c.members.findIdx? (· == x.origin) with
    | none => countColl 32 s
    | some i =>
      if !c.started then (if x.kind = 4 then keepCredit x s else countColl 32 s)
      else
      let c := { c with same := if c.same.1 = instant s then (c.same.1, c.same.2.1 + 1, c.same.2.2) else (instant s, 1, 0) }
      let s := putColl c s
      if !headFits c x then needChunk c i x (badChunk c s)
      else match x.kind with
      | 4 => pumpColls (startData c.part c.axes c.seq (putColl (takeCredit c i x) s))
      | 3 => match c.kept.find? fun y => y.1 == i && y.2.span == x.span && y.2.piece == x.piece && y.2.stage == x.stage with
        | some y => sendChunk c x.origin y.2 s
        | none => s
      | _ =>
        if !chunkFits c i x || crcUnit x.payload != x.crc || x.payload.any fun b => decide (x.bytes ≤ b.1) then
          needChunk c i x (badChunk c s)
        else
          let s := match x.kind with
            | 0 => takeReduce c i x s
            | 1 => takeGather c i x s
            | _ => takeCount c i x s
          pump c.part c.axes c.seq s

/-- Collectives whose writes had to wait go on (R167, spec/04 R109). -/
def collRetry (s : State) : State :=
  s.coll.openC.foldl (fun s c =>
    if !c.started then s
    else
      let s := startData c.part c.axes c.seq s
      let ks := ((c.absorbed.map (·.2)).eraseDups).filter fun k => !c.gathered.contains (1000000 + c.me, k)
      let s := ks.foldl (fun s k => finishSpan c.part c.axes c.seq k s) s
      let s := if ks.isEmpty then s else gatherOwn c.part c.axes c.seq s
      let s := match findColl s c.part c.axes c.seq with
        | some d => d.heldIn.foldl (fun s y => match findColl s c.part c.axes c.seq with
            | some d => takeGather d y.1 y.2 s
            | none => s) (putColl { d with heldIn := [] } s)
        | none => s
      if ks.isEmpty && c.heldIn.isEmpty && c.moved then s else pump c.part c.axes c.seq s) s

/-! ### The root and the outcome -/

def collOuts (s : State) (p axes : Nat) : List CollOut := s.coll.decided.filter fun k => k.part == p && k.axes == axes

/-- The root decides a sequence, keeps it among its last 16 decisions, and tells every member of the set (R173). -/
def decideColl (p axes seq st rank epoch : Nat) (s : State) : State :=
  let o : CollOut := { part := p, axes := axes, seq := seq, status := st, rank := rank }
  let mine := collOuts s p axes ++ [o]
  let keep := mine.drop (mine.length - 16)
  let others := s.coll.decided.filter fun k => !(k.part == p && k.axes == axes)
  let s := { s with coll := { s.coll with
    decided := others ++ keep
    roots := s.coll.roots.filter fun r => !(r.part == p && r.axes == axes && r.seq == seq) } }
  (memberSet s axes).foldl (fun s m => sendColl 18 m rank epoch seq st axes p s) s

/-- Whether the root of a set has yet to end a sequence itself: it has it open, or has not reached it. -/
def seqAhead (s : State) (p axes seq : Nat) : Bool :=
  (findColl s p axes seq).isSome || decide (SMap.look 0 s.coll.seq (p * 16 + axes) ≤ seq)

/-- A report reaches the root: it decides the sequence, or is answered with the decision, or for a sequence decided before the 16 kept with COLL_TIMEOUT (R173). -/
def rootReport (p axes seq st rank epoch : Nat) (s : State) : State :=
  match (collOuts s p axes).find? fun k => k.seq == seq with
  | some k => sendColl 18 rank k.rank epoch seq k.status axes p s
  | none =>
    let outs := collOuts s p axes
    if 16 ≤ outs.length ∧ outs.all (fun k => decide (seq < k.seq)) ∧ !seqAhead s p axes seq then sendColl 18 rank rank epoch seq stCollTimeout axes p s
    else decideColl p axes seq st rank epoch s

/-- A member's DONE reaches the root (R173). -/
def rootDone (p axes seq rank epoch : Nat) (s : State) : State :=
  if (collOuts s p axes).any fun k => k.seq == seq then s
  else
    let r := (s.coll.roots.find? fun r => r.part == p && r.axes == axes && r.seq == seq).getD { part := p, axes := axes, seq := seq }
    let r := if r.done.contains rank then r else { r with done := rank :: r.done }
    let s := { s with coll := { s.coll with
      roots := r :: s.coll.roots.filter fun y => !(y.part == p && y.axes == axes && y.seq == seq) } }
    if (memberSet s axes).all fun m => r.done.contains m then decideColl p axes seq stOk (servedRank s) epoch s else s

/-- Keeps the outcome of a sequence that has not started here, 16 at most (R175). -/
def keepOutcome (o : CollOut) (s : State) : State :=
  let mine := s.coll.kept.filter fun k => k.part == o.part && k.axes == o.axes
  let others := s.coll.kept.filter fun k => !(k.part == o.part && k.axes == o.axes)
  if mine.any fun k => k.seq == o.seq then s
  else if mine.length < 16 then { s with coll := { s.coll with kept := o :: s.coll.kept } }
  else
    let all := sortBy (fun (a b : CollOut) => decide (a.seq ≤ b.seq)) (o :: mine)
    countColl 32 { s with coll := { s.coll with kept := all.take 16 ++ others } }

/-- The outcome reaches a member; the chunks that came in its core cycle count as dropped, and no more in CHUNK_BAD. What they did to outputs that are complete or undefined, and the CREDIT or NEED that answered them, stands (R171, R173, R174, R175; DESIGN CHOICE, log 188). -/
def collOutcome (p axes seq st rank : Nat) (s : State) : State :=
  match findColl s p axes seq with
  | some c =>
    let late := if c.same.1 = instant s then c.same.2 else (0, 0)
    let stat := setFld 48 16 (chunkBad s - late.2) s.coll.stat
    if c.started then startWaiting (collEnd c st rank { s with coll := { s.coll with stat := bumpBy 32 16 late.1 stat } })
    else keepOutcome ⟨p, axes, seq, st, rank⟩ s
  | none =>
    if SMap.look 0 s.coll.seq (p * 16 + axes) ≤ seq then keepOutcome ⟨p, axes, seq, st, rank⟩ s else s

/-- A member's collective timer expires: COLL_TIMEOUT is reported unless DONE was sent, whatever was reported before (R172). -/
def collTimer (p axes seq : Nat) (s : State) : State :=
  match findColl s p axes seq with
  | some c =>
    if c.started && !c.doneSent && !c.timedOut then
      sendColl 16 (rootRank c) (servedRank s) c.epoch c.seq stCollTimeout c.axes c.part
        (putColl { c with timedOut := true, reportSent := true } (countColl 0 s))
    else s
  | none => s

/-- Ends a list of collectives on this member with a status of its own, or where asked with the outcome held (R175, R176). -/
def collAbort (cs : List Coll) (st : Nat) (held : Bool) (s : State) : State :=
  cs.foldl (fun s c => match findColl s c.part c.axes c.seq with
    | some d =>
      let mine (k : CollOut) : Bool := k.part == c.part && k.axes == c.axes && k.seq == c.seq
      let kept := s.coll.kept.find? mine
      let s := { s with coll := { s.coll with kept := s.coll.kept.filter fun k => !mine k } }
      match kept.filter fun _ => held with
      | some k => collEnd d k.status k.rank s
      | none => collEnd d st (servedRank s) s
    | none => s) s

/-- Verdict on a member of a set: its collectives end PEER_FAILED unless their outcome is held (R176). -/
def collPeerFailed (rank : Nat) (s : State) : State :=
  collAbort (s.coll.openC.filter fun c => c.members.contains rank) stPeerFailed true s

/-- Partition reset: ABORTED_RESET, and COLL_TIMEOUT to each root at once, whatever was reported before DONE (R172, R176). -/
def collReset (p : Nat) (s : State) : State :=
  let cs := s.coll.openC.filter fun c => c.part == p
  let s := cs.foldl (fun s c =>
    if c.doneSent then s else sendColl 16 (rootRank c) (servedRank s) c.epoch c.seq stCollTimeout c.axes c.part (putColl { c with reportSent := true } s)) s
  collAbort cs stAborted false s

/-- Flush: unstarted collectives complete FLUSHED, and give their numbers back where no later one of the set has started; the outcome kept for a number that is not given back is kept no more (R162, R175, R176). -/
def collFlush (p : Nat) (s : State) : State :=
  let cs := s.coll.openC.filter fun c => c.part == p && !c.started
  cs.reverse.foldl (fun s c =>
    let s := dropColl c s
    let o := (partOf s p).ops.find? fun o => o.kind == .coll c.axes c.seq
    let s := modPart p (fun x => { x with ops := x.ops.filter fun o => o.kind != .coll c.axes c.seq }) s
    let k := p * 16 + c.axes
    let s := if (c.seq + 1) % 2 ^ 32 = SMap.look 0 s.coll.seq k then { s with coll := { s.coll with seq := SMap.put s.coll.seq k c.seq } }
      else { s with coll := { s.coll with kept := s.coll.kept.filter fun y => !(y.part == p && y.axes == c.axes && y.seq == c.seq) } }
    match o with
    | some o => slotOutcome p o stFlushed 0 s
    | none => s) s

end Sys2Proof.Machine
end

