-- ==== Sys2Proof/Machine/Rebuild.lean ====
section
/-! DEFINITION. Rebuild (spec/07 R188 to R207), unit repair (R211) and audit (R208 to R210): coded images (Table 7.4), the plan of R194, the messages of R471, half-chains (R196, R197), what the target writes (R201, R202), and the audit's syndromes and corrections (Table 7.8). -/

namespace Sys2Proof.Machine

/-! ### Coded images (R192) -/

/-- Raw deltas formed for a column at row t and not yet sent. -/
def unsentAt (s : State) (sl st t c : Nat) : UnitImg :=
  match SMap.find s.cod.out (outKey sl st t c) with
  | none => []
  | some o =>
    let a := match o.ready with
      | some f => (f.payload.getD [])
      | none => []
    xorU a (o.pend.getD [])

/-- Lowest row of a stripe whose holder is live. -/
def liveRow (s : State) (sl st : Nat) : Nat :=
  let g := grpOf s sl
  ((List.range g.m).find? fun t => posLive g (rowMember g st t)).getD 0

/-- The next live row of a stripe behind row t, in turn. -/
def nextLiveRow (s : State) (sl st t : Nat) : Nat :=
  let g := grpOf s sl
  let rows := (List.range g.m).filter fun t => posLive g (rowMember g st t)
  ((rows.filter fun r => decide (t < r)) ++ rows).headD t

/-- Whether page n is sealed and not retiring. -/
def pageSealed (s : State) (n : Nat) : Bool := (pageOf s n).isSealed && !(pageOf s n).retiring

/-- Coded image of a column that this block owes, as parity row t has it; none where Table 7.4 gives none. With no row, the image that holds every contribution formed: what a row made fresh takes (R202). -/
def codedImage (s : State) (sl st c : Nat) (t : Option Nat) : Option UnitImg :=
  let g := grpOf s sl
  let u := (colContent s sl st c).1
  match g.mode with
  | 0 => some (xorU u (xorU (mergedDelta s sl st c) ((t.map fun t => unsentAt s sl st t c).getD [])))
  | 1 =>
    if isScalarCol s sl st c then some (SMap.look [] s.cod.shadow (unitKey sl st c))
    else if SMap.look false s.cod.dirty (unitKey sl st c) then none else some u
  | _ =>
    if !ownCol g st c then some u
    else match colLoc s sl st c with
      | some (i, r, j) => some (if pageSealed s (pageAt s i r (regionAddr r + 4096 * j)) then u else [])
      | none => some []

/-- A parity unit read as a source: its header and unit are checked; a mismatch sets SUSPECT and is counted (R79). -/
def parityRead (sl st t : Nat) (s : State) : State × Option UnitImg :=
  match parityAt s sl st t with
  | none => (s, none)
  | some (ua, ha) =>
    let h := readParHdr s ha
    let u := parityImg s h ua
    let wrongHdr := h.valid && (h.row != t || h.mode != (grpOf s sl).mode)
    let wrongCrc := crcUnit u != h.crc
    let count (b : Bool) (lo : Nat) (s : State) : State :=
      if b then { s with cod := { s.cod with unitCheck := bump lo 16 s.cod.unitCheck } } else s
    if h.suspect then (s, none)
    else if wrongHdr || wrongCrc then (writeParHdr ha { h with suspect := true } (count wrongHdr 0 (count wrongCrc 16 s)), none)
    else (s, some u)

/-! ### Matrices over GF(2^8) and the plan (R194) -/

def scaleRow (c : Byte) (r : List Byte) : List Byte := r.map (gfMul c)
def addRow (a b : List Byte) : List Byte := List.zipWith (· ^^^ ·) a b

/-- One pivot of Gauss-Jordan elimination. -/
def gfPivot (n : Nat) (m : List (List Byte)) (i : Nat) : List (List Byte) :=
  match (List.range n).find? fun r => decide (i ≤ r) && (m.getD r []).getD i 0 != 0 with
  | none => m
  | some p =>
    let pr := scaleRow (gfInv ((m.getD p []).getD i 0)) (m.getD p [])
    (((m.set p (m.getD i [])).set i pr).zipIdx).map fun x => if x.2 = i then x.1 else addRow x.1 (scaleRow (x.1.getD i 0) pr)

/-- gf_matrix_inverse of R194. -/
def gfMatInv (a : List (List Byte)) : List (List Byte) :=
  let n := a.length
  let aug := (a.zipIdx).map fun x => x.1 ++ (List.range n).map fun j => if j = x.2 then (1 : Byte) else 0
  ((List.range n).foldl (gfPivot n) aug).map (·.drop n)

/-- Coefficient of source (row t or column x) in the solution of unknown column u (R194). -/
def colCoef (cols rows : List Nat) (u : Nat) (isRow : Bool) (x : Nat) : Byte :=
  let inv := gfMatInv (rows.map fun t => cols.map fun c => coef t c)
  let r := inv.getD (cols.idxOf u) []
  if isRow then (if rows.contains x then r.getD (rows.idxOf x) 0 else 0)
  else (rows.zipIdx).foldl (fun a t => a ^^^ gfMul (r.getD t.2 0) (coef t.1 x)) 0

/-- Coefficient of a source in the chain of a target unit: tkind 0 a data column, 1 a parity row (R194). -/
def chainCoef (cols rows : List Nat) (tkind index : Nat) (isRow : Bool) (x : Nat) : Byte :=
  if tkind = 0 then colCoef cols rows index isRow x
  else
    let base := if isRow then 0 else coef index x
    cols.foldl (fun a u => a ^^^ gfMul (coef index u) (colCoef cols rows u isRow x)) base

/-- A column state as a number that orders as R194 ranks: None above every count. -/
def stateKey (r : StateRec) : Nat := (if r.past then 128 else 0) + r.count

def stateFor (sts : List StateRec) (sl st t c : Nat) : Nat :=
  ((sts.find? fun r => r.slot == sl && r.stripe == st && r.row == t && r.col == c && !r.noImage).map stateKey).getD 0

/-- plan of R194: the rows for the unknown columns, or none when the stripe is undecodable. -/
def planRows (sts : List StateRec) (sl st : Nat) (cols rowsOk : List Nat) : Option (List Nat) :=
  let top (t : Nat) := (cols.map fun c => stateFor sts sl st t c).foldl max 0
  let cand := sortBy (fun a b => decide (top b < top a) || (top a == top b && decide (a ≤ b))) rowsOk
  let rows := cand.take cols.length
  let same := cols.all fun c => rows.all fun t => rows.all fun v => stateFor sts sl st t c == stateFor sts sl st v c
  if rows.length < cols.length || (decide (2 ≤ rows.length) && !same) then none else some rows

/-! ### Runs -/

def rebOf (s : State) (failed : Nat) : Option Rebuild := s.reb.runs.find? fun r => r.failed == failed

def putRun (r : Rebuild) (s : State) : State :=
  { s with reb := { s.reb with runs := r :: s.reb.runs.filter fun x => x.failed != r.failed } }

/-- The rank that the failed rank's role is served at: itself on a standby, the spread home otherwise (R189, R206, R220). -/
def runRank (r : Rebuild) : Nat := if r.spread then r.target else r.failed

/-- Spread home of a slot as a position: the first live one after the failed one in the positive ring direction (R206). -/
def slotHome (s : State) (sl f : Nat) : Nat :=
  let g := grpOf s sl
  ((((List.range (gSize g)).map fun i => (f + 1 + i) % gSize g).filter (· != f)).find? (posLive g)).getD 0

/-- Units of a stripe that this block holds: whether a row, and its column or row. -/
def myUnits (s : State) (sl st : Nat) : List (Bool × Nat) :=
  let g := grpOf s sl
  let own := if isMember g && (openRunAt s sl g.self).isNone then
      let d := roleNo g g.self st
      [if d < g.m then (true, d) else (false, d - g.m)]
    else []
  let hosted := (s.reb.hosted.filter fun h => h.slot == sl && h.stripe == st &&
      !(s.reb.runs.any fun r => !r.closed && r.slots.contains (sl, h.pos))).map fun h => (h.kind == 1, h.index)
  own ++ hosted

/-- Whether a unit is a source of a plan: a known column, or a chosen row. -/
def isSource (pl : PlanSet) (x : Bool × Nat) : Bool :=
  if x.1 then (pl.cols.map (·.2)).contains x.2 else !(pl.cols.map (·.1)).contains x.2

/-- The rank to which the chain of a unit of a plan runs: the target, or the host of a unit that an open spread rebuild of it brings back (R206). -/
def chainDest (s : State) (pl : PlanSet) (tkind index : Nat) : Nat :=
  let g := grpOf s pl.slot
  let f := if tkind = 0 then colMember g pl.stripe index else rowMember g pl.stripe index
  match openRunAt s pl.slot f with
  | some r => if r.spread && pl.target == r.target then posRank s g (hostPos s r pl.slot f pl.stripe tkind) else pl.target
  | none => pl.target

/-- Units that the chains of a plan bring: kind and number. -/
def planUnits (pl : PlanSet) : List (Nat × Nat) := pl.tcols.map (fun c => (0, c)) ++ pl.trows.map (fun t => (1, t))

/-- Half of a chain and number of hops from a coordinate to the target's, by the shortest ring path; ties go positive (R196). -/
def halfOf (s : State) (g : Group) (src dst : Nat) : Nat × Nat :=
  let d := torusDim s g.axis
  let up := (coordAt dst g.axis + d - coordAt src g.axis % d) % d
  if up ≤ d - up then (0, up) else (1, d - up)

/-- Sources of one half-chain as positions, farthest first. -/
def halfSources (s : State) (pl : PlanSet) (dest half : Nat) : List Nat :=
  let g := grpOf s pl.slot
  let dc := (translate s dest).getD 0
  let pos (j : Nat) := halfOf s g ((translate s (posRank s g j)).getD 0) dc
  let all := (List.range (gSize g)).filterMap fun j =>
    let d := roleNo g j pl.stripe
    if isSource pl (if d < g.m then (true, d) else (false, d - g.m)) then holderPos s pl.slot pl.stripe j else none
  sortBy (fun a b => decide ((pos b).2 ≤ (pos a).2)) (all.eraseDups.filter fun j => (pos j).2 != 0 && (pos j).1 == half)

/-- Whether a row is one that a rebuild makes fresh, as against a unit repair. -/
def freshRow (s : State) (pl : PlanSet) (tkind index : Nat) : Bool :=
  tkind == 1 && (openRunAt s pl.slot (rowMember (grpOf s pl.slot) pl.stripe index)).isSome

/-- The row as which a chain's sources give their coded images: the first chosen one, that of a repaired parity unit, or none (R192). -/
def imageRow (s : State) (pl : PlanSet) (tkind index : Nat) : Option Nat :=
  match pl.cols with
  | c :: _ => some c.2
  | [] => if freshRow s pl tkind index then none else some index

/-- Last sequence numbers that this block reports in a chain (R202): of its own columns, and, by a chosen row, of the unknown columns (DEDUCED, log 44). -/
def chainCounts (s : State) (pl : PlanSet) (tkind index : Nat) (m : SMap Nat) : SMap Nat :=
  let row := if tkind = 1 then index else (pl.cols.map (·.2)).getD 0 0
  (myUnits s pl.slot pl.stripe).foldl (fun m x =>
    if !isSource pl x then m
    else if x.1 then
      match parityAt s pl.slot pl.stripe x.2 with
      | some (_, ha) =>
        let h := readParHdr s ha
        pl.cols.foldl (fun m c =>
          let n := if h.valid && h.epoch == pl.epoch then SMap.look 0 h.seq c.1 else 0
          if n = 0 then m else SMap.put m c.1 n) m
      | none => m
    else
      let k := outKey pl.slot pl.stripe row x.2
      let n := match SMap.find s.cod.out k with
        | some o => if o.epoch = pl.epoch then o.last else 0
        | none => 0
      let n := if n = 0 ∧ pl.epoch + 1 = s.ep.epoch then SMap.look 0 s.cod.lastSeq k else n
      if n = 0 then m else SMap.put m x.2 n) m

/-- The terms of this block in the chain of a unit, added to a squeezed sum; false where an image is none. A delta that waits for a row which a rebuild makes fresh goes into that row (R202). -/
def addTerms (pl : PlanSet) (tkind index : Nat) (q : Squeezed) (s : State) : State × Squeezed × Bool :=
  let cols := pl.cols.map (·.1)
  let rows := pl.cols.map (·.2)
  let t := imageRow s pl tkind index
  let fresh := freshRow s pl tkind index
  ((myUnits s pl.slot pl.stripe).filter (isSource pl)).foldl (fun a x =>
    let (s, q, ok) := a
    let s := if fresh && !x.1 then formPend pl.slot pl.stripe index x.2 pl.epoch s else s
    let (s, u) := if x.1 then parityRead pl.slot pl.stripe x.2 s else (s, codedImage s pl.slot pl.stripe x.2 t)
    match u with
    | some u => (s, addSqueezed q (scaleU (chainCoef cols rows tkind index x.1 x.2) u), ok)
    | none => (s, q, false)) (s, q, true)

/-- Position of this block in a slot. -/
def myPos (s : State) (sl : Nat) : Nat := (grpOf s sl).self

/-! ### Chain frames -/

/-- The detour of the last hop in stripes of odd cycle number: through the adjacent ring on axis AUX (R196). -/
def auxDetour (s : State) (h : FrameHdr) (x : ChainMsg) : FrameHdr :=
  let g := grpOf s x.slot.val
  let d := torusDim s g.axis
  let aux := fld 58 2 s.reb.ctl.now
  let gap := (coordAt h.destCoord g.axis + d - coordAt s.fab.coord g.axis % d) % d
  let last := if h.rdir = 0 then gap == 1 else gap + 1 == d
  if (x.stripe / gSize g) % 2 == 1 && last && aux != g.axis && decide (1 < torusDim s aux) && h.route == 1 &&
      ((List.range 4).all fun b => b == g.axis || coordAt s.fab.coord b == coordAt h.destCoord b) then
    { h with route := 2, daxis := aux, ddir := b2n x.half }
  else h

/-- Sends a chain frame that this block starts. -/
def startChain (dest : Nat) (x : ChainMsg) (s : State) : State :=
  let g := grpOf s x.slot.val
  match translate s dest with
  | none => s
  | some c =>
    let f := formFrame s { tag := s.job.tag, part := stepPartNo s, typ := 4, rank := dest, body := .chain x, ebound := true
                           accum := true, epoch := x.epoch, route := 1, raxis := g.axis, rdir := b2n x.half, daxis := g.axis } c
    (sendFormed ⟨auxDetour s f.hdr x, f.body⟩ s).1

/-- Forwards a chain frame. -/
def forwardChain (port : Nat) (h : FrameHdr) (x : ChainMsg) (s : State) : State :=
  forward (some port) ⟨auxDetour s h x, .chain x⟩ s

/-- Starts every half-chain of a plan whose farthest source this block is (R471). A source without an image leaves its SOURCES bit clear, so that the chain fails its check at the target (DEDUCED, log 44). -/
def startHalves (pl : PlanSet) (s : State) : State :=
  (planUnits pl).foldl (fun s u =>
    let dest := chainDest s pl u.1 u.2
    [0, 1].foldl (fun s half =>
      if (halfSources s pl dest half).head? = some (myPos s pl.slot) && !servesRank s dest then
        let (s, q, ok) := addTerms pl u.1 u.2 (squeeze 0 []) s
        startChain dest { epoch := pl.epoch, stripe := pl.stripe, slot := Fin.ofNat 16 pl.slot, tkind := u.1, index := u.2
                          half := half == 1, sources := if ok then 2 ^ myPos s pl.slot else 0, attempt := pl.attempt
                          count := chainCounts s pl u.1 u.2 [], origin := servedRank s, unit := q } s
      else s) s) s

/-- The plan held here for the chain of a unit that runs to a rank. -/
def planFor (s : State) (x : ChainMsg) (dest : Nat) : Option PlanSet :=
  s.reb.plans.find? fun pl => pl.slot == x.slot.val && pl.stripe == x.stripe && pl.epoch == x.epoch &&
    pl.attempt == x.attempt && (planUnits pl).contains (x.tkind, x.index) && chainDest s pl x.tkind x.index == dest

/-- A chain frame at a block that is not its target: the term is added, or the frame waits for the plan, or it is forwarded (R196, R471). -/
def chainHop (port : Nat) (h : FrameHdr) (x : ChainMsg) (s : State) : State :=
  let g := grpOf s x.slot.val
  if (myUnits s x.slot.val x.stripe).isEmpty then forwardChain port h x s
  else match planFor s x h.destRank with
    | none =>
      if x.epoch < s.ep.epoch ∧ !s.reb.runs.any fun r => !r.closed && (!r.decided || r.epoch == x.epoch) then forwardChain port h x s
      else storeFrame ⟨port, ⟨h, .chain x⟩⟩ (s.cod.store.length + 1) s
    | some pl =>
      if ((myUnits s pl.slot pl.stripe).filter (isSource pl)).isEmpty || x.sources.testBit g.self || !(halfSources s pl h.destRank (b2n x.half)).contains g.self then forwardChain port h x s
      else
        let (s, q, ok) := addTerms pl x.tkind x.index x.unit s
        let x' := if ok then
            { x with unit := q, sources := x.sources ||| 2 ^ g.self, count := chainCounts s pl x.tkind x.index x.count }
          else x
        forwardChain port h x' s

/-- Chain frames in the train store that a plan now lets go on. -/
def releaseChains (s : State) : State :=
  let go := s.cod.store.filter fun y => match y.frame.body with
    | .chain c => y.frame.hdr.typ == 4 && (planFor s c y.frame.hdr.destRank).isSome
    | _ => false
  let s := { s with cod := { s.cod with store := s.cod.store.filter fun y => !go.contains y } }
  go.foldl (fun s y => match y.frame.body with
    | .chain c => chainHop y.port y.frame.hdr c s
    | _ => s) s

/-! ### Plans -/

/-- Puts a plan in force at this block. -/
def setPlan (pl : PlanSet) (s : State) : State :=
  let s := { s with reb := { s.reb with
    plans := pl :: s.reb.plans.filter fun y => !(y.slot == pl.slot && y.stripe == pl.stripe && y.target == pl.target) } }
  releaseChains (startHalves pl s)

/-- PLAN entries that name a parity row as a unit to bring: the row given twice, which no choice of rows gives (DEDUCED, log 43). -/
def rowEntries (t : Nat) : List (Nat × Nat) := [(0, t), (0, t)]

/-- A source whose own FRESH-slot unit is the one that a verifier asks for, and has no coded image, says so with a STATE entry (R301, R471; DEDUCED, log 158). -/
def sayNone (src epoch attempt sl st : Nat) (cols : List Nat) (s : State) : State :=
  if servesRank s src then s
  else (cols.filter fun c => (myUnits s sl st).contains (false, c) && (codedImage s sl st c none).isNone).foldl (fun s c =>
    sendNoticeFrame 3 0 src epoch attempt [{ noticeEntry sl st 0 c 0 with noImage := true }] s) s

/-- The PLAN entries of one stripe, from a target (R471); from the target of a rebuild they say that its chains have started (R193). -/
def takePlan (src epoch attempt sl st : Nat) (es : List (Nat × Nat)) (s : State) : State :=
  let g := grpOf s sl
  let twice (t : Nat) := decide (2 ≤ (es.filter fun e => e.2 == t).length)
  let rowT := ((es.filter fun e => twice e.2).map (·.2)).eraseDups
  let cols := es.filter fun e => !twice e.2
  let ofTarget (r : Rebuild) : Bool := !r.closed && runRank r == src
  let s := { s with reb := { s.reb with runs := s.reb.runs.map fun r =>
    (if ofTarget r && r.slots.any (fun x => x.1 == sl) then { r with chained := true } else r) } }
  let s := if s.reb.runs.any ofTarget then s else sayNone src epoch attempt sl st (cols.map (·.1)) s
  let mineOf (j : Nat) := posRank s g j == src || s.reb.runs.any fun r => !r.closed && r.slots.contains (sl, j) &&
    (runRank r == src || (r.spread && posRank s g (hostPos s r sl j st (unitKind g j st)) == src))
  let tcols := (cols.filter fun e => mineOf (colMember g st e.1)).map (·.1)
  let tcols := if tcols.isEmpty && rowT.isEmpty then cols.map (·.1) else tcols
  setPlan { slot := sl, stripe := st, target := src, epoch := epoch, attempt := attempt, cols := cols, tcols := tcols
            trows := rowT } s

/-- Sends the PLAN entries of one stripe to every live member, and takes them here (R471; DEDUCED, log 43). -/
def sendPlan (src epoch attempt sl st : Nat) (es : List (Nat × Nat)) (s : State) : State :=
  let g := grpOf s sl
  let ranks := (((List.range (gSize g)).filter fun j => posLive g j && (openRunAt s sl j).isNone && j != g.self).map (posRank s g))
  let entries := es.map fun e => noticeEntry sl st e.2 e.1 0
  takePlan src epoch attempt sl st es (ranks.foldl (fun s r => sendNoticeFrame 3 1 r epoch attempt entries s) s)

/-! ### What survivors send (R193, R471) -/

/-- Survivors of a run: ranks of the live member positions of its slots. -/
def survivors (s : State) (r : Rebuild) : List Nat :=
  ((r.slots.flatMap fun x =>
    let g := grpOf s x.1
    ((List.range (gSize g)).filter fun j => j != x.2 && posLive g j && (openRunAt s x.1 j).isNone).map (posRank s g))).eraseDups

/-- The two conditions of R193 at this block. -/
def readyNow (s : State) (r : Rebuild) : Bool :=
  let closed := decide (r.epoch < s.ep.epoch) || s.ep.closed
  let att := !r.aborted || s.ep.epoch != r.epoch + 1 || decide ((s.ep.attempt + 256 - r.attempt) % 256 < 128)
  (closed || r.aborted) && att &&
    (outsOf s r.epoch).all fun o => !holderLive s o || (o.ready.isNone && o.flight.isNone && o.pend.isNone)

def chunk63 : Nat → List NoticeEntry → List (List NoticeEntry)
  | 0, _ => []
  | n + 1, es => if es.isEmpty then [] else es.take 63 :: chunk63 n (es.drop 63)

/-- STATE entries of this block for a run (R471): its parity units in stripe order, then its own columns without an image. -/
def stateEntries (s : State) (r : Rebuild) : List NoticeEntry :=
  r.slots.flatMap fun x =>
    let sl := x.1
    let g := grpOf s sl
    let rows := (heldParity s sl).flatMap fun y =>
      let h := readParHdr s y.2.2.2
      (List.range g.k).map fun c =>
        let cs := columnState h c r.epoch
        { noticeEntry sl y.1 y.2.1 c (cs.getD (SMap.look 0 h.seq c)) with past := cs.isNone, suspect := h.suspect }
    let none? := if g.mode = 1 then
        ((owedUnits s sl).filter fun y => (codedImage s sl y.1 y.2 none).isNone).map fun y =>
          { noticeEntry sl y.1 0 y.2 0 with noImage := true }
      else []
    rows ++ none?

/-- A survivor that meets R193 sends READY and its STATE entries, once (R190, R471); the lowest live member of a rebuild that rolls forward sends its step record before them (R199; DESIGN CHOICE, log 69). -/
def sendReady (failed : Nat) (s : State) : State :=
  match rebOf s failed with
  | none => s
  | some r =>
    let member := r.slots.any fun x => isMember (grpOf s x.1) && (grpOf s x.1).self != x.2 && (openRunAt s x.1 (grpOf s x.1).self).isNone
    let auto := bit 62 s.reb.ctl.now || r.joined
    if !r.decided || r.readySent || r.restored || !member || !auto || !readyNow s r then s
    else
      let s := putRun { r with readySent := true } s
      let es := stateEntries s r
      let low := (survivors s r).foldl min (servedRank s)
      let s := if low = servedRank s && !r.aborted && r.epoch == s.ep.epoch then
          s.upd.stepRec.zipIdx.foldl (fun s e => sendAdmit (runRank r) { tarraOf s 20 (servedRank s) s.job.inc r.epoch with attempt := r.attempt } (.step e.2 e.1) s) s
        else s
      let s := (chunk63 (es.length + 1) es).foldl (fun s e => sendNoticeFrame 3 0 (runRank r) r.epoch r.attempt e s) s
      sendTarra (runRank r) { tarraOf s 21 failed r.inc r.epoch with attempt := r.attempt } s

/-! ### The target -/

/-- Whether this block plans a run: its standby target, or the spread home. -/
def plansRun (s : State) (r : Rebuild) : Bool := servesRank s (runRank r)

/-- Whether this block writes units of a run. -/
def writesRun (s : State) (r : Rebuild) : Bool := plansRun s r || (r.spread && r.slots.any fun x => isMember (grpOf s x.1))

/-- Whether a unit of a run is stored here: a zero unit of R65 is not (spec/03). -/
def unitStored (s : State) (r : Rebuild) (u : Nat × Nat × Nat × Nat) : Bool :=
  let g := grpOf s u.1
  u.2.2.1 == 1 || (if r.spread then (colLoc s u.1 u.2.1 u.2.2.2).isSome else (unitLoc s u.1 (dataUnitAt g g.self u.2.1)).isSome)

/-- Units of position f of a slot that this block writes, as stripe, kind and index. -/
def unitsToWrite (s : State) (r : Rebuild) : List (Nat × Nat × Nat × Nat) :=
  r.slots.flatMap fun x =>
    let sl := x.1
    let g := grpOf s sl
    if r.spread then
      ((s.reb.hosted.filter fun h => h.slot == sl && h.pos == x.2).map fun h => (sl, h.stripe, h.kind, h.index)).filter (unitStored s r)
    else
      ((List.range (unitCount s sl)).map fun u => let p := dataPlace g x.2 u; (sl, p.1, 0, p.2)) ++
      ((List.range (gCycles g * g.m)).map fun v => let p := parityPlace g x.2 v; (sl, p.1, 1, p.2))

/-- Marks a unit done in the progress bitmap, which counts the stored ones (R197). -/
def markDone (failed : Nat) (u : Nat × Nat × Nat × Nat) (s : State) : State :=
  match rebOf s failed with
  | some r => if r.doneU.contains u || !unitStored s r u then s
    else
      let s := putRun { r with doneU := u :: r.doneU } s
      { s with reb := { s.reb with doneCnt := s.reb.doneCnt + 1 } }
  | none => s

def rebFlag (b : Nat) (s : State) : State := raiseGlobal vVerdict { s with reb := { s.reb with stat := s.reb.stat ||| BitVec.ofNat 64 (2 ^ b) } }

/-- Records a fidelity event for region i (R35); TKJ_FIDELITY keeps the first (spec/02 R56). -/
def fidelityEvent (i epoch rank : Nat) (s : State) : State :=
  let s := modRegion i (fun r => { r with fidelity := true, fidEpoch := epoch }) s
  { s with
    ep := { s.ep with fid := true }
    fid := if s.fid.valid then s.fid else { epoch := epoch, valid := true, rank := rank, region := i } }

/-- A fidelity event as the word that rides the commit wave, laid out as TKJ_FIDELITY (R35, Table 2.14; DEDUCED, log 41). -/
def fidelityPack (f : Fidelity) : Nat := pack [(14, f.region), (17, f.rank), (1, b2n f.valid), (32, f.epoch)]

/-- Keeps the first event of a run, which its target reports (R35, R203). -/
def runEvent (failed : Nat) (f : Fidelity) (s : State) : State :=
  match rebOf s failed with
  | some r => if r.event = 0 then putRun { r with event := fidelityPack f } s else s
  | none => s

/-- The event of a NARROW unit that a spread host writes: the failed member's region index stands in TKJ_FIDELITY; the host has no entry of that region to mark (R35, R206; DEDUCED, log 74). -/
def hostedEvent (r : Rebuild) (i : Nat) (s : State) : State :=
  let f : Fidelity := { epoch := r.epoch, valid := true, rank := r.failed, region := i }
  runEvent r.failed f { s with ep := { s.ep with fid := true }, fid := if s.fid.valid then s.fid else f }

/-- Column states of an unknown column at every live row, which give the sequence numbers that the target goes on from (R199). -/
def takeCounts (r : Rebuild) (sl st c : Nat) (s : State) : State :=
  (rowsOf s sl).foldl (fun s t =>
    match r.states.find? fun x => x.slot == sl && x.stripe == st && x.row == t && x.col == c && !x.noImage with
    | none => s
    | some x =>
      let e := if x.past then s.ep.epoch else r.epoch
      if e != s.ep.epoch || r.aborted then s
      else putOut { outFor s e sl st t c with last := x.count, sweep := x.count != 0 || (grpOf s sl).mode != 0 } s) s

/-- The row that the plan in force chose for an unknown column (R194). -/
def chosenRow (s : State) (r : Rebuild) (sl st c : Nat) : Option Nat :=
  (s.reb.plans.find? fun x => x.slot == sl && x.stripe == st && x.epoch == r.epoch).bind fun x => (x.cols.find? fun y => y.1 == c).map (·.2)

/-- A rebuilt SCALAR unit: its shadow is its content, and SCALAR_STALE is set unless the column state at the row used holds its land contribution, the second, or the first in a skipped epoch, which has no guard (R201). -/
def scalarRestored (r : Rebuild) (sl st c : Nat) (u : UnitImg) (s : State) : State :=
  let s := { s with cod := { s.cod with shadow := SMap.put s.cod.shadow (unitKey sl st c) u } }
  let key := ((chosenRow s r sl st c).map fun t => stateFor r.states sl st t c).getD 0
  let skip := if r.epoch = s.ep.epoch then s.ep.skip else s.ep.skipped
  if key < (if skip then 1 else 2) then rebFlag 28 s else s

/-- Stripes and columns of the 16 units of the page that holds unit u of a slot, the j-th of its region. -/
def unitsOfPage (s : State) (sl j u : Nat) : List (Nat × Nat) :=
  (List.range 16).map fun k => dataPlace (grpOf s sl) (grpOf s sl).self (u - j % 16 + k)

/-- Whether all 16 units of the page that holds unit u of a slot are written. -/
def pageWhole (s : State) (r : Rebuild) (sl j u : Nat) : Bool :=
  (unitsOfPage s sl j u).zipIdx.all fun x => x.2 == j % 16 || r.doneU.contains (sl, x.1.1, 0, x.1.2)

/-- Whether the units of a page do not all decode with its seal: at the rows chosen for them they differ in their count of the restoration epoch, or in that of an epoch past it (R201; DEDUCED, log 46). -/
def unitsMixed (s : State) (r : Rebuild) (sl : Nat) (us : List (Nat × Nat)) : Bool :=
  let keys := us.map fun p => ((chosenRow s r sl p.1 p.2).map fun t => stateFor r.states sl p.1 t p.2).getD 0
  let differ (ks : List Nat) := ks.any fun k => k != ks.headD 0
  differ (keys.filter (· < 128)) || differ (keys.map (· - 128))

/-- Whether the units of the page that holds unit u of a slot do not all decode with its seal (R201). -/
def pageMixed (s : State) (r : Rebuild) (sl j u : Nat) : Bool := unitsMixed s r sl (unitsOfPage s sl j u)

/-- Whether some page of a failed member's EXPERIENCE regions does not decode with its seal, by the states and plans that the home of its spread rebuild holds (R201, R206). -/
def pagesMixed (s : State) (r : Rebuild) : Bool :=
  r.slots.any fun x =>
    let g := grpOf s x.1
    let rs := tableRegions (memberTable r.failed) x.1
    let total := (rs.map fun y => codingUnits y.2).foldl (· + ·) 0
    (List.range total).any fun u => match locUnit rs u with
      | some (_, q, j) => q.cls == 6 && j % 16 == 0 && unitsMixed s r x.1 ((List.range 16).map fun k => dataPlace g x.2 (u + k))
      | none => false

/-- A page all of whose units are written: sealed with one reference where its units decoded with its seal; one of zeros, or whose sweep landed in part, is lost, and PAGES_LOST is set (R201, spec/11 R343, Table 2.4). -/
def pageRestored (r : Rebuild) (sl j u n a : Nat) (s : State) : State :=
  if (memImg a 65536 s).isEmpty || pageMixed s r sl j u then
    { modPage n (fun _ => { lost := true }) s with reb := { s.reb with stat := s.reb.stat ||| BitVec.ofNat 64 (2 ^ 29) } }
  else modPage n (fun _ => { ref := 1, isSealed := true }) s

/-- A decoded data unit is written on a standby target (R191, R35, R201). -/
def writeData (r : Rebuild) (sl st c : Nat) (u : UnitImg) (s : State) : State :=
  let g := grpOf s sl
  match unitLoc s sl (dataUnitAt g g.self st) with
  | none => s
  | some (i, q, j) =>
    let (a, n) := unitExtent q j
    let s := memWriteImg a n (widenImage q.cls u) s
    let s := if q.cls == 2 || q.cls == 3 then
        runEvent r.failed { epoch := r.epoch, valid := true, rank := r.failed, region := i } (fidelityEvent i r.epoch r.failed s)
      else s
    match q.cls with
    | 5 => scalarRestored r sl st c u s
    | 6 =>
      let u := dataUnitAt g g.self st
      if pageWhole s r sl j u then pageRestored r sl j u (pageAt s i q a) (a - 4096 * (j % 16)) s else s
    | _ => s

/-- A decoded data unit of the failed member is written in the spread area as its image (R206, R35, R201). -/
def writeHosted (r : Rebuild) (h : Hosted) (u : UnitImg) (s : State) : State :=
  match failedLoc s h.slot h.pos h.stripe with
  | none => s
  | some (i, q, _) =>
    let s := memWriteImg h.addr 4096 u s
    if q.cls == 2 || q.cls == 3 then hostedEvent r i s
    else if q.cls == 5 then scalarRestored r h.slot h.stripe h.index u s
    else s

/-- A recomputed parity unit is written with its header, and the entries held for it are noticed (R202). -/
def writeRow (r : Rebuild) (sl st t : Nat) (u : UnitImg) (counts : SMap Nat) (s : State) : State :=
  match parityAt s sl st t with
  | none => s
  | some (ua, ha) =>
    let h : ParHdr := { epoch := r.epoch, seq := counts, mode := (grpOf s sl).mode, row := t, rebuilt := true, valid := true, crc := crcUnit u }
    counts.foldl (fun s c => sendEntry 0 (columnRank s sl st c.1) r.epoch r.attempt (noticeEntry sl st t c.1 c.2) s)
      (writeParity ua ha u h s)

/-- Whether the decoded unit of a column holds its value of the epoch before, by the row chosen for it (R199). -/
def standsBefore (s : State) (r : Rebuild) (sl st c : Nat) : Bool :=
  match chosenRow s r sl st c with
  | none => true
  | some t => !(r.states.any fun x => x.slot == sl && x.stripe == st && x.row == t && x.col == c && !x.noImage && (x.count != 0 || x.past))

/-- A whole, checked unit of a run is written (R197). -/
def writeUnit (r : Rebuild) (sl st tkind index : Nat) (u : UnitImg) (counts : SMap Nat) (s : State) : State :=
  let r := if tkind = 0 && (grpOf s sl).mode == 0 && standsBefore s r sl st index then { r with before := (sl, st, index) :: r.before } else r
  let s := putRun r s
  let s := if tkind = 1 then writeRow r sl st index u counts s
    else
      let s := takeCounts r sl st index s
      if !r.spread then writeData r sl st index u s
      else match hostedCol s sl st index with
        | some h => writeHosted r h u s
        | none => s
  markDone r.failed (sl, st, tkind, index) s

/-- The group of a slot is lost: the error goes to the whole job (Table 7.7). RANK is RANK0 of the group, and DATA its AXIS, for CAUSE is 0 (Table 8.4; DESIGN CHOICE, log 195). -/
def declareLost (sl : Nat) (s : State) : State :=
  let g := grpOf s sl
  if g.lost then s else issueWave { tarraOf s 19 g.rank0 s.job.inc s.ep.epoch with data := g.axis } s

/-- An undecodable stripe, or a unit whose chain failed four times (R195). -/
def undecodable (r : Rebuild) (sl st : Nat) (s : State) : State :=
  if (grpOf s sl).mode = 1 then
    ((unitsToWrite s r).filter fun u => u.1 == sl && u.2.1 == st && !r.doneU.contains u).foldl (fun s u =>
      let scalar := u.2.2.1 == 0 && isScalarCol s sl st u.2.2.2
      let s := match u.2.2.1 with
        | 1 => match parityAt s sl st u.2.2.2 with
          | some (ua, ha) => writeParity ua ha [] { epoch := r.epoch, mode := 1, row := u.2.2.2, suspect := true, rebuilt := true, valid := true, crc := zCrc } s
          | none => s
        | _ => match hostedCol s sl st u.2.2.2, unitLoc s sl (dataUnitAt (grpOf s sl) (grpOf s sl).self st) with
          | some h, _ => if r.spread && unitStored s r u then memWriteImg h.addr 4096 [] s else s
          | none, some (_, q, j) => if r.spread then s else memWriteImg (unitExtent q j).1 (unitExtent q j).2 [] s
          | none, none => s
      let s := if scalar then
          rebFlag 31 { s with cod := { s.cod with shadow := SMap.del s.cod.shadow (unitKey sl st u.2.2.2) } }
        else s
      markDone r.failed u s) s
  else declareLost sl s

/-- The home of a spread rebuild tells the host of a FRESH-slot parity unit that its stripe is undecodable, with a STATE entry that has NONE set (R195, R206; DESIGN CHOICE, log 174). -/
def tellUndecodable (r : Rebuild) (sl f st : Nat) (s : State) : State :=
  let g := grpOf s sl
  let host := posRank s g (hostPos s r sl f st (unitKind g f st))
  if !r.spread || g.mode != 1 || servesRank s host then s
  else sendNoticeFrame 3 0 host r.epoch r.attempt [{ noticeEntry sl st (roleNo g f st) 0 0 with noImage := true }] s

/-- The target plans one stripe when it holds what R471 asks for. -/
def planStripe (failed sl f st : Nat) (s : State) : State :=
  match rebOf s failed with
  | none => s
  | some r =>
    let g := grpOf s sl
    let liveRows := (List.range g.m).filter fun t => (holderPos s sl st (rowMember g st t)).isSome
    let has (t c : Nat) := r.states.any fun x => x.slot == sl && x.stripe == st && x.row == t && x.col == c && !x.noImage
    if r.planned.contains (sl, st) || !liveRows.all (fun t => allBelow g.k (has t)) then s
    else
      let noImg := (r.states.filter fun x => x.slot == sl && x.stripe == st && x.noImage).map (·.col)
      let cols := (List.range g.k).filter fun c => (holderPos s sl st (colMember g st c)).isNone || noImg.contains c
      let ok := liveRows.filter fun t => !(r.states.any fun x => x.slot == sl && x.stripe == st && x.row == t && x.suspect && !x.noImage)
      let s := putRun { r with planned := (sl, st) :: r.planned } s
      match planRows r.states sl st cols ok with
      | none => tellUndecodable r sl f st (undecodable r sl st s)
      | some rows =>
        let d := roleNo g f st
        let es := cols.zip rows ++ (if d < g.m then rowEntries d else [])
        sendPlan (runRank r) r.epoch r.attempt sl st es s

/-- Planning starts once every survivor has sent READY (R193, R471). -/
def rebuildGo (failed : Nat) (s : State) : State :=
  match rebOf s failed with
  | none => s
  | some r =>
    if !plansRun s r || r.restored || !s.reb.runs.all (fun q => q.restored || q.decided) || !(survivors s r).all (fun m => r.ready.contains m) then s
    else
      let s := putRun { r with started := true } { s with reb := { s.reb with active := true } }
      r.slots.foldl (fun s x => (List.range (gStripes (grpOf s x.1))).foldl (fun s st => planStripe failed x.1 x.2 st s) s) s

/-! ### Unit repair (R211) -/

/-- Deltas of a column beyond a count at a row: sent and unlanded there, ready, pending, merged. -/
def deltasBeyond (s : State) (sl st t c n : Nat) : UnitImg :=
  let o := SMap.find s.cod.out (outKey sl st t c)
  let fl := match o with
    | some o => match o.flight with
      | some f => if n < f.seq then f.payload.getD [] else []
      | none => []
    | none => []
  xorU fl (xorU (unsentAt s sl st t c) (mergedDelta s sl st c))

def countRepaired (s : State) : State := bumpLife 4 { s with aud := { s.aud with repairCnt := bump 32 32 s.aud.repairCnt } }

/-- A repair or a DECODE.UNIT granule that cannot be done (R211, R301): the poison stays. -/
def repairFail (x : Repair) (s : State) : State :=
  let s := { s with aud := { s.aud with repairs := s.aud.repairs.filter (· != x) } }
  match x.part with
  | some p => modPart p (fun y => { y with long := y.long.map fun l => { l with stop := firstStatus l.stop stCheckFail } }) s
  | none => raiseGlobal vSram { s with aud := { s.aud with repairCnt := bump 0 32 s.aud.repairCnt } }

/-- Writes the poisoned lines of a repaired unit (R211). -/
def repairLines (a n : Nat) (u : UnitImg) (ls : List Nat) (s : State) : State :=
  (ls.filter fun l => decide (a ≤ l ∧ l + 64 ≤ a + n)).foldl (fun s l => memWrite l (denseU 64 0 ((u.filter fun b =>
    decide (l - a ≤ b.1 ∧ b.1 < l - a + 64)).map fun b => (b.1 - (l - a), b.2))) s) s

/-- Writes a unit that DECODE.UNIT brought back by the coded-store path (R301, spec/04 R109). -/
def decodeStore (a : Word) (u : UnitImg) (s : State) : State :=
  if writeBlocked a.toNat 4096 s then holdWrite a (denseU 4096 0 u) s else codedWriteImg a.toNat 4096 u s

/-- The bytes and header of a repaired parity unit: a SUSPECT one is rewritten as a whole and trusted again (R80), of any other only the poisoned lines are written (R211). -/
def repairParity (ua ha : Nat) (u : UnitImg) (ls : List Nat) (s : State) : State :=
  let h := { readParHdr s ha with repaired := true, narrow := false }
  if h.suspect then writeParity ua ha u { h with suspect := false, crc := crcUnit u } s
  else
    let s := repairLines ua 4096 u ls s
    writeParHdr ha { h with crc := crcUnit (parityImg s h ua) } s

/-- Records the fidelity event of a unit repair: of a hosted unit the region index is the failed member's (R35, R211; DEDUCED, log 74). -/
def repairEvent (own : Bool) (i : Nat) (s : State) : State :=
  if own then fidelityEvent i s.ep.epoch (servedRank s) s
  else { s with ep := { s.ep with fid := true }
                fid := if s.fid.valid then s.fid else { epoch := s.ep.epoch, valid := true, rank := servedRank s, region := i } }

/-- A repaired unit, or a unit that DECODE.UNIT brought back, arrives whole (R211, R301); a parity unit made fresh is REPAIRED and not NARROW (Table 3.6). -/
def repairDone (x : Repair) (u : UnitImg) (counts : SMap Nat) (s : State) : State :=
  let s := { s with aud := { s.aud with repairs := s.aud.repairs.filter (· != x) } }
  match x.part with
  | some p =>
    let s := decodeStore (BitVec.ofNat 64 x.addr) u s
    modPart p (fun y => { y with long := y.long.map fun l => { l with note := 1 } }) s
  | none =>
    let s := countRepaired s
    if x.tkind = 1 then match parityAt s x.slot x.stripe x.index with
      | some (ua, ha) => repairParity ua ha u x.lines s
      | none => s
    else
      let g := grpOf s x.slot
      match colLoc s x.slot x.stripe x.index with
      | none => s
      | some (i, q, j) =>
        let own := ownCol g x.stripe x.index
        let u := if isScalarCol s x.slot x.stripe x.index || g.mode == 1 then u
          else xorU u (deltasBeyond s x.slot x.stripe x.row x.index (SMap.look 0 counts x.index))
        let s := match own, hostedCol s x.slot x.stripe x.index with
          | true, _ => repairLines (unitExtent q j).1 (unitExtent q j).2 (widenImage q.cls u) x.lines s
          | false, some h => repairLines h.addr 4096 u x.lines s
          | false, none => s
        if q.cls == 2 || q.cls == 3 then repairEvent own i s else s

/-- The epoch whose states a repair uses. -/
def repairEpoch (s : State) : Nat := s.ep.epoch

/-- Whether the group can bring a unit back with it as the only unknown: every other column and the row used have a live holder, and the block's own unit has a coded image (R211, R301, Table 7.4). -/
def repairable (s : State) (x : Repair) : Bool :=
  let g := grpOf s x.slot
  let held (j : Nat) : Bool := (holderPos s x.slot x.stripe j).isSome
  allBelow g.k (fun c => (x.tkind == 0 && c == x.index) || held (colMember g x.stripe c)) &&
  (x.tkind == 1 || (held (rowMember g x.stripe x.row) &&
    (!(myUnits s x.slot x.stripe).contains (false, x.index) || (codedImage s x.slot x.stripe x.index none).isSome)))

/-- Contributions of a column that have landed at a row, as this block knows from its notices. -/
def landedAt (s : State) (sl st t c : Nat) : Nat :=
  match SMap.find s.cod.out (outKey sl st t c) with
  | some o => o.last - b2n o.ready.isSome - b2n o.flight.isSome
  | none => 0

/-- The row for a repair: of the live rows the one with the highest column state, the lowest on a tie; another block's column states are not known here (R194, R211; DEDUCED, log 159). -/
def repairRow (s : State) (sl st c : Nat) : Nat :=
  let g := grpOf s sl
  let rows := (List.range g.m).filter fun t => (holderPos s sl st (rowMember g st t)).isSome
  (sortBy (fun a b => decide (landedAt s sl st b c < landedAt s sl st a c) || (landedAt s sl st a c == landedAt s sl st b c && decide (a ≤ b))) rows).headD 0

/-- Asks the group for one unit (R211, R301). -/
def repairAsk (x : Repair) (s : State) : State :=
  let s := { s with aud := { s.aud with repairs := x :: s.aud.repairs.filter fun y => !(y.slot == x.slot && y.stripe == x.stripe && y.tkind == x.tkind && y.index == x.index) } }
  if !repairable s x then repairFail x s
  else sendPlan (servedRank s) (repairEpoch s) s.ep.attempt x.slot x.stripe (if x.tkind = 0 then [(x.index, x.row)] else rowEntries x.index) s

/-- Units still asked for whose plan is of an older epoch or attempt are asked for again, from the states of the open epoch (R211, Table 2.7). -/
def repairsAgain (s : State) : State :=
  if !codingOn s then s
  else (s.aud.repairs.filter fun x => !s.reb.plans.any fun pl => pl.slot == x.slot && pl.stripe == x.stripe && pl.target == servedRank s &&
      pl.epoch == s.ep.epoch && pl.attempt == s.ep.attempt).foldl (fun s x => repairAsk x s) s

/-- A tap or a read found an uncorrectable line of a coded data or parity unit (R211). -/
def repairLine (l : Nat) (s : State) : State :=
  match s.aud.repairs.find? fun x => x.lines.contains l with
  | some _ => s
  | none =>
    let add (sl st tk ix : Nat) (s : State) : State :=
      match s.aud.repairs.find? fun x => x.slot == sl && x.stripe == st && x.tkind == tk && x.index == ix && x.part.isNone with
      | some x => { s with aud := { s.aud with repairs := { x with lines := l :: x.lines } :: s.aud.repairs.filter (· != x) } }
      | none => repairAsk { slot := sl, stripe := st, tkind := tk, index := ix, row := repairRow s sl st ix, addr := 0, lines := [l] } s
    match (touchedUnits l 64 s).head?, s.reb.hosted.find? fun h => h.kind == 0 && decide (h.addr ≤ l ∧ l < h.addr + 4096) && (failedLoc s h.slot h.pos h.stripe).isSome with
    | some t, _ => if codingOn s then add t.sl t.st 0 t.col s else s
    | none, some h => if codingOn s then add h.slot h.stripe 0 h.index s else s
    | none, none =>
      match (slotsOn s).findSome? fun sl =>
        ((heldParity s sl).find? fun y => decide (y.2.2.1 ≤ l ∧ l < y.2.2.1 + 4096)).map fun y => (sl, y.1, y.2.1) with
      | some (sl, st, t) => if codingOn s then add sl st 1 t s else s
      | none => s

/-! ### Assembly at the target (R196, R197) -/

def chainFailKey (x : ChainMsg) : Nat := ((x.slot.val * 2 ^ 40 + x.stripe) * 4 + x.tkind) * 16 + x.index

/-- What a chain's failure does at the target: a further copy, of a repaired unit by the next live row, or after the fourth the end of R195 (R197, R211). -/
def chainBad (pl : PlanSet) (x : ChainMsg) (s : State) : State :=
  let s := { s with
    reb := { s.reb with stat := bump 32 16 s.reb.stat }
    cod := { s.cod with unitCheck := bump 32 16 s.cod.unitCheck } }
  let again := sendPlan pl.target pl.epoch pl.attempt pl.slot pl.stripe (pl.cols ++ pl.trows.flatMap rowEntries)
  match s.aud.repairs.find? fun y => y.slot == pl.slot && y.stripe == pl.stripe && y.tkind == x.tkind && y.index == x.index with
  | some y =>
    if 3 ≤ y.copies then repairFail y s
    else repairAsk { y with copies := y.copies + 1, row := nextLiveRow s y.slot y.stripe y.row } s
  | none =>
    let g := grpOf s pl.slot
    let f := if x.tkind = 0 then colMember g pl.stripe x.index else rowMember g pl.stripe x.index
    match openRunAt s pl.slot f with
    | none => s
    | some r =>
      let n := SMap.look 0 r.fails (chainFailKey x) + 1
      let s := putRun { r with fails := SMap.put r.fails (chainFailKey x) n } s
      if 4 ≤ n then undecodable r pl.slot pl.stripe s else again s

/-- A half-chain reaches its target: the halves are joined, checked and written (R196, R197). -/
def chainTarget (x : ChainMsg) (dest : Nat) (s : State) : State :=
  match planFor s x dest with
  | none => s
  | some pl =>
    let same (y : ChainMsg) := y.slot == x.slot && y.stripe == x.stripe && y.tkind == x.tkind && y.index == x.index
    let hs := x :: s.reb.halves.filter fun y => same y && y.half != x.half
    let rest := s.reb.halves.filter fun y => !same y
    let srcs := [0, 1].map fun h => halfSources s pl dest h
    let want := (srcs.filter fun l => !l.isEmpty).length
    if hs.length < want then { s with reb := { s.reb with halves := x :: s.reb.halves.filter fun y => !(same y && y.half == x.half) } }
    else
      let s := { s with reb := { s.reb with halves := rest } }
      let all := hs.all fun y => y.sources == maskOfCols (srcs.getD (b2n y.half) [])
      let sum := hs.foldl (fun (q : Squeezed) y => { q with
        crc := q.crc ^^^ y.unit.crc ^^^ zCrc, bytes := xorU q.bytes y.unit.bytes }) (squeeze 0 [])
      if !all || !squeezedOk sum then chainBad pl x s
      else
        let (s, q, ok) := addTerms pl x.tkind x.index sum s
        if !ok then chainBad pl x s
        else
          let counts := hs.foldl (fun m y => y.count.foldl (fun m c => SMap.put m c.1 c.2) m) (chainCounts s pl x.tkind x.index [])
          match s.aud.repairs.find? fun y => y.slot == pl.slot && y.stripe == pl.stripe && y.tkind == x.tkind && y.index == x.index with
          | some y => repairDone y q.bytes counts s
          | none =>
            let g := grpOf s pl.slot
            let f := if x.tkind = 0 then colMember g pl.stripe x.index else rowMember g pl.stripe x.index
            match openRunAt s pl.slot f with
            | some r =>
              if r.doneU.contains (pl.slot, pl.stripe, x.tkind, x.index) then s
              else writeUnit r pl.slot pl.stripe x.tkind x.index q.bytes counts s
            | none => s

/-- A STATE entry reaches a rebuild target, or with NONE the block whose DECODE.UNIT asked for the unit (R471, R301; DEDUCED, log 158). -/
def takeState (origin epoch : Nat) (e : NoticeEntry) (s : State) : State :=
  let s := if !e.noImage then s
    else s.reb.runs.foldl (fun s r => if r.spread && !r.closed && runRank r == origin && !plansRun s r &&
        r.slots.any (fun y => y.1 == e.slot.val) then undecodable r e.slot.val e.stripe s else s) s
  let s := if !e.noImage then s
    else (s.aud.repairs.filter fun y => y.part.isSome && y.slot == e.slot.val && y.stripe == e.stripe && y.tkind == 0 && y.index == e.column.val).foldl
      (fun s y => repairFail y s) s
  let x : StateRec := { slot := e.slot.val, stripe := e.stripe, row := e.row.val, col := e.column.val, count := e.seq
                        past := e.past, suspect := e.suspect, noImage := e.noImage, origin := origin }
  { s with reb := { s.reb with runs := s.reb.runs.map fun r =>
      if !r.restored && (!r.decided || r.epoch == epoch) && plansRun s r && r.slots.any (fun y => y.1 == e.slot.val) then
        { r with states := x :: r.states.filter fun y =>
          !(y.slot == x.slot && y.stripe == x.stripe && y.row == x.row && y.col == x.col && y.noImage == x.noImage) }
      else r } }

/-- An entry of the lowest live member's step record reaches a target (R199; DESIGN CHOICE, log 69). -/
def takeStep (epoch index : Nat) (e : StepEntry) (s : State) : State :=
  { s with reb := { s.reb with runs := s.reb.runs.map fun r =>
      if !r.restored && !r.rolled && (!r.decided || r.epoch == epoch) && plansRun s r then { r with steps := SMap.put r.steps index e } else r } }

/-- READY reaches the target (R471). -/
def takeReady (failed origin : Nat) (s : State) : State :=
  match rebOf s failed with
  | some r => if plansRun s r then putRun { r with ready := (origin :: r.ready.filter (· != origin)) } s else s
  | none => s

/-- Whether a rank holds a member position in one of the slots of a run. -/
def runTouches (s : State) (rank : Nat) (r : Rebuild) : Bool :=
  r.slots.any fun x => (posOfRank s (grpOf s x.1) rank).any fun j => decide (j < gSize (grpOf s x.1))

/-- A second member of a group under rebuild fails: chains not yet done restart with the new unknowns (Table 7.7). -/
def restartRuns (rank : Nat) (s : State) : State :=
  s.reb.runs.foldl (fun s r =>
    if r.restored || !r.started || !runTouches s rank r then s
    else
      let s := putRun { r with planned := [], started := false } s
      let other (sl : Nat) := !r.slots.any fun x => x.1 == sl
      { s with reb := { s.reb with
          stat := bump 48 16 s.reb.stat, plans := s.reb.plans.filter fun x => other x.slot
          halves := s.reb.halves.filter fun x => other x.slot.val } }) s

/-! ### Audit (R208 to R210) -/

/-- The audit pauses from the guard wave of an epoch to its commit (R208), and while the taps are held. -/
def auditPaused (s : State) : Bool := s.ep.guardWave || !tapFree s

def auditMsg (s : State) (sl st t tkind : Nat) (q : Squeezed) (sources : Nat) : ChainMsg :=
  { epoch := s.ep.epoch, stripe := st, slot := Fin.ofNat 16 sl, tkind := tkind, index := t, half := false, sources := sources
    attempt := s.ep.attempt, count := [], origin := servedRank s, unit := q }

/-- Sends an audit frame that takes no terms on its way. -/
def sendAudit (rank : Nat) (x : ChainMsg) (s : State) : State := sendCode 5 rank x.epoch (.chain x) s

/-- Adds this block's columns to an audit train; a column without an image leaves its SOURCES bit clear (R208). -/
def auditTerms (x : ChainMsg) (s : State) : ChainMsg :=
  (ownedCols s x.slot.val x.stripe).foldl (fun x c =>
    match codedImage s x.slot.val x.stripe c (some x.index) with
    | some u => { x with unit := addSqueezed x.unit (scaleU (coef x.index c) u), sources := x.sources ||| 2 ^ (colMember (grpOf s x.slot.val) x.stripe c) }
    | none => x) x

/-- Starts the audit train of a row at the first column of its route (R208). -/
def auditBegin (sl st t : Nat) (s : State) : State :=
  let g := grpOf s sl
  let x := auditTerms (auditMsg s sl st t 2 (squeeze 0 []) 0) s
  (sendFrame { tag := s.job.tag, part := stepPartNo s, typ := 5, rank := holderRank s sl st t, body := .chain x, ebound := true
               accum := true, epoch := s.ep.epoch, route := 1, raxis := g.axis, rdir := trainDir g t, daxis := g.axis } s).1

/-- Whether this block owes the first column of a row's route. -/
def auditFirst (s : State) (sl st t : Nat) : Bool :=
  match (routeCols (grpOf s sl) t).head? with
  | some c => (ownedCols s sl st).contains c
  | none => false

/-- A lap ends once every stripe whose row 0 this block holds has been decided or skipped (R208, Table 7.20; DEDUCED, log 181). -/
def auditLapEnd (s : State) : State :=
  if s.aud.running && s.aud.left.isEmpty then
    let ms := (s.clk.wall - s.aud.lapStart) / 1000000
    { s with aud := { s.aud with running := false, lapEnd := s.clk.wall, lap := bump 32 32 (setFld 0 32 (min ms 0xFFFFFFFF) s.aud.lap) } }
  else s

/-- A stripe of the lap in progress is decided or skipped. -/
def auditLeft (sl st : Nat) (s : State) : State :=
  auditLapEnd { s with aud := { s.aud with left := s.aud.left.filter (· != (sl, st)) } }

/-- An audit lap starts over every stripe of every slot; one whose trains were lost starts over (R208). A lap in progress keeps the block in RUN (spec/16 R431). -/
def auditLap (s : State) : State :=
  if !bit 63 s.aud.ctl.now || !codingOn s || auditPaused s then s
  else
    let mine := (slotsOn s).flatMap fun sl => ((List.range (gStripes (grpOf s sl))).filter fun st => (parityAt s sl st 0).isSome).map fun st => (sl, st)
    let s := leaveIdle { s with aud := { s.aud with running := true, lapStart := s.clk.wall, left := mine } }
    auditLapEnd <| (slotsOn s).foldl (fun s sl => (List.range (gStripes (grpOf s sl))).foldl (fun s st =>
      (rowsOf s sl).foldl (fun s t => if auditFirst s sl st t then auditBegin sl st t s else s) s) s) s

/-- Whether the syndrome of every row of column c matches the error S_0 (Table 7.8). -/
def columnFits (syn : List UnitImg) (c : Nat) : Bool :=
  (syn.zipIdx).all fun x => x.1 == scaleU (coef x.2 c) (syn.getD 0 [])

/-- Marks a stripe of an AUDIT instruction as decided. -/
def auditJob (sl st : Nat) (bad : Bool) (s : State) : State :=
  { s with aud := { s.aud with jobs := s.aud.jobs.filterMap fun j =>
      if j.2.1 = sl ∧ j.2.2.1 = st ∧ j.2.2.2 = 0 then (if bad then some (j.1, sl, st, 1) else none) else some j } }

def countFixed (s : State) : State := bumpLife 5 { s with aud := { s.aud with silent := bump 0 32 s.aud.silent } }

/-- Applies a correction to the copies of a unit that the drain has yet to take (spec/14 R401). -/
def fixCopies (i : Nat) (r : Region) (a n : Nat) (err : UnitImg) (s : State) : State :=
  let off (j : Nat) := regionAddr r + 4096 * j - a
  let held := s.exp.store.filter fun x => x.2.1 == i && decide (a ≤ regionAddr r + 4096 * x.2.2.1 ∧ off x.2.2.1 < n)
  let at4k (k : Nat) := logBase s.exp.copyBase + 4096 * k
  let old := held.foldl (fun u x => xorU u ((memImg (at4k x.1) 4096 s).map fun c => (c.1 + off x.2.2.1, c.2))) []
  let img := narrowImage r.cls old
  let diff := xorU (widenImage r.cls img) (widenImage r.cls (xorU img err))
  held.foldl (fun s x =>
    let d := (diff.filter fun c => decide (off x.2.2.1 ≤ c.1 ∧ c.1 < off x.2.2.1 + 4096)).map fun c => (c.1 - off x.2.2.1, c.2)
    memWriteImg (at4k x.1) 4096 (xorU (memImg (at4k x.1) 4096 s) d) s) s

/-- XORs an error into a data unit of this block: a coded-store write that adds no delta (R209, R210). -/
def fixColumn (sl st c : Nat) (err : UnitImg) (s : State) : State :=
  let g := grpOf s sl
  let written (s : State) : State := countFixed (countCsWrite
    (if g.mode = 1 ∧ !isScalarCol s sl st c then { s with cod := { s.cod with dirty := SMap.put s.cod.dirty (unitKey sl st c) true } } else s))
  if ownCol g st c then
    match unitLoc s sl (dataUnitAt g g.self st) with
    | none => s
    | some (i, r, j) =>
      let (a, n) := unitExtent r j
      let old := memImg a n s
      let img := narrowImage r.cls old
      let wrong := widenImage r.cls img
      let right := widenImage r.cls (xorU img err)
      fixCopies i r a n err (written (memWriteImg a n (xorU old (xorU wrong right)) (preserve a n s)))
  else match hostedCol s sl st c, colLoc s sl st c with
    | some h, some _ => written (memWriteImg h.addr 4096 (xorU (memImg h.addr 4096 s) err) s)
    | _, _ => s

/-- Whether the coded-store path holds the correction of a data column now (R109, R110, R210), or a granule holds the unit while it is export-pending (spec/14 R398). -/
def fixHeld (x : ChainMsg) (s : State) : Bool :=
  x.tkind == 0 && ownCol (grpOf s x.slot.val) x.stripe x.index &&
    match colLoc s x.slot.val x.stripe x.index with
    | some (_, r, j) => writeHeld (unitExtent r j).1 (unitExtent r j).2 s || pendLocked (unitExtent r j).1 (unitExtent r j).2 s
    | none => false

/-- A parity unit found bad is recomputed fresh: its syndrome is its error (Table 7.8); that whole rewrite clears SUSPECT (R80; DEDUCED, log 160). -/
def fixRow (sl st t : Nat) (err : UnitImg) (s : State) : State :=
  match parityAt s sl st t with
  | none => s
  | some (ua, ha) =>
    let h := readParHdr s ha
    let u := xorU (parityImg s h ua) err
    countFixed (writeParity ua ha u { h with repaired := true, suspect := false, narrow := false, crc := crcUnit u } s)

/-- The row-0 holder decides a stripe (Table 7.8). -/
def auditDecide (sl st : Nat) (syn : List UnitImg) (s : State) : State :=
  let g := grpOf s sl
  let bad := (List.range g.m).filter fun t => !(syn.getD t []).isEmpty
  let bits := maskOfCols (List.range (gSize g))
  if bad.isEmpty then auditJob sl st false s
  else if 2 ≤ g.m ∧ bad.length = 1 then
    let t := bad.getD 0 0
    auditJob sl st false
      (if t = 0 then fixRow sl st 0 (syn.getD 0 []) s
       else sendAudit (holderRank s sl st t) (auditMsg s sl st t 1 (squeeze 0 (syn.getD t [])) bits) s)
  else match (List.range g.k).find? fun c => decide (2 ≤ g.m) && !(syn.getD 0 []).isEmpty && columnFits syn c with
    | some c => auditJob sl st false (sendAudit (columnRank s sl st c) (auditMsg s sl st c 0 (squeeze 0 (syn.getD 0 [])) bits) s)
    | none => raiseGlobal vSram (auditJob sl st true { s with aud := { s.aud with silent := bump 32 32 s.aud.silent } })

/-- A syndrome reaches the row-0 holder; with all of them the stripe is decided, or skipped where a term was missing (R208, R209). -/
def auditSyndrome (x : ChainMsg) (s : State) : State :=
  let sl := x.slot.val
  let g := grpOf s sl
  let same (y : ChainMsg) := y.slot == x.slot && y.stripe == x.stripe
  let got := x :: s.aud.syn.filter fun y => same y && y.index != x.index
  let rest := s.aud.syn.filter fun y => !same y
  if (List.range g.m).all fun t => got.any fun y => y.index == t then
    let s := { s with aud := { s.aud with syn := rest } }
    let whole := got.all fun y => allBelow g.k (fun c => y.sources.testBit (colMember g x.stripe c)) &&
      y.sources.testBit (rowMember g x.stripe y.index)
    auditLeft sl x.stripe <| if whole then
      auditDecide sl x.stripe ((List.range g.m).map fun t => ((got.find? fun y => y.index == t).map fun y => y.unit.bytes).getD []) s
    else auditJob sl x.stripe false s
  else { s with aud := { s.aud with syn := got ++ rest } }

/-- An audit frame for this block: a correction, a request to start a row's train, a train at its holder, or a syndrome (R208, R209; DESIGN CHOICE, log 47). -/
def auditHere (x : ChainMsg) (s : State) : State :=
  let sl := x.slot.val
  let g := grpOf s sl
  if !g.en then s
  else match x.tkind with
    | 0 => fixColumn sl x.stripe x.index x.unit.bytes s
    | 1 => fixRow sl x.stripe x.index x.unit.bytes s
    | _ =>
      if x.sources = 0 ∧ auditFirst s sl x.stripe x.index then auditBegin sl x.stripe x.index s
      else if (parityAt s sl x.stripe x.index).isSome && !x.sources.testBit (rowMember g x.stripe x.index) then
        let (s, u) := parityRead sl x.stripe x.index s
        let x := match u with
          | some u => { x with unit := addSqueezed x.unit u, sources := x.sources ||| 2 ^ (rowMember g x.stripe x.index) }
          | none => x
        if x.index = 0 then auditSyndrome x s else sendAudit (holderRank s sl x.stripe 0) x s
      else auditSyndrome x s

/-- An audit train at a hop of its route: it takes this block's terms where its epoch and attempt are those open here, and goes on unchanged otherwise; a term for an audit is never owed later, for a column without a coded image gives none (R208, R233). -/
def auditHop (port : Nat) (h : FrameHdr) (x : ChainMsg) (s : State) : State :=
  let mine := (grpOf s x.slot.val).en && x.tkind == 2 && h.accum && x.epoch == s.ep.epoch && x.attempt == s.ep.attempt
  forward (some port) ⟨h, .chain (if mine then auditTerms x s else x)⟩ s

end Sys2Proof.Machine
end

