-- ==== Sys2Proof/Machine/Insn.lean ====
section
/-! DEFINITION. Instruction words: the formats of spec/09 Tables 9.4 to 9.6 and spec/10 Tables 10.4, 10.5, 10.8, 10.9 and 10.11, what makes a word refused at image load or in an INSTR (R254, R261, R279 CAUSE 6), and the checks of a program image (R137, R138, R278, R279). -/

namespace Sys2Proof.Machine

/-! ### Formats -/

def fin (n : Nat) (v : Nat) [NeZero n] : Fin n := Fin.ofNat n v

def fmtROf (w : Word) : FmtR :=
  { pred := fin 8 (fld 48 3 w), pneg := bit 47 w, rd := fin 32 (fld 42 5 w), ra := fin 32 (fld 37 5 w)
    rb := fin 32 (fld 32 5 w), imm := BitVec.ofNat 32 (fld 0 32 w) }

def fmtTOf (w : Word) : FmtT :=
  { pred := fin 8 (fld 48 3 w), pneg := bit 47 w, dst := fin 64 (fld 41 6 w), sa := fin 64 (fld 35 6 w)
    sb := fin 64 (fld 29 6 w), sc := fin 64 (fld 23 6 w), resume := bit 22 w, step := bit 21 w
    slot := fin 32 (fld 16 5 w), ten := bit 15 w, tally := fin 16384 (fld 0 14 w) }

def sec2Of (w : Word) : Sec2 :=
  { vreg := fin 32 (fld 59 5 w), xfill := bit 58 w, entry := fin 32 (fld 53 5 w), pop := fin 4 (fld 51 2 w) }

def sec34Of (w : Word) : Sec34 :=
  { in3 := fin 64 (fld 58 6 w), in4 := fin 64 (fld 52 6 w), out1 := fin 64 (fld 46 6 w), out2 := fin 64 (fld 40 6 w)
    out3 := fin 64 (fld 34 6 w), e3 := bit 33 w, e4 := bit 32 w, eo1 := bit 31 w, eo2 := bit 30 w, eo3 := bit 29 w
    hreg := fin 32 (fld 24 5 w), mprog := fin 16 (fld 20 4 w), type := fin 4 (fld 18 2 w), rm := fin 4 (fld 16 2 w)
    lop := fin 64 (fld 10 6 w) }

def sec5Of (w : Word) : Sec5 :=
  { gslot := fin 16 (fld 60 4 w), freg := fin 32 (fld 55 5 w), nreg := fin 32 (fld 50 5 w), pos := fin 32 (fld 45 5 w) }

def sec6Of (w : Word) : Sec6 :=
  { in3 := fin 64 (fld 58 6 w), nin := fin 4 (fld 56 2 w), axes := fin 16 (fld 52 4 w), mode := bit 51 w, uneven := bit 50 w
    ereg := fin 32 (fld 45 5 w), root := fin 131072 (fld 28 17 w) }

def sec7Of (w : Word) : Sec7 :=
  { rkreg := fin 32 (fld 59 5 w), adreg := fin 32 (fld 54 5 w), dreg := fin 32 (fld 49 5 w), vreg := fin 32 (fld 44 5 w)
    size := fin 8192 (fld 31 13 w), coef := BitVec.ofNat 8 (fld 23 8 w), arrive := bit 22 w, rtally := fin 16384 (fld 8 14 w) }

/-- The word that a format T word came from, with RESUME taken as 0 (R264). -/
def fmtTWord (cls op : Nat) (f : FmtT) : Word :=
  BitVec.ofNat 64 (pack [(14, f.tally), (1, 0), (1, b2n f.ten), (5, f.slot), (1, b2n f.step), (1, 0), (6, f.sc), (6, f.sb),
    (6, f.sa), (6, f.dst), (1, b2n f.pneg), (3, f.pred), (1, 0), (8, op), (4, cls)])

def sec2Word (x : Sec2) : Word := BitVec.ofNat 64 (pack [(51, 0), (2, x.pop), (5, x.entry), (1, b2n x.xfill), (5, x.vreg)])

def sec34Word (x : Sec34) : Word :=
  BitVec.ofNat 64 (pack [(10, 0), (6, x.lop), (2, x.rm), (2, x.type), (4, x.mprog), (5, x.hreg), (1, b2n x.eo3), (1, b2n x.eo2),
    (1, b2n x.eo1), (1, b2n x.e4), (1, b2n x.e3), (6, x.out3), (6, x.out2), (6, x.out1), (6, x.in4), (6, x.in3)])

def sec5Word (x : Sec5) : Word := BitVec.ofNat 64 (pack [(45, 0), (5, x.pos), (5, x.nreg), (5, x.freg), (4, x.gslot)])

def sec6Word (x : Sec6) : Word :=
  BitVec.ofNat 64 (pack [(28, 0), (17, x.root), (5, x.ereg), (1, b2n x.uneven), (1, b2n x.mode), (4, x.axes), (2, x.nin), (6, x.in3)])

def sec7Word (x : Sec7) : Word :=
  BitVec.ofNat 64 (pack [(8, 0), (14, x.rtally), (1, b2n x.arrive), (8, x.coef.toNat), (13, x.size), (5, x.vreg), (5, x.dreg),
    (5, x.adreg), (5, x.rkreg)])

/-! ### Which words are taken -/

/-- Signed immediate. -/
def immS (f : FmtR) : Int := toS 32 f.imm.toNat

/-- The fields RD, RA, RB and IMM that a format R operation does not use are 0 (R261). A field of which it uses some bits is used (DEDUCED, log 65). -/
def rOnly (f : FmtR) (d a b i : Bool) : Bool :=
  (d || f.rd == 0) && (a || f.ra == 0) && (b || f.rb == 0) && (i || f.imm == 0)

def immBelow (f : FmtR) (n : Nat) : Bool := decide (f.imm.toNat < n)

/-- Class 0 (Table 10.1, R286). -/
def ctlOk (op : Nat) (f : FmtR) : Bool :=
  match op with
  | 0x00 => rOnly f false false false false
  | 0x01 => rOnly f false false false true
  | 0x02 => rOnly f true false false true
  | 0x03 => rOnly f false true false false
  | 0x04 => rOnly f false false false true && immBelow f 512 && (decide (256 ≤ f.imm.toNat) || immBelow f 16)
  | 0x05 => rOnly f false false false false
  | 0x06 => rOnly f true false false true
  | 0x07 => rOnly f false true false true
  | 0x08 => rOnly f true false false true
  | _ => false

/-- Scalar operations that have an immediate form (Table 10.2). -/
def hasImmForm (op : Nat) : Bool := decide (3 ≤ op ∧ op ≤ 0x12) || decide (0x18 ≤ op ∧ op ≤ 0x1D)

/-- Class 1 (Table 10.2, R287, R288). -/
def scalarOk (op : Nat) (f : FmtR) : Bool :=
  let cmp := decide (0x18 ≤ op % 128 ∧ op % 128 ≤ 0x1D)
  if 128 ≤ op then hasImmForm (op - 128) && rOnly f true true false true && (!cmp || decide (f.rd.val < 8))
  else if hasImmForm op then rOnly f true true true false && (!cmp || decide (f.rd.val < 8))
  else match op with
    | 0x00 => rOnly f true false false true
    | 0x01 => rOnly f true false false true
    | 0x02 => rOnly f true true false false
    | 0x20 => rOnly f true true true false && decide (f.rd.val < 8)
    | 0x21 => rOnly f true true true false && decide (f.rd.val < 8)
    | 0x22 => rOnly f true true false false && decide (f.rd.val < 8)
    | 0x23 => rOnly f true false false true && decide (f.rd.val < 8)
    | 0x28 => rOnly f true true false true
    | 0x29 => rOnly f false true true true
    | 0x2A => rOnly f false true false true
    | 0x2B => rOnly f false true false true
    | 0x2C => rOnly f false true false true && decide (bitsOf 0 26 f.imm.toNat < 6)
    | 0x2D => rOnly f true false false true && decide (bitsOf 0 26 f.imm.toNat < 6)
    | _ => false

/-- RA is used only where the tally index comes from a register (R306). -/
def tallyFieldOk (f : FmtR) : Bool := f.imm.msb || f.ra == 0

/-- Class 8 (Table 10.12). -/
def tallyOpOk (op : Nat) (f : FmtR) : Bool :=
  match op with
  | 0x00 => rOnly f false true true true && tallyFieldOk f
  | 0x01 => rOnly f false true true true && tallyFieldOk f
  | 0x02 => rOnly f false true true true && tallyFieldOk f
  | 0x03 => rOnly f false true true true && tallyFieldOk f
  | 0x04 => rOnly f true true false true && tallyFieldOk f
  | 0x05 => rOnly f false true false true && tallyFieldOk f
  | 0x08 => rOnly f false false false true
  | 0x09 => rOnly f false false false true
  | 0x0A => rOnly f false false true true
  | 0x0B => rOnly f false false false true
  | 0x0C => rOnly f true false false true
  | 0x0D => rOnly f true false false true
  | 0x0E => rOnly f false true false true
  | _ => false

/-- Class 9 (Table 10.13, R310). -/
def voteOpOk (op : Nat) (f : FmtR) : Bool :=
  match op with
  | 0x00 => rOnly f false false false true
  | 0x01 => rOnly f false false false false
  | 0x02 => rOnly f false true false true && immBelow f 8
  | 0x03 => rOnly f true false false false
  | _ => false

/-- The fields DST, SA, SB, SC, RESUME, STEP and SLOT that a format T operation does not use are 0 (R261). TEN and TALLY are fields of every one (DEDUCED, log 65). -/
def tOnly (f : FmtT) (d a b c rs st sl : Bool) : Bool :=
  (d || f.dst == 0) && (a || f.sa == 0) && (b || f.sb == 0) && (c || f.sc == 0) && (rs || !f.resume) && (st || !f.step) &&
    (sl || f.slot == 0)

/-- Class 2 (Tables 10.3 and 10.4). -/
def moveOk (op : Nat) (f : FmtT) (w2 : Word) : Bool :=
  let x := sec2Of w2
  let z (v fl en po : Bool) := w2 == sec2Word x && (v || x.vreg == 0) && (fl || !x.xfill) && (en || x.entry == 0) && (po || x.pop == 0)
  match op with
  | 0x00 => tOnly f true true false false true false false && z false false false false
  | 0x01 => tOnly f true true false false true false false && z false false false false
  | 0x02 => tOnly f true false false false true false false && z true false false false
  | 0x03 => tOnly f true true false false true false false && z true false false false
  | 0x04 => tOnly f true true false false true false false && z false true false false
  | 0x08 => tOnly f false true false false true false false && z false false true false
  | 0x09 => tOnly f false true false false false false false && z false false false false
  | 0x0A => tOnly f false true false false true false false && z false false false true && decide (x.pop.val < 3)
  | _ => false

/-- A descriptor field whose E bit is 0 is 0 (R292). -/
def eFieldsOk (x : Sec34) : Bool :=
  (x.e3 || x.in3 == 0) && (x.e4 || x.in4 == 0) && (x.eo1 || x.out1 == 0) && (x.eo2 || x.out2 == 0) && (x.eo3 || x.out3 == 0)

/-- Whether SB and SC of an instruction with a microprogram are 0 where its NIN leaves them unused (R261, R293, R294); a MPROG without a microprogram leaves both open. -/
def ninFieldsOk (nin : Nat → Option Nat) (f : FmtT) (w2 : Word) : Bool :=
  match nin (sec34Of w2).mprog.val with
  | some n => (decide (2 ≤ n) || f.sb == 0) && (decide (3 ≤ n) || f.sc == 0)
  | none => true

/-- Class 3 (R293). -/
def laneWordOk (nin : Nat → Option Nat) (op : Nat) (f : FmtT) (w2 : Word) : Bool :=
  let x := sec34Of w2
  let n := laneArity x.lop.val
  w2 == sec34Word x && eFieldsOk x && x.hreg == 0 &&
  match op with
  | 0x00 => tOnly f true true (decide (2 ≤ n)) (decide (3 ≤ n)) true false false && laneOpOk x.lop.val && x.lop != 0 &&
      x.mprog == 0 && !x.e3 && !x.e4 && !x.eo1 && !x.eo2 && !x.eo3
  | 0x01 => tOnly f true true true true true false false && ninFieldsOk nin f w2 && x.type == 0 && x.rm == 0 && x.lop == 0
  | _ => false

/-- Class 4 (R294, Table 10.6). -/
def stepWordOk (nin : Nat → Option Nat) (op : Nat) (f : FmtT) (w2 : Word) : Bool :=
  let x := sec34Of w2
  w2 == sec34Word x && eFieldsOk x && x.type == 0 && x.rm == 0 && x.lop == 0 && !x.eo1 && !x.eo2 &&
  match op with
  | 0x00 => tOnly f false true true true true true false && x.mprog == 0 && !x.e4
  | 0x01 => tOnly f false true true false true true false && x.mprog == 0 && !x.e4
  | 0x02 => tOnly f false true true false true true false && x.mprog == 0 && !x.e4
  | 0x03 => tOnly f false true true true true true false && ninFieldsOk nin f w2
  | _ => false

/-- Class 5 (Tables 10.7 and 10.8). -/
def codeWordOk (op : Nat) (f : FmtT) (w2 : Word) : Bool :=
  let x := sec5Of w2
  let z (g fr nr po : Bool) := w2 == sec5Word x && (g || x.gslot == 0) && (fr || x.freg == 0) && (nr || x.nreg == 0) && (po || x.pos == 0)
  match op with
  | 0x00 => tOnly f true true false false true false false && z false false false false
  | 0x01 => tOnly f false false false false true true false && z true false false false
  | 0x02 => tOnly f false false false false false false true && z true true true false
  | 0x03 => tOnly f false false false false false false true && z false false false false
  | 0x04 => tOnly f true false false false true false false && z true true true true
  | _ => false

/-- Class 6 (R302, Table 10.9). -/
def collWordOk (op : Nat) (f : FmtT) (w2 : Word) : Bool :=
  let x := sec6Of w2
  let n := x.nin.val + 1
  decide (op < 4) && fld 0 28 w2 == 0 && (decide (4 ≤ n) || x.in3 == 0) &&
  tOnly f true true (decide (2 ≤ n)) (decide (3 ≤ n)) false (op == 0) true &&
  (op == 0 || op == 2 || (n == 1 && !x.mode)) && (op == 3 || x.root == 0)

/-- Class 7 (Tables 10.10 and 10.11). -/
def fabricWordOk (op : Nat) (f : FmtT) (w2 : Word) : Bool :=
  let x := sec7Of w2
  let n := x.size.val
  let z (d v sz co ar : Bool) := w2 == sec7Word x && (d || x.dreg == 0) && (v || x.vreg == 0) && (sz || x.size == 0) &&
    (co || x.coef == 0) && (ar || (!x.arrive && x.rtally == 0))
  match op with
  | 0x00 => tOnly f (decide (8 < n)) false false false false false false && z false true true false false &&
      decide (8 ≤ n ∧ n ≤ 256) && n % 8 == 0
  | 0x01 => tOnly f false true false false false false true && z false false true false false && decide (8 ≤ n ∧ n ≤ 256) && n % 8 == 0
  | 0x0B => tOnly f false true false false false false true && z false false true true false && decide (64 ≤ n ∧ n ≤ 4096) && n % 64 == 0
  | 0x0C => tOnly f false false false false false false true && z true false false false false
  | 0x0D => tOnly f false true false false false false true && z false false false false true
  | _ => decide (2 ≤ op ∧ op ≤ 0x0A) && tOnly f false false false false false false false && z true true false false false

def wCls (w : Word) : Nat := fld 60 4 w
def wOp (w : Word) : Nat := fld 52 8 w

/-- Whether an image may hold an instruction (R279 CAUSE 6); nin gives the NIN of each of its microprograms. -/
def insnOk (nin : Nat → Option Nat) (w1 w2 : Word) : Bool :=
  let op := wOp w1
  !bit 51 w1 &&
  match wCls w1 with
  | 0 => ctlOk op (fmtROf w1)
  | 1 => scalarOk op (fmtROf w1)
  | 2 => !bit 14 w1 && moveOk op (fmtTOf w1) w2
  | 3 => !bit 14 w1 && laneWordOk nin op (fmtTOf w1) w2
  | 4 => !bit 14 w1 && stepWordOk nin op (fmtTOf w1) w2
  | 5 => !bit 14 w1 && codeWordOk op (fmtTOf w1) w2
  | 6 => !bit 14 w1 && collWordOk op (fmtTOf w1) w2
  | 7 => !bit 14 w1 && fabricWordOk op (fmtTOf w1) w2
  | 8 => tallyOpOk op (fmtROf w1)
  | 9 => voteOpOk op (fmtROf w1)
  | 10 => op == 0 && rOnly (fmtROf w1) false false false false
  | _ => false

/-! ### Microprograms (R137, R138) -/

def mLen (h : Word) : Nat := fld 0 6 h + 1
def mNin (h : Word) : Nat := fld 8 3 h
def mNout (h : Word) : Nat := fld 12 3 h
def mStep (h : Word) : Bool := bit 16 h

/-- Micro-operation words packed two to a 64-bit word, in ascending address. -/
def microOps (ws : List Word) (at? n : Nat) : List Nat :=
  (List.range n).map fun i => fld (32 * (i % 2)) 32 (ws.getD (at? + i / 2) 0)

def microDst (m : Nat) : Nat := bitsOf 18 6 m
def microSrcs (m : Nat) : List Nat := [bitsOf 12 6 m, bitsOf 6 6 m, bitsOf 0 6 m]

/-- A source operand that R138 lets a micro-operation name. -/
def microSrcOk (nin c : Nat) : Bool := if c < 5 then decide (c < nin) else decide (5 ≤ c ∧ c ≤ 7) || decide (0x10 ≤ c)

/-- Whether a microprogram keeps the rules of R137 and R138; a NOP writes nothing, whatever its DST (Table 5.1). -/
def microOk (hdr : Word) (ops : List Nat) : Bool :=
  let nin := mNin hdr
  let nout := mNout hdr
  fld 17 15 hdr == 0 && !bit 15 hdr && !bit 11 hdr && fld 6 2 hdr == 0 &&
  decide (1 ≤ nin ∧ nin ≤ 5) && decide (1 ≤ nout ∧ nout ≤ 4) &&
  fld 32 32 hdr == (crc32c (ops.flatMap fun m => toBytes 4 m)).toNat &&
  (ops.all fun m => laneOpOk (bitsOf 26 6 m) &&
    (decide (8 ≤ microDst m ∧ microDst m < 12) || decide (0x20 ≤ microDst m)) &&
    (microSrcs m).all (microSrcOk nin)) &&
  ((List.range 4).all fun j => (ops.filter fun m => bitsOf 26 6 m != 0 && microDst m == 8 + j).length == (if j < nout then 1 else 0))

/-! ### Program images (R278, R279) -/

/-- Second words of the two-word instructions of the code, by the CLASS of each word in turn, and whether every instruction is one that an image may hold (R279). -/
def codeWalk (nin : Nat → Option Nat) (ws : List Word) (endW : Nat) : Nat → Nat → Bool → List Nat → Bool × List Nat
  | 0, _, ok, se => (ok, se)
  | n + 1, i, ok, se =>
    if endW ≤ i then (ok, se)
    else
      let w := ws.getD i 0
      let two := classWords (wCls w) == 2
      let cut := two && decide (endW ≤ i + 1)
      codeWalk nin ws endW n (if two then i + 2 else i + 1) (ok && !cut && insnOk nin w (ws.getD (i + 1) 0)) (if two then (i + 1) :: se else se)

/-- Where the code of an image ends: at the first table behind it, or at the end of the image (R278). -/
def codeEndOf (n code entry micro : Nat) (hasMicro : Bool) : Nat :=
  let e := n
  let e := if code < entry then min e entry else e
  if hasMicro ∧ code < micro then min e micro else e

def rangesApart (a an b bn : Nat) : Bool := decide (a + an ≤ b) || decide (b + bn ≤ a)

/-- The image that words spell, or the lowest CAUSE with which it is refused (R279). -/
def parseImage (compat : Bool) (ws : List Word) : Nat ⊕ Image :=
  let w0 := ws.getD 0 0
  let w3 := ws.getD 3 0
  let n := fld 0 14 w0 + 1
  let version := fld 40 8 w0
  let entOff := fld 50 14 w3
  let ents := fld 44 6 w3 + 1
  let entW := cdiv ents 2
  let micOff := fld 30 14 w3
  let mics := fld 25 5 w3
  let micW := cdiv mics 2
  let code := fld 0 14 w3
  let half (o i : Nat) := fld (32 * (i % 2)) 32 (ws.getD (o + i / 2) 0)
  let entries := (List.range ents).map (half entOff)
  let heads := (List.range mics).map (half micOff)
  let mlen (h : Nat) := 1 + cdiv (mLen (ws.getD h 0)) 2
  let codeEnd := heads.foldl (fun e h => if code < h then min e h else e) (codeEndOf n code entOff micOff (decide (mics ≠ 0)))
  if fld 48 16 w0 != 0xC4E7 then .inl 1
  else if !(version == 2 || (version == 1 && compat)) then .inl 2
  else if decide (16 < mics) || decide (n ≤ 8) || decide (entOff < 8) || decide (n < entOff + entW) || decide (code < 8) || decide (n ≤ code) ||
      (mics != 0 && (decide (micOff < 8) || decide (n < micOff + micW) || !rangesApart entOff entW micOff micW)) ||
      decide (entOff ≤ code ∧ code < entOff + entW) || (mics != 0 && decide (micOff ≤ code ∧ code < micOff + micW)) then .inl 3
  else if fld 32 32 (ws.getD 1 0) != (crc32c (((ws.take n).drop 8).flatMap fun w => toBytes 8 w.toNat)).toNat then .inl 4
  else
    let (taken, second) := codeWalk (fun i => (heads[i]?).map fun h => mNin (ws.getD h 0)) ws codeEnd (codeEnd - code + 1) code true []
    if entries.any fun e => e != 0 && (decide (e < code) || decide (codeEnd ≤ e) || second.contains e) then .inl 5
    else if fld 14 26 w0 != 0 || fld 0 32 (ws.getD 1 0) != 0 || fld 14 11 w3 != 0 || (((ws.take 8).drop 4).any (· != 0)) || !taken then .inl 6
    else if !(heads.all fun h => decide (8 ≤ h) && decide (h + mlen h ≤ n) && microOk (ws.getD h 0) (microOps ws (h + 1) (mLen (ws.getD h 0)))) then .inl 7
    else .inr { id := ws.getD 2 0, version := version, words := ws.take n, entries := entries, micros := heads
                codeOff := code, codeEnd := codeEnd, second := second }

/-- Entry e of an image; none where it is absent. -/
def entryOf (m : Image) (e : Nat) : Option Nat := match m.entries.getD e 0 with
  | 0 => none
  | n => some n

end Sys2Proof.Machine
end

