-- ==== Sys2Proof/Machine/Seq.lean ====
section
/-! DEFINITION. The sequencer of a partition: ends and stops of long instructions (spec/09 R262 to R266), events (R269 to R272), activation of images (R280), program stops (R255), and flush, reset and fence of a partition (spec/13 R380 to R383, spec/09 R282). -/

namespace Sys2Proof.Machine

/-- Whether a word index lies in the code area of an image, at the start of an instruction (R255). -/
def codeAt (m : Image) (pc : Nat) : Bool := decide (m.codeOff ≤ pc ∧ pc < m.codeEnd) && !m.second.contains pc

/-- The program goes on at a word. -/
def runAt (p pc : Nat) (s : State) : State :=
  modPart p (fun x => { x with pc := pc % 16384, wait := none, seq := if x.inH then .handler else .run }) s

/-! ### Long instructions -/

/-- The publication entry that a PUBLISH writes (spec/11 R334). -/
def publishOf (l : Long) : Option Nat := if l.cls = 2 ∧ l.op = 8 then some (sec2Of l.x2).entry.val else none

/-- A long instruction ends: with a status that keeps its progress record at the granules done, or for good (R262 to R264). -/
def longEnd (p : Nat) (l : Long) (st : Nat) (keepRec : Bool) (s : State) : State :=
  let s := modPart p (fun x => { x with
    long := none
    stepHeld := if keepRec && l.step then some l.epoch else x.stepHeld
    progress := if keepRec then
        { x.progress with valid := true, susp := false, cls := l.cls, op := l.op, count := l.count, key := l.key, pub := publishOf l }
      else { x.progress with valid := false, susp := false, hyper := none, pub := none } }) s
  let s := if keepRec then s else endTally (if l.f.ten then some l.f.tally.val else none) s
  instrEnd p l.cls st (BitVec.ofNat 64 (if st = stPartial then l.count else l.result)) s

/-- A partition gives back the engines that its granule held, but not the tier mover, and is charged for them (spec/12 R348, R351). -/
def freeEngines (p : Nat) (s : State) : State :=
  let mine := s.mode.held.filter fun x => x.2 == p && x.1 != 29
  let s := mine.foldl (fun s x =>
    chargeEngine p (engineClass x.1) ((coreCount s - SMap.look 0 s.mode.since x.1) / 2) s) s
  { s with mode := { s.mode with held := s.mode.held.filter fun x => x.2 != p || x.1 == 29 } }

/-- A partition gives back the coding units that its granule held, or no longer waits for them (spec/05 R129). -/
def unlockAll (p : Nat) (s : State) : State :=
  let s := freeEngines p s
  { s with upd := { s.upd with lock := s.upd.lock.filter (fun x => x.1 != p), lockWait := s.upd.lockWait.filter (· != p) } }

/-- Ends a long instruction with a status of its own and no result (spec/13 Table 13.2); the record is kept for PARTIAL and FENCED; FENCED and GROUP_LOST end the current command too (R262, R263, spec/13 R383, spec/07 R204). A stop by any other status leaves no record that RESUME may continue (DESIGN CHOICE, log 202). -/
def longStop (p st : Nat) (s : State) : State :=
  match (partOf s p).long with
  | none => s
  | some l =>
    let s := longEnd p { l with result := 0 } st (st == stPartial || st == stFenced) (unlockAll p s)
    if st = stFenced ∨ st = stGroupLost then endCommand p st 0 s else s

/-- Asks a long instruction to stop at its next granule boundary; one that has not started ends at once. -/
def askStop (p st unstarted : Nat) (s : State) : State :=
  match (partOf s p).long with
  | none => s
  | some l =>
    if l.unstarted then longStop p unstarted s
    else modPart p (fun x => { x with long := some { l with stop := firstStatus l.stop st } }) s

/-! ### Events (R270) -/

def isRemoteWait (x : PartSt) : Bool := x.wait == some .remote

/-- Whether an event may be taken now: at an instruction boundary, at a granule boundary of a running long instruction, in WAIT other than that of a remote load or atomic (spec/10 R305), or in DISPATCH (R270). -/
def canTake (x : PartSt) : Bool :=
  x.eie && !x.inH && (match x.image with
    | some m => (entryOf m 2).isSome
    | none => false) && (x.epend &&& x.emask) != 0 && !isInstr x && !isRemoteWait x &&
  (match x.seq with
    | .dispatch => true
    | .run => true
    | .wait => true
    | .long => x.long.all fun l => l.stop == 0 && (l.unstarted || decide (0 < l.count))
    | _ => false)

/-! ### Images (R280) -/

/-- The banks swap: registers stay, ERES and ERET are discarded, EIE is 0 and the new program starts. -/
def swapBanks (p : Nat) (s : State) : State :=
  let x := partOf s p
  match x.staged with
  | none => s
  | some m =>
    let entry := if x.image.isNone then entryOf m 0 else (entryOf m 1).orElse fun _ => entryOf m 0
    let held := match x.susp with
      | some l => if l.step then some l.epoch else x.stepHeld
      | none => x.stepHeld
    let s := modPart p (fun x => { x with
      image := some m, staged := none, eres := false, eret := 0, eretDispatch := false, eie := false, inH := false
      susp := none, stepHeld := held, progress := { x.progress with susp := false } }) s
    match entry with
    | some e =>
      if isInstr x then modPart p (fun x => { x with pc := e }) s
      else noteCommand p (modPart p (fun x => { x with pc := e, seq := .run, wait := none }) s)
    | none => if x.cur.isSome then endCommand p stBad 0 s else toDispatch p s

/-- Activation of the image staged for a partition. -/
def activateImage (p : Nat) (s : State) : State :=
  let x := partOf s p
  if x.staged.isNone then s
  else match x.long with
    | some l =>
      if l.unstarted then swapBanks p (longStop p stPartial s)
      else modPart p (fun x => { x with long := some { l with stop := firstStatus l.stop stPartial, swap := true } }) s
    | none => swapBanks p s

/-- A LOAD writes the staging bank, so that an image staged before is gone even where the new one is refused; one that R279 takes is staged, and a block with no open job activates it at once (R279, R280). -/
def stageImage (p : Nat) (r : Nat ⊕ Image) (s : State) : State × Bool :=
  match r with
  | .inl c => (modPart p (fun x => { x with imgRefused := true, imgCause := c, staged := none }) s, false)
  | .inr m =>
    let s := setEpend p evStaged (modPart p (fun x => { x with staged := some m }) s)
    (if s.ep.phase = 0 then activateImage p s else s, true)

/-! ### Program stops, fences, resets -/

/-- A partition is fenced (R383). -/
def fencePart (p : Nat) (s : State) : State :=
  if (partOf s p).fenced then s
  else
    let s := partCause p 6 (modPart p (fun x => { x with fenced := true }) s)
    let s := modPart p (fun x => { x with sq := x.sq.map fun q =>
      (q.1, if q.2.en && q.2.head != q.2.tail then { q.2 with fenceTo := some q.2.tail } else q.2) }) s
    let x := partOf s p
    match x.long with
    | some _ => askStop p stFenced stFenced s
    | none =>
      if x.cur.isSome then endCommand p stFenced 0 s
      else if x.wait.isSome then toDispatch p s
      else s

/-- A job fault fences every other partition bound to the same tag (R383). -/
def jobFault (p : Nat) (s : State) : State :=
  let x := partOf s p
  if x.bound then forAll ((boundTo s x.tag).filter (· != p)) fencePart s else s

/-- The program stops (R255, R383). -/
def programStop (p : Nat) (s : State) : State :=
  let s := violate 2 s
  let s := match (partOf s p).cur with
    | some _ => endCommand p stBad 0 s
    | none => toDispatch p s
  jobFault p (partCause p 5 s)

/-- Records the tails of the enabled submission queues; entries before them will complete FLUSHED (R380, R381). -/
def recordTails (p : Nat) (s : State) : State :=
  modPart p (fun x => { x with sq := x.sq.map fun q =>
    (q.1, if q.2.en && q.2.head != q.2.tail then { q.2 with flushTo := some q.2.tail } else q.2) }) s

/-- A flush ends when nothing is current and every recorded entry has completed (R380). -/
def flushEnd (p : Nat) (s : State) : State :=
  let x := partOf s p
  if x.flushing && x.cur.isNone && !(x.sq.any fun q => q.2.flushTo.isSome) then modPart p (fun x => { x with flushing := false }) s
  else s

def flushEnds (s : State) : State := forAll ((s.part.filter fun x => x.2.flushing).map (·.1)) flushEnd s

/-- FLUSH (R380, R309, R176). -/
def flushPart (p : Nat) (s : State) : State :=
  let x := partOf s p
  if x.flushing || x.resetting then s
  else
    let s := recordTails p (modPart p (fun x => { x with flushing := true }) s)
    let s := match x.long with
      | some l => askStop p stPartial (if l.f.resume then stPartial else stFlushed) s
      | none => match x.wait with
        | some (.slotFree _) => runAt p x.pc s
        | some (.tally _) => instrEnd p 8 stFlushed 0 s
        | some (.slot _) => instrEnd p 8 stFlushed 0 s
        | some (.event _) => instrEnd p 8 stFlushed 0 s
        | some (.epoch _ _) => instrEnd p 9 stFlushed 0 s
        | _ => s
    flushEnd p (collFlush p s)

/-- Open instructions of a reset partition end: collectives under R176, prefetch under R324, the rest is abandoned (R381). -/
def dropOpen (p : Nat) (s : State) : State :=
  let s := collReset p s
  let os := (partOf s p).ops
  let s := pfAbandon p (modPart p (fun x => { x with ops := [] }) s)
  os.foldl (fun s o => match o.cur with
    | some c => if (partOf s p).cur == some c then s else complete c stAborted 0 s
    | none => s) s

/-- The Cuoner state after a partition reset (R282, spec/05 R147). -/
def resetCuoner (p : Nat) (s : State) : State :=
  modPart p (fun x => { x with
    staged := none, g := [], pr := 1, d := [], st := 0, epend := 0, emask := 0, eie := false, eret := 0, eretDispatch := false
    eres := false, slots := [], laneFlags := 0, progress := {}, long := none, susp := none, wait := none, inH := false, stepHeld := none
    retry := none, timer := [], edge := [], resetting := false
    pc := (match x.image with
      | some m => (entryOf m 0).getD 0
      | none => 0)
    seq := match x.image with
      | some m => (match entryOf m 0 with
        | some _ => .run
        | none => .dispatch)
      | none => .noImage }) s

/-- A RESTORE of a reset partition ends, and the regions of its map are undefined (spec/14 R407). -/
def restoreAbort (p : Nat) (s : State) : State :=
  match s.exp.restoring with
  | none => s
  | some x =>
    if x.cur.p.val != p then s
    else
      let s := x.regions.eraseDups.foldl (fun s i =>
        let r := regionOf s i
        forget (regionAddr r) (4096 * r.units) (preserve (regionAddr r) (4096 * r.units) s)) { s with exp := { s.exp with restoring := none } }
      complete x.cur stAborted 0 s

/-- The steps of a partition reset that follow the stop of its instruction, whose end counts on its tally (R381, R335, R262); a PUBLISH whose record stands ends too, split mode ends (spec/15 R421), and a partition that leaves the job is unbound (spec/07 R187). -/
def finishReset (p : Nat) (s : State) : State :=
  let x := partOf s p
  let pubs := ((x.long.filter fun l => !l.unstarted).bind publishOf).toList ++ (x.susp.bind publishOf).toList ++
    (if x.progress.valid then x.progress.pub.toList else [])
  let s := pubs.eraseDups.foldl (fun s i => publishAbandon i s) s
  let s := [x.long, x.susp].foldl (fun s l => match l with
    | some l => endTally (if l.f.ten then some l.f.tally.val else none) s
    | none => s) (unlockAll p (recordTails p s))
  let s := match (partOf s p).cur with
    | some c => complete c stAborted 0 (modPart p (dropCur c) s)
    | none => s
  let s := resetCuoner p (dropOpen p (restoreAbort p { s with sram := { s.sram with split := setFld 63 1 0 s.sram.split, splitArm := false } }))
  flushEnd p (if x.leaving then modPart p (fun x => { x with bound := false, fenced := false, leaving := false }) s else s)

/-- Leaders of the groups of this block: the lowest live rank of each group's positions that no verdict has named (R181). -/
def groupLeader (s : State) (ranks : List Nat) (g : Group) : Option Nat :=
  let live := (ranks.zipIdx).filter fun x => posLive g x.2 && !s.tar.failed.any fun f => f.1 == x.1
  match live.map (·.1) with
  | [] => none
  | r :: rs => some (rs.foldl min r)

def slotLeader (s : State) (sl : Nat) : Option Nat := groupLeader s (groupRanks s (grpOf s sl)) (grpOf s sl)

def myLeaders (s : State) : List Nat := ((slotsOn s).filterMap (slotLeader s)).eraseDups

def isSuspect (s : State) (r : Nat) : Bool := s.tar.suspects.any fun x => x.1 == r

/-- A REPORT to a rank (R181). -/
def sendReport (dst : Nat) (r : Report) (s : State) : State :=
  sendTarra dst { tarraOf s 0 r.rank r.inc s.ep.epoch with cause := r.cause } s

/-- Leaders to whom a report of this block on itself goes: in each of its groups the lowest live rank but its own that is no suspect (R181). -/
def reportLeaders (s : State) : List Nat :=
  ((slotsOn s).filterMap fun sl =>
    let g := grpOf s sl
    let live := ((groupRanks s g).zipIdx).filter fun x => posLive g x.2 && x.1 != servedRank s && !s.tar.failed.any (fun f => f.1 == x.1) && !isSuspect s x.1
    match live.map (·.1) with
    | [] => none
    | r :: rs => some (rs.foldl min r)).eraseDups

/-- A report of this block on itself to the leader of each of its groups, with the fatal cause kept (Table 15.3); it is sent again each ms like any report (R181). -/
def selfReportAs (cause p : Nat) (s : State) : State :=
  let r : Report := { rank := servedRank s, inc := s.job.inc, cause := 5 }
  (reportLeaders s).foldl (fun s l => sendReport l r s)
    (fatalCause cause p { s with tar := { s.tar with reports := r :: s.tar.reports.filter (· != r) } })

/-- The self-report of R382 and R441. -/
def selfReport (p : Nat) (s : State) : State := selfReportAs 3 p s

/-- An uncorrectable byte in an area that holds the only copy of its state: the last fatal cause is written, and a bound block reports itself (spec/15 Table 15.2). -/
def blockFatal (s : State) : State := if anyBound s then selfReportAs 1 (stepPartNo s) s else fatalCause 1 (stepPartNo s) s

def codedJob (s : State) (tag : Nat) : Bool :=
  tag == s.job.tag && s.ep.phase != 0 && s.reg.table.any fun x => x.2.valid && codedClass x.2.cls

/-- A partition reset begins: a started long instruction stops at its next granule boundary (R381). -/
def startReset (p : Nat) (s : State) : State :=
  let s := modPart p (fun x => { x with resetting := true, flushing := false }) s
  match (partOf s p).long with
  | some l => if l.unstarted then finishReset p s
    else modPart p (fun x => { x with long := some { l with stop := stAborted } }) s
  | none => finishReset p s

/-- RESET (R381, R382). -/
def resetPart (p : Nat) (s : State) : State :=
  let x := partOf s p
  let coded := x.bound && codedJob s x.tag
  let s := if coded then exportStop 4 true (partCause p 7 (selfReport p s)) else s
  let s := startReset p s
  if coded then s else jobFault p s

/-- The step partition is unbound: the fidelity event and the note of a last epoch go with it (R373, spec/02 Tables 2.9 and 2.14). -/
def dropFidelity (s : State) : State := { s with fid := {}, ep := { s.ep with fid := false, limit := false } }

/-- The block learns that its own rank has failed (R187): partitions of the tag are reset, and unbound once their resets are done. -/
def ownFailure (s : State) : State :=
  let ps := boundTo s s.job.tag
  let s := exportStop 4 true (fatalCause 2 (stepPartNo s) s)
  let s := forAll ps (fun p s => startReset p (modPart p (fun x => { x with leaving := true }) s)) s
  { setPhase 0 (dropFidelity s) with job := { s.job with exchanged := false } }

end Sys2Proof.Machine
end

