-- ==== Sys2Proof/Machine/Digest.lean ====
section
/-! DEFINITION. Words of entries and registers that other parts read whole: region entries (spec/02 Table 2.1), group slots (spec/03 Table 3.10), the mode word (spec/12 Table 12.8), and the configuration digest (spec/13 R387). -/

namespace Sys2Proof.Machine

def wordOf (fs : List (Nat × Nat)) : Word := BitVec.ofNat 64 (pack fs)

/-- The four words of a region entry (Table 2.1). -/
def regionWords (r : Region) : List Word :=
  [wordOf [(52, r.base), (10, 0), (2, r.tier)],
   wordOf [(4, r.group), (1, b2n r.fresh), (3, 0), (8, r.format), (4, r.cls), (4, r.owner), (8, 0), (32, r.units)],
   wordOf [(14, r.source), (2, 0), (1, b2n r.valid), (1, 0), (1, b2n r.exportPend), (1, b2n r.fidelity), (12, 0), (32, r.fidEpoch)],
   wordOf [(8, r.replicas)]]

/-- Word k of TKJ_GROUP (Table 3.10). -/
def groupWord (g : Group) (k : Nat) : Word :=
  match k with
  | 0 => wordOf [(3, g.m), (5, 0), (5, g.k), (27, 0), (5, g.self), (5, 0), (2, g.standbys), (2, g.axis), (2, g.mode), (7, 0), (1, b2n g.en)]
  | 1 => wordOf [(17, g.rank0)]
  | 2 => wordOf [(32, g.dataUnits), (32, gCycles g)]
  | 3 => wordOf [(52, g.parBase), (10, 0), (2, g.parTier)]
  | 4 => wordOf [(52, g.hdrBase), (10, 0), (2, g.hdrTier)]
  | 5 => wordOf [(22, g.live), (40, 0), (1, b2n g.lost), (1, b2n g.sorrel)]
  | 6 => wordOf [(40, if g.en then gCycles g * g.m else 0)]
  | _ => wordOf [(59, 0), (4, g.cause), (1, b2n g.badGeom)]

/-- TKJ_MODE (Table 12.8). -/
def modeWord (s : State) : Word :=
  wordOf [(1, b2n s.mode.chervil), (1, b2n s.mode.compat), (14, 0), (32, s.mode.tableCrc.toNat), (13, 0),
    (1, b2n s.mode.tableNext.isSome), (1, b2n s.mode.table.isSome), (1, b2n (!s.mode.chervilNext.isEmpty))]

/-- The active IMAGE_ID of a partition; 0 with none (Table 9.16). -/
def activeId (s : State) (p : Nat) : Word := match (partOf s p).image with
  | some m => m.id
  | none => 0

/-- The 69 words of the digest record (Table 13.6). -/
def digestWords (s : State) : List Word :=
  [s.fab.torus] ++
  ((List.range 16).flatMap fun g => [groupWord { grpOf s g with self := 0 } 0, 0, 0]) ++
  [setFld 32 9 0 s.upd.reduceMode.now, s.coll.timeout.now, s.cod.trainWin.now,
   modeWord s &&& wordOf [(1, 1), (1, 1), (14, 0), (32, 0xFFFFFFFF)]] ++
  (List.range 16).map (activeId s)

/-- TKJ_CFG_DIGEST (R387). -/
def cfgDigest (s : State) : Word :=
  BitVec.ofNat 64 (ofBytes ((sha256 ((digestWords s).flatMap fun w => toBytes 8 w.toNat)).take 8))

def gradeCode (s : State) : Nat := match s.fuse.grade with
  | .a => 0x0A
  | .b => 0x0B

/-- A recording starts with its START entry, its first cycle some cycles from now (R358, Table 12.5). -/
def startRecord (wait : Nat) (s : State) : State :=
  let s := { s with rcd := { s.rcd with
    active := true, armed := false, full := false, wrapped := false, pos := 0, payPos := 0, start := coreCount s + wait, same := [], sameAt := 0 } }
  logEntry 0 (pack [(1, b2n s.mode.chervil), (1, b2n s.rcd.payload), (1, b2n s.rcd.atCommit)]) 0 0 (cfgDigest s).toNat
    (gradeCode s * 2 ^ 56 + s.ep.epoch) s

/-- A log entry as fields (Table 12.6). -/
structure LogEntry where
  cycle : Nat
  kind : Nat
  src : Nat
  crc : Nat
  len : Nat
  d0 : Nat
  d1 : Nat
  deriving DecidableEq, Repr

def parseLog (bs : List Byte) : LogEntry :=
  let x := ofBytes bs
  { cycle := bitsOf 0 48 x, kind := bitsOf 48 4 x, src := bitsOf 56 8 x, crc := bitsOf 64 32 x, len := bitsOf 96 32 x
    d0 := bitsOf 128 64 x, d1 := bitsOf 192 64 x }

/-- Entry n of the stream: the state after the read, whether it failed, and the entry. -/
def readLog (n : Nat) (s : State) : State × Bool × LogEntry :=
  let a := logBase s.rcd.base + 32 * n
  let (t, bad) := memTouch a 32 s
  (t, bad, parseLog (memBytes a 32 s))

/-- Units of the payload stream that the entries from one on take, up to END or an entry that no recording writes there. -/
def payUnits (s : State) : Nat → Nat → Nat
  | 0, _ => 0
  | k + 1, n =>
    let e := parseLog (memBytes (logBase s.rcd.base + 32 * n) 32 s)
    if (e.kind = 0 ∧ n ≠ 0) ∨ 8 ≤ e.kind then 0
    else (if e.kind = 0 ∨ e.kind = 2 ∨ e.kind = 3 then 0 else cdiv e.len 32) + payUnits s k (n + 1)

/-- Whether neither stream of a log has wrapped: its START entry stands, and its payloads have room (R359; DEDUCED, log 104). -/
def logWhole (s : State) (e : LogEntry) : Bool := e.kind == 0 && decide (payUnits s (recEntries s) 0 ≤ recPayload s)

/-- What R359 asks of the START entry on this block beside the instant. -/
def replayFits (s : State) (e : LogEntry) : Bool :=
  logWhole s e && e.d0 == (cfgDigest s).toNat && bitsOf 56 8 e.d1 == gradeCode s && bitOf 0 e.src == s.mode.chervil && bitOf 1 e.src

/-- Whether the block stands at the instant of R49 of the START epoch, for a log that started at one (R359). -/
def atStart (s : State) (e : LogEntry) : Bool :=
  bitOf 2 e.src && s.ep.phase == 1 && s.ep.commitAt == some (instant s) && s.ep.epoch == bitsOf 0 32 e.d1

/-- Whether the START entry allows a replay here and now (R359). -/
def replayOk (s : State) (e : LogEntry) : Bool := replayFits s e && (!anyBound s || atStart s e)

/-- A replay that R359 refuses. -/
def refuseReplay (s : State) : State := raiseGlobal vReplay { s with rcd := { s.rcd with refused := true, armed := false } }

/-- A replay starts, at the entry behind START (R359). -/
def startReplay (s : State) : State :=
  { s with rcd := { s.rcd with active := true, armed := false, pos := 1, payPos := 0, start := coreCount s } }

/-- A replay starts, or in chervil mode at the next frame boundary (R359, R360; DEDUCED, log 104). -/
def goReplay (s : State) : State :=
  if s.mode.chervil then { s with rcd := { s.rcd with armed := true, passed := true } } else startReplay s

/-- Whether the log area is one that R358 allows: both streams in T2 or T3, and a log at all (Table 12.11). -/
def logAreaOk (s : State) : Bool :=
  decide (2 ≤ fld 62 2 s.rcd.base) && decide (2 ≤ fld 62 2 s.rcd.pbase) && fld 0 32 s.rcd.size != 0

/-- OP 2 (R359); with AT_COMMIT set, a log that started at a commit is armed for the next one (DEDUCED, log 104). Its log is read once HOST is free (spec/16 R437). -/
def replayOp (s : State) : State :=
  if s.rcd.active || !logAreaOk s then s
  else if hostHeld s then { s with rcd := { s.rcd with op := 2, armed := false, passed := false, waits := true } }
  else
    let (s, bad, e) := readLog 0 { s with rcd := { s.rcd with op := 2, armed := false, passed := false, waits := false } }
    if bad || !replayFits s e then refuseReplay s
    else if replayOk s e then goReplay s
    else if bitOf 2 e.src && s.rcd.atCommit then { s with rcd := { s.rcd with armed := true } }
    else refuseReplay s

/-- An armed replay at a frame boundary of chervil mode: its START entry is held against the block as it stands then; a log that started at a commit asks for the START epoch still open (R359, R360; DEDUCED, log 104). -/
def frameReplay (s : State) : State :=
  let (s, bad, e) := readLog 0 s
  if bad || !replayFits s e || (anyBound s && !(bitOf 2 e.src && s.ep.phase == 1 && s.ep.epoch == bitsOf 0 32 e.d1)) then refuseReplay s
  else startReplay s

end Sys2Proof.Machine
end

