-- ==== Sys2Proof/Machine/Epoch.lean ====
section
/-! DEFINITION. The epoch of a job: the wave issuer and its waves (spec/02 R40, R42, spec/07 R184), votes, guard and landing reports (spec/04 R105, R106), the commit instant (R49) with every change deferred to it (R38, R280, R336, R391, spec/18 R467), the abort and the re-run of an epoch (R46, R47, R111, R203), a lost group (R204), and the seed sweeps of admission (R93). -/

namespace Sys2Proof.Machine

/-! ### Ranks that act for the job -/

/-- Whether a FAILED or REPLACED verdict has named a rank. -/
def rankFailed (s : State) (r : Nat) : Bool := s.tar.failed.any fun f => f.1 == r

/-- Whether a rank no longer acts for the job: a verdict has named it, or it is retired by a takeover (R184, R220). -/
def rankFallen (s : State) (r : Nat) : Bool := rankFailed s r || (translate s r).isNone

/-- Whether a verdict has settled a key: FAILED or REPLACED named it, and no target of the rank goes by it again (R180, R182, R204). -/
def keyFailed (s : State) (rank inc : Nat) : Bool := s.tar.failed.contains (rank, inc) && !s.tar.again.contains (rank, inc)

/-- Whether no live block serves a rank: it is retired, or a verdict has named it and no target has taken it (R220; DEDUCED, log 40). -/
def rankDead (s : State) (r : Nat) : Bool := (translate s r).isNone || (rankFailed s r && (xlatFind s r).isNone)

/-- The job's wave issuer: the lowest live logical rank (R184). -/
def issuerRank (s : State) : Nat :=
  match s.job.members.filter fun r => !rankFallen s r with
  | [] => servedRank s
  | r :: rs => rs.foldl min r

def isIssuer (s : State) : Bool := issuerRank s == servedRank s && s.ep.phase != 0

/-- Coordinates of the live blocks of the job; a failed rank counts only where another block serves it (R220; DEDUCED, log 40). -/
def jobBlocks (s : State) : List Nat :=
  ((s.job.members.filter fun r => !rankDead s r).filterMap (translate s)).eraseDups

/-- Whether reports from a list of ranks cover every live block. -/
def allHeard (s : State) (origins : List Nat) : Bool :=
  let cs := origins.filterMap (translate s)
  (jobBlocks s).all fun c => cs.contains c

/-! ### Groups of the job by the directory (R181) -/

/-- Ranks of the positions of a directory group, in order (spec/03 R59). -/
def dirRanks (s : State) (d : DirGroup) : List Nat :=
  (List.range (d.members + d.standbys)).map fun j => rankOf s (stepCoord s ((coordOfRank s d.rank0).getD 0) d.axis j)

/-- Groups of the job in which a rank holds a position. -/
def dirOf (s : State) (r : Nat) : List DirGroup := s.job.dir.filter fun d => (dirRanks s d).contains r

/-- Whether a rank holds a member position of some group of the job (R46). -/
def memberRank (s : State) (r : Nat) : Bool := (dirOf s r).any fun d => ((dirRanks s d).take d.members).contains r

/-- Whether a rank votes: it holds a member position of some group, or the job gives it no position; a standby follows the waves (DEDUCED, log 70). -/
def castsVote (s : State) (r : Nat) : Bool := (dirOf s r).isEmpty || memberRank s r

/-- Whether the votes that the issuer holds cover every live block that votes (R42; DEDUCED, log 70). -/
def allVoted (s : State) (origins : List Nat) : Bool :=
  let cs := origins.filterMap (translate s)
  !cs.isEmpty && ((s.job.members.filter fun r => !rankDead s r && castsVote s r).filterMap (translate s)).all fun c => cs.contains c

/-- Whether this block holds standby positions only (DEDUCED, log 70). -/
def passive (s : State) : Bool := !(slotsOn s).isEmpty && (slotsOn s).all fun sl => !isMember (grpOf s sl)

def tarraNow (s : State) (kind : Nat) : Tarra := tarraOf s kind (servedRank s) s.job.inc s.ep.epoch

def fidelityWord (s : State) : Nat := fidelityPack s.fid

/-- The event that the commit wave carries: that of a rebuild restored in this epoch, else the first that the issuer holds (DEDUCED, log 41). -/
def commitEvent (s : State) : Nat :=
  let i := s.tar.issuer
  if i.fidData != 0 && (i.fidRebuilt || !s.fid.valid) then i.fidData else fidelityWord s

/-! ### The issuer -/

def setIssuer (f : Issuer → Issuer) (s : State) : State := { s with tar := { s.tar with issuer := f s.tar.issuer } }
def setLeader (f : Leader → Leader) (s : State) : State := { s with tar := { s.tar with leader := f s.tar.leader } }

/-- The groups of the job as RANK0 and AXIS. -/
def jobGroups (s : State) : List (Nat × Nat) :=
  ((s.job.dir.map fun d => (d.rank0, d.axis)) ++ ((slotsOn s).map fun sl => ((grpOf s sl).rank0, (grpOf s sl).axis))).eraseDups

/-- The issuer issues each wave whose condition holds, once (R40, R42, R203); no guard wave follows a verdict of an earlier core cycle that is not yet decided (R46). -/
def issuerDecide (s : State) : State :=
  let i := s.tar.issuer
  if !isIssuer s || i.awaiting || i.taking then s
  else if s.ep.rerun then
    if i.rebuilding.all fun r => i.restored.contains r then issueWave (tarraNow s 14) (setIssuer (fun i => { i with awaiting := true }) s)
    else s
  else if !i.voteIssued && allVoted s (i.votes.map (·.1)) then
    let skip := i.votes.any (·.2)
    issueWave { tarraNow s 6 with data := b2n skip } (setIssuer (fun i => { i with voteIssued := true, guardIssued := i.guardIssued || skip }) s)
  else if i.voteIssued && !i.guardIssued && (i.tied.all fun v => v.1 == instant s) && (jobGroups s).all fun g => i.groups.contains g then
    issueWave (tarraNow s 9) (setIssuer (fun i => { i with guardIssued := true }) s)
  else if !i.commitIssued && allHeard s i.landed then
    issueWave { tarraNow s 11 with data := commitEvent s } (setIssuer (fun i => { i with commitIssued := true }) s)
  else s

def current (s : State) (t : Tarra) : Bool := t.epoch == s.ep.epoch && t.attempt == s.ep.attempt && s.ep.phase != 0

/-- A block sends its flag when it enters vote (Table 2.5, R42). -/
def sendVote (s : State) : State :=
  if s.ep.phase = 3 ∧ !s.ep.voted then
    sendTarra (issuerRank s) { tarraNow s 5 with data := b2n s.ep.flag } { s with ep := { s.ep with voted := true } }
  else s

/-- A flag at the wave issuer; one of a later epoch, which a block ahead sends to a new issuer that has not opened it, counts as that block's HANDOVER report of that epoch (R42, R470; DEDUCED, log 189). -/
def takeVote (t : Tarra) (s : State) : State :=
  if current s t && isIssuer s then
    issuerDecide (setIssuer (fun i => { i with votes := SMap.put i.votes t.origin (t.data.testBit 0) }) s)
  else if s.ep.phase != 0 && decide (s.ep.epoch < t.epoch) then
    setIssuer (fun i => { i with handover := SMap.put i.handover t.origin (t.epoch, t.attempt, 2 + b2n (t.data.testBit 0)) }) s
  else s

def takeGroupGuarded (t : Tarra) (s : State) : State :=
  if current s t && isIssuer s then
    issuerDecide (setIssuer (fun i => { i with groups := (t.rank, t.cause % 4) :: i.groups.filter (· != (t.rank, t.cause % 4)) }) s)
  else s

/-- A landed report at the wave issuer (R40). -/
def issuerLanded (t : Tarra) (s : State) : State :=
  if current s t && isIssuer s then
    let word := if bitOf 63 t.data then bitsOf 32 32 t.data + 2 ^ 32 * t.epoch else 0
    issuerDecide (setIssuer (fun i => { i with
      landed := t.origin :: i.landed.filter (· != t.origin), fidData := if i.fidData = 0 then word else i.fidData }) s)
  else s

/-! ### Guarded -/

/-- Slots that this block leads. -/
def slotsLed (s : State) : List Nat := (slotsOn s).filter fun sl => slotLeader s sl == some (servedRank s)

/-- A leader reports a group guarded once all its members have (R106). -/
def leaderGuarded (s : State) : State :=
  (slotsLed s).foldl (fun s sl =>
    let g := grpOf s sl
    let key := (g.rank0, g.axis)
    let ok := (memberRanks s g).all fun r => s.tar.leader.guarded.contains (r, s.ep.epoch, s.ep.attempt)
    if ok && !s.tar.leader.sentGuarded.contains key then
      sendTarra (issuerRank s) { tarraOf s 8 g.rank0 s.job.inc s.ep.epoch with cause := g.axis }
        (setLeader (fun l => { l with sentGuarded := key :: l.sentGuarded }) s)
    else s) s

def takeGuarded (t : Tarra) (s : State) : State :=
  if current s t then
    leaderGuarded (setLeader (fun l => { l with
      guarded := (t.origin, t.epoch, t.attempt) :: l.guarded.filter fun x => x.1 != t.origin && x.2.1 == t.epoch }) s)
  else s

/-- Whether the guard sweeps of this block's own FRESH slots stand formed in this attempt (R298). -/
def freshFormed (s : State) : Bool :=
  (slotsOn s).all fun sl => (grpOf s sl).mode != 1 || (owedUnits s sl).all fun x => sweepFormed s sl x.1 x.2

def guardedNow (s : State) : Bool := s.ep.phase == 4 && !s.ep.guardedRep && parityCurrent s [1] && guardLanded s && freshFormed s

/-- GUARDED goes to the leader of each group of this block (R106). -/
def sendGuarded (s : State) : State := (myLeaders s).foldl (fun s l => sendTarra l (tarraNow s 7) s) s

def reportGuardedOp (s : State) : State :=
  if guardedNow s then sendGuarded { s with ep := { s.ep with guardedRep := true } } else s

/-! ### Landed -/

/-- CRC of the step record (R136): over the 16 hyper-operand words of each entry in order, and then its micro-operation words as 8 bytes each; the spec does not say which bytes it covers (DESIGN CHOICE, log 166). -/
def stepRecCrc (s : State) : Half :=
  crc32c (s.upd.stepRec.flatMap fun e => (e.hyper.flatMap fun h => toBytes 4 h.toNat) ++ e.micro.flatMap fun w => toBytes 8 w.toNat)

/-- A run of this block as target whose epoch is the open one and which is not yet rolled forward (R203). -/
def targetBusy (s : State) : Bool := s.reb.runs.any fun r => !r.restored && !r.aborted && r.epoch == s.ep.epoch && writesRun s r

/-- Whether the block reports landed now: the epoch is closed, and none of its outbox entries, collectives, parity units or roll-forwards is open (R105, R163, R203). -/
def landedNow (s : State) : Bool :=
  s.ep.closed && !s.ep.landedRep && allLanded s && !(s.coll.openC.any fun c => c.epoch == s.ep.epoch) && (s.ep.skip || parityCurrent s [0, 1]) && !targetBusy s

/-- LANDED goes to the wave issuer and to the leaders of this block's groups (R105, R136, R212). DATA [31:0] is the CRC of the step record; DATA [63:32] carries the region, rank and VALID bit of the event that this block holds, for the commit wave of R35 (DESIGN CHOICE, log 144). -/
def sendLanded (s : State) : State :=
  let t := { tarraNow s 10 with data := (stepRecCrc s).toNat + 2 ^ 32 * (fidelityWord s % 2 ^ 32) }
  ((issuerRank s :: myLeaders s).eraseDups).foldl (fun s r => sendTarra r t s) s

def reportLandedOp (s : State) : State :=
  if landedNow s then setPhase 7 (sendLanded { s with ep := { s.ep with landedRep := true } }) else s

/-! ### Steps that wait for a phase -/

/-- Every partition whose long instruction is an unstarted STEP one. -/
def stepWaiting (s : State) (fresh : Bool) : List Nat :=
  (s.part.filter fun x => match x.2.long with
    | some l => l.step && l.unstarted && (decide (l.cls = 5) == fresh)
    | none => false).map (·.1)

def startLong (p : Nat) (s : State) : State :=
  modPart p (fun x => { x with long := x.long.map fun l => { l with unstarted := false } }) s

/-- Ends every unstarted STEP instruction with a status (R133, R295). -/
def endWaiting (st : Nat) (s : State) : State :=
  forAll (stepWaiting s true ++ stepWaiting s false) (fun p s => longStop p st s) s

/-! ### Waves at every block -/

def noteWave (kind : Nat) (s : State) : State := { s with ep := { s.ep with lastWave := kind } }

/-- The vote result (R42, Table 2.5). -/
def takeVoteResult (t : Tarra) (s : State) : State :=
  if !current s t || s.ep.vote != 0 then s
  else
    let skip := t.data.testBit 0
    let s := noteWave 6 { s with ep := { s.ep with vote := if skip then 2 else 1, skip := skip } }
    let s := setIssuer (fun i => { i with voteIssued := true, guardIssued := i.guardIssued || skip }) s
    if skip then
      let s := { s with upd := { s.upd with nonfiniteStat := bump 0 16 (setFld 32 32 s.ep.epoch s.upd.nonfiniteStat) } }
      wakeAll (setPhase 6 (releaseDeltas (endWaiting stSkip s)))
    else
      let s := setPhase 4 s
      forAll (stepWaiting s true) startLong s

/-- The guard wave (R40). -/
def takeGuardWave (t : Tarra) (s : State) : State :=
  if !current s t || s.ep.guardWave then s
  else
    let s := noteWave 9 { s with ep := { s.ep with guardWave := true } }
    let s := setLeader (fun l => { l with guardTime := s.clk.wall }) (setIssuer (fun i => { i with guardIssued := true }) s)
    let s := setPhase 5 s
    forAll (stepWaiting s false) startLong s

/-- The update sweep ends when ENDUPD has run and no STEP instruction of the epoch stands (R311), on a standby at once (DEDUCED, log 70); update ends when the last train has departed (Table 2.5). -/
def phaseSteps (s : State) : State :=
  let s := if s.ep.phase = 5 ∧ (s.ep.endupd ∨ passive s) ∧ !s.ep.updEnded ∧ !stepStands s then endUpdateSweep s else s
  let s := if s.ep.phase = 5 ∧ s.ep.updEnded ∧ trainsDeparted s then setPhase 6 s else s
  sendVote s

/-- The block closes the epoch (R105). -/
def closeOp (s : State) : State :=
  if s.ep.phase = 6 ∧ !s.ep.closed ∧ (s.ep.skip ∨ s.ep.updEnded) ∧ !stepStands s ∧ !s.ep.rerun then closeEpoch (scalarLand s) else s

/-! ### Commit -/

/-- The cut of an armed export: the regions as they stand, and the pages that are sealed, one that is being retired among them (R391, R395, R396). -/
def exportCutNow (n : Nat) (skip : Bool) (s : State) : State :=
  if s.exp.state != 1 || s.exp.epoch != n then s
  else
    let s := s.exp.map.foldl (fun s m => modRegion m.region (fun r => { r with exportPend := true }) s) s
    let ex := s.exp.map.map (·.region)
    let held := (List.range (pageTotal s)).filterMap fun k =>
      match pageLoc s k with
      | some (i, _, a) => if (pageOf s k).isSealed && ex.contains i then some (i, a) else none
      | none => none
    { s with exp := { s.exp with
        regs := ex.map fun i => (i, regionOf s i), began := coreCount s
        state := 2, epoch := n, skipped := skip, fid := s.fid.valid, digest := cfgDigest s, sealedAt := held
        tag := (partOf s s.exp.part.val).tag, rank := servedRank s, inc := s.job.inc } }

/-- Every deferred register takes its new value (R467, R49). -/
def commitDeferred (s : State) : State :=
  let t := instant s
  let ports := s.port.map fun x => (x.1, { x.2 with
    ctl := deferCommit t x.2.ctl, share0 := deferCommit t x.2.share0, share1 := deferCommit t x.2.share1, share2 := deferCommit t x.2.share2 })
  let parts := s.part.map fun x => (x.1, { x.2 with
    share := deferCommit t x.2.share, coreMask := x.2.coreMaskNext.getD x.2.coreMask, coreMaskNext := none })
  { s with
    port := ports
    part := parts
    pwr := { s.pwr with ctl := deferCommit t s.pwr.ctl }
    cod := { s.cod with trainWin := deferCommit t s.cod.trainWin }
    upd := { s.upd with reduceMode := deferCommit t s.upd.reduceMode, pairedEn := deferCommit t s.upd.pairedEn }
    coll := { s.coll with timeout := deferCommit t s.coll.timeout }
    tar := { s.tar with straggle := deferCommit t s.tar.straggle }
    reb := { s.reb with ctl := deferCommit t s.reb.ctl }
    aud := { s.aud with ctl := deferCommit t s.aud.ctl }
    tap := { s.tap with slots := deferCommit t s.tap.slots }
    mode := { s.mode with
      chervil := pendDue t s.mode.chervil s.mode.chervilNext, chervilNext := pendKeep t s.mode.chervilNext
      table := s.mode.tableNext.orElse fun _ => s.mode.table
      tableNext := none
      tableCrc := match s.mode.tableNext with
        | some bs => crc32c bs
        | none => s.mode.tableCrc } }

/-- Whether an open instruction is a REBUILD none of whose rebuilds is open any longer, or with `all` any REBUILD (R300). -/
def rebuildEnds (s : State) (all : Bool) (o : OpenOp) : Bool :=
  match o.kind with
  | .rebuild rs => all || !s.reb.runs.any fun r => !r.closed && rs.contains r.failed
  | _ => false

/-- REBUILD instructions of the block reach their outcome: those whose rebuilds have ended, or all of them (R300). -/
def rebuildOutcome (st : Nat) (all : Bool) (s : State) : State :=
  s.part.foldl (fun s x =>
    (x.2.ops.filter (rebuildEnds s all)).foldl (fun s o =>
      slotOutcome x.1 o st 0 (modPart x.1 (fun y => { y with ops := y.ops.filter (· != o) }) s)) s) s

/-- Runs that the commit of their epoch, or the re-run wave, ends; a spread run stays on record for the units it moved, and its groups are in sorrel from then on (R207). -/
def closeRuns (f : Rebuild → Bool) (s : State) : State :=
  if !s.reb.runs.any f then s
  else
    let runs := (s.reb.runs.map fun r => if f r then { r with restored := true, closed := true, states := [], planned := [] } else r).filter fun r => r.spread || !f r
    let s := { s with reb := { s.reb with
      runs := runs, plans := [], halves := []
      active := runs.any fun r => !r.closed
      role := if runs.any fun r => !r.closed then s.reb.role else 0 } }
    let sorrel := (runs.filter fun r => r.spread && r.closed).flatMap fun r => r.slots.map (·.1)
    rebuildOutcome stOk false (sorrel.foldl (fun s sl => modGrp sl (fun g => { g with sorrel := true }) s) s)

/-- Sets FID in the headers of the parity units that this block holds in some slots (Table 3.6). -/
def markFid (sls : List Nat) (s : State) : State :=
  sls.foldl (fun s sl => (heldParity s sl).foldl (fun s x =>
    let h := readParHdr s x.2.2.2
    if h.valid && !h.fid then writeParHdr x.2.2.2 { h with fid := true } s else s) s) s

/-- The event that a commit wave carries (R35, R36, R56). Every stripe of the groups of a rebuilt rank took part in its rebuild (Table 3.6; DEDUCED, log 73); an event of R211 names a rank that no verdict named. -/
def takeFidelity (data : Nat) (s : State) : State :=
  if !bitOf 31 data then s
  else
    let rank := bitsOf 14 17 data
    let s := { s with
      ep := { s.ep with fid := true }
      fid := if s.fid.valid then s.fid else { epoch := bitsOf 32 32 data, valid := true, rank := rank, region := bitsOf 0 14 data } }
    if rankFallen s rank then markFid ((slotsOn s).filter fun sl => (posOfRank s (grpOf s sl) rank).isSome) s else s

/-- A recording or a replay armed for a commit starts, once the images of the commit are exchanged; a log behind HOST pads that are held is not read (R358, R359, spec/16 R437). -/
def commitRecord (s : State) : State :=
  if s.rcd.armed && s.rcd.atCommit && !s.rcd.passed then
    if s.rcd.op ≠ 1 ∧ hostHeld s then s
    else if s.rcd.op = 1 then
      if s.mode.chervil then { s with rcd := { s.rcd with passed := true } } else startRecord 0 s
    else
      let (s, bad, e) := readLog 0 s
      if bad || !replayOk s e then refuseReplay s else goReplay s
  else s

/-- What a wave issuer keeps from one epoch or attempt to the next: the verdicts not yet decided, and the HANDOVER reports of a new one (R46, R470). -/
def issuerKept (i : Issuer) : Issuer := { taking := i.taking, handover := i.handover, held := i.held, tied := i.tied }

/-- The instant of R49 for the commit of the open epoch. The commit of the epoch that ends admission has no vote result, and no table that publishes at each step becomes due by it (R336, R375; DESIGN CHOICE, log 190). -/
def commitInstant (data : Nat) (s : State) : State :=
  let n := s.ep.epoch
  let skip := s.ep.skip
  let seed := s.job.admitting
  let last := n == 0xFFFFFFFE
  let s := takeFidelity data s
  let s := { s with
    cod := { s.cod with out := s.cod.out.filter fun x => x.2.epoch != n
                        lastSeq := (s.cod.out.filter fun x => x.2.epoch == n && x.2.last != 0).map fun x => (x.1, x.2.last)
                        peak := s.cod.peakNow, peakNow := 0, waves := [], walked := [] }
    upd := { s.upd with stepRec := [] }
    tar := { s.tar with issuer := issuerKept s.tar.issuer, leader := { lag := s.tar.leader.lag, good := s.tar.leader.good } }
    ep := { s.ep with
      epoch := if last then n else n + 1
      skip := false, rerun := false, limit := last, attempt := 0, vote := 0, flag := false, voted := false, closed := false
      landedRep := false, guardedRep := false, updEnded := false, endupd := false, guardWave := false
      lastWave := 0, skipped := skip, committed := n, freshDone := [], commitAt := some (instant s) } }
  let s := if seed.isSome || skip then s
    else { s with pub := s.pub.map fun x => (x.1, if x.2.valid && x.2.pubStep then { x.2 with pend := true } else x.2) }
  let s := exportCutNow n skip (commitDeferred s)
  let s := notePeak (setPhase (if last then 0 else 1) s)
  let s := if last then collAbort (s.coll.openC.filter fun c => !c.started) stStale true (endWaiting stStale s) else s
  let s := forAll ((s.part.filter fun x => x.2.staged.isSome).map (·.1)) activateImage s
  let s := commitRecord s
  let s := closeRuns (fun r => r.decided && r.epoch == n && !r.aborted) s
  let s := match seed with
    | some c => complete c stOk (BitVec.ofNat 64 s.job.inc) { s with job := { s.job with admitting := none } }
    | none => s
  wakeAll (raiseGlobal vCommit s)

/-- The commit wave of the open epoch (R49); its first copy acts (R470). -/
def takeCommitWave (t : Tarra) (s : State) : State := if current s t then commitInstant t.data s else s

/-! ### Abort, re-run, loss -/

/-- Contributions of an older attempt leave the train store; their holders drop them (R111). -/
def flushOldTrains (s : State) : State :=
  let old (y : Stored) : Bool := match y.frame.body with
    | .contrib c => c.epoch == s.ep.epoch && c.attempt != s.ep.attempt
    | _ => false
  let out := s.cod.store.filter old
  let s := { s with cod := { s.cod with store := s.cod.store.filter fun y => !old y } }
  out.foldl (fun s y => forward (some y.port) y.frame s) s

/-- Aborts the open epoch on this block (R46, R47, R111). -/
def abortEpoch (st : Nat) (s : State) : State :=
  let s := endWaiting st s
  let s := forAll ((s.part.filter fun x => match x.2.long with
    | some l => l.step && l.cls == 5
    | none => false).map (·.1)) (fun p s => longStop p st s) s
  let s := forAll ((s.part.filter fun x => x.2.stepHeld.isSome).map (·.1)) (fun p s => modPart p (fun x => { x with stepHeld := none }) s) s
  let s := collAbort (s.coll.openC.filter fun c => c.step && c.started) st true s
  let s := flushOldTrains (abortCoding s)
  let s := { s with
    cod := { s.cod with waves := [], walked := [] }
    upd := { s.upd with stepRec := [] }
    tar := { s.tar with
      issuer := { issuerKept s.tar.issuer with
        rebuilding := s.tar.issuer.rebuilding, restored := s.tar.issuer.restored
        fidData := s.tar.issuer.fidData, fidRebuilt := s.tar.issuer.fidRebuilt }
      leader := { lag := s.tar.leader.lag, good := s.tar.leader.good } }
    ep := { s.ep with
      skip := false, rerun := true, vote := 0, flag := false, voted := false, closed := false, landedRep := false
      guardedRep := false, updEnded := false, endupd := false, guardWave := false, lastWave := 12
      freshDone := [] } }
  wakeAll (setPhase 1 s)

/-- The abort wave (R111): it names the attempt that it ends. -/
def takeAbortWave (t : Tarra) (s : State) : State :=
  if current s t && !s.ep.guardWave then issuerDecide (abortEpoch stPeerFailed s) else s

/-- The re-run wave (R203). -/
def takeRerunWave (t : Tarra) (s : State) : State :=
  if current s t && s.ep.rerun then
    let s := noteWave 14 { s with ep := { s.ep with rerun := false } }
    let s := setIssuer (fun i => { issuerKept i with fidData := i.fidData, fidRebuilt := i.fidRebuilt }) s
    wakeAll (closeRuns (fun r => r.decided && r.aborted) s)
  else s

/-- RESTORED at the wave issuer (R203). -/
def issuerRestored (t : Tarra) (s : State) : State :=
  if isIssuer s then issuerDecide (setIssuer (fun i => { i with
      restored := t.rank :: i.restored.filter (· != t.rank)
      fidData := if bitOf 31 t.data then t.data else i.fidData
      fidRebuilt := i.fidRebuilt || bitOf 31 t.data }) s) else s

/-- Every command of the job on this block ends: those before each tail, and the current one (Table 7.7; DEDUCED, log 66). -/
def endJobCommands (st : Nat) (s : State) : State :=
  forAll (boundTo s s.job.tag) (fun p s =>
    let s := modPart p (fun x => { x with sq := x.sq.map fun q =>
      (q.1, if q.2.en && q.2.head != q.2.tail then { q.2 with lostTo := some q.2.tail } else q.2) }) s
    match (partOf s p).long with
    | some _ => askStop p st st s
    | none =>
      let x := partOf s p
      if x.cur.isSome then endCommand p st 0 s
      else if x.wait.isSome then toDispatch p s
      else s) s

/-- GROUP_LOST reaches the block (R204, Table 7.7). -/
def takeGroupLost (t : Tarra) (s : State) : State :=
  let hit := (slotsOn s).filter fun sl => (grpOf s sl).rank0 == t.rank && (grpOf s sl).axis == t.data % 4
  if !hit.isEmpty && hit.all (fun sl => (grpOf s sl).lost) then s else
  let s := hit.foldl (fun s sl => modGrp sl (fun g => { g with lost := true }) s) s
  let s := if hit.isEmpty then s else exportStop 5 false s
  let s := collAbort s.coll.openC stGroupLost true s
  let s := rebuildOutcome stGroupLost true s
  let s := if s.ep.phase = 0 ∨ (t.epoch = s.ep.epoch ∧ t.attempt ≠ s.ep.attempt) then s else abortEpoch stGroupLost s
  let s := { s with reb := { s.reb with runs := s.reb.runs.filter (·.closed), plans := [], halves := [], active := false, role := 0 } }
  endJobCommands stGroupLost (setIssuer (fun i => { i with awaiting := true }) s)

/-! ### Admission -/

/-- The seed of a SEAL-slot unit: its whole image where its page is sealed (Table 4.2). -/
def seedPageUnit (sl st c : Nat) (s : State) : State :=
  match colLoc s sl st c with
  | some (i, q, j) =>
    if ownCol (grpOf s sl) st c && pageSealed s (pageAt s i q (regionAddr q + 4096 * j)) then formDirect sl st c (wholeTerm s sl st c false false) s else s
  | none => s

/-- The seed sweeps, each slot in the order of R88 (Table 4.2, R93). -/
def runSeeds (s : State) : State :=
  let s := (slotsOn s).foldl (fun s sl =>
    (owedUnits s sl).foldl (fun s x => if (grpOf s sl).mode = 2 then seedPageUnit sl x.1 x.2 s else seedColumn sl x.1 x.2 s) s) s
  { s with ep := { s.ep with updEnded := true } }

/-- Admission is undone (R375). -/
def undoAdmit (st : Nat) (s : State) : State :=
  match s.job.admitting with
  | none => s
  | some c =>
    let s := endWaiting stStale s
    let s := setPhase 0 { s with
      job := { s.job with admitting := none, exchanged := false, peers := [], dir := [] }
      cod := { s.cod with out := [], batches := [], deltas := [], shadow := [], lastSeq := [] }
      tar := { s.tar with issuer := {}, leader := {} } }
    wakeAll (complete c st (BitVec.ofNat 64 s.job.inc) s)

end Sys2Proof.Machine
end

