-- ==== Sys2Proof/Machine/Verdict.lean ====
section
/-! DEFINITION. Suspects, reports and storms (spec/07 R180 to R182), probes and closures (R183), verdicts and their effects (R184 to R187, R46), the change of wave issuer and of leader (R470), targets and takeovers (R189, R191, R206, R220, R221), and stragglers (R212). -/

namespace Sys2Proof.Machine

/-! ### Leaders of reports (R181) -/

/-- Leader to whom a report on a rank goes: the lowest live rank of its group that is no suspect (R181), and of all its groups together where it has positions in several (DESIGN CHOICE, log 192). -/
def reportLeader (s : State) (r : Nat) : Option Nat :=
  match ((dirOf s r).flatMap (dirRanks s)).filter fun m => m != r && !rankFallen s m && !isSuspect s m with
  | [] => none
  | m :: ms => some (ms.foldl min m)

/-! ### Suspects and reports -/

/-- Sends, or sends again, a report to its leader, a self-report to the leader of each group of the block (R181, spec/13 R382). -/
def sendReportOf (r : Report) (s : State) : State :=
  if r.cause = 5 then (reportLeaders s).foldl (fun s l => sendReport l r s) s
  else match reportLeader s r.rank with
  | some l => sendReport l r s
  | none => s

/-- Raises a suspect, once per key (R180, R181). -/
def raiseSuspect (rank inc cause : Nat) (s : State) : State :=
  if s.tar.quiet.contains rank || keyFailed s rank inc || s.tar.reports.any (fun r => r.rank == rank && r.inc == inc) || s.ep.phase = 0 then s
  else
    let r : Report := { rank := rank, inc := inc, cause := cause }
    sendReportOf r { s with tar := { s.tar with reports := r :: s.tar.reports, suspects := (rank, inc) :: s.tar.suspects } }

/-- A report of a collective reaches its root; an outcome COLL_TIMEOUT names the members that have sent neither DONE nor a report as suspects (R173, Table 7.2). -/
def takeCollReport (p axes seq st rank epoch : Nat) (s : State) : State :=
  let held (s : State) := (collOuts s p axes).any fun k => k.seq == seq
  let done := ((s.coll.roots.find? fun r => r.part == p && r.axes == axes && r.seq == seq).map (·.done)).getD []
  let late := (memberSet s axes).filter fun m => m != rank && m != servedRank s && !done.contains m
  let t := rootReport p axes seq st rank epoch s
  if st = stCollTimeout && !held s && held t then
    late.foldl (fun s m => raiseSuspect m ((SMap.look {} s.job.peers m).inc) 4 s) t
  else t

def resendReport (rank inc : Nat) (s : State) : State :=
  match s.tar.reports.find? fun r => r.rank == rank && r.inc == inc with
  | some r => sendReportOf r s
  | none => s

/-- Whether the merge table holds its 512 keys (R182). -/
def mergeFull (s : State) : Bool := decide (Config.mergeKeys ≤ (s.tar.merge.filter (·.live)).length)

/-- A report on its way: forwarded with the counts merged so far, or merged here (R182). -/
def mergeReport (t : Tarra) (s : State) : State × Option Tarra :=
  match s.tar.merge.find? fun k => k.rank == t.rank && k.inc == t.inc with
  | some k =>
    let put (k' : MergeKey) : State := { s with tar := { s.tar with merge := k' :: s.tar.merge.filter (· != k) } }
    if k.live then (put { k with count := min (k.count + 1 + t.count) 0xFFFF }, none)
    else
      let t := sealTarra { t with count := min (t.count + k.count) 0xFFFF }
      if mergeFull s then ({ s with tar := { s.tar with merge := s.tar.merge.filter (· != k) } }, some t)
      else (put { k with count := 0, live := true }, some t)
  | none =>
    if mergeFull s then (s, some t)
    else ({ s with tar := { s.tar with merge := { rank := t.rank, inc := t.inc } :: s.tar.merge } }, some t)

/-- A key of the merge table expires; a count not yet passed on waits for the next report of the key (R182). -/
def mergeExpiry (rank inc : Nat) (s : State) : State :=
  { s with tar := { s.tar with merge := s.tar.merge.filterMap fun k =>
      if k.rank = rank ∧ k.inc = inc then (if k.count = 0 then none else some { k with live := false }) else some k } }

/-- The count merged here for a key rides its closure on the way to a reporter; the key itself is held to its end (R182). -/
def closureCount (t : Tarra) (s : State) : State × Tarra :=
  match s.tar.merge.find? fun k => k.rank == t.rank && k.inc == t.inc with
  | some k => ({ s with tar := { s.tar with
        merge := (if k.live then [{ k with count := 0 }] else []) ++ s.tar.merge.filter (· != k) } },
      sealTarra { t with count := min (t.count + k.count) 0xFFFF })
  | none => (s, t)

/-- Issues a verdict: to every position of the group and to the wave issuer, and where that one is the subject also to the rank that is issuer next (R184). -/
def issueVerdict (code rank inc : Nat) (s : State) : State :=
  let next := if code = 1 ∨ code = 3 then issuerRank { s with tar := { s.tar with failed := (rank, inc) :: s.tar.failed } } else issuerRank s
  let dsts := ((dirOf s rank).flatMap (dirRanks s) ++ [issuerRank s, next, servedRank s]).eraseDups
  let t := { tarraOf s 2 rank inc s.ep.epoch with cause := code }
  dsts.foldl (fun s r => if r = servedRank s ∨ !rankDead s r then sendTarra r t s else s) s

/-- Sends a probe over one ring direction (R183). -/
def sendProbe (rank inc axis dir : Nat) (s : State) : State :=
  (sendFrame { tag := s.job.tag, part := 0, typ := 7, rank := rank, body := .tarra (sealTarra (tarraOf s 3 rank inc s.ep.epoch)) none
               epoch := s.ep.epoch, route := 1, raxis := axis, rdir := dir, daxis := axis } s).1

/-- A key counts in REPORTS once (R182). -/
def countReport (rank inc : Nat) (s : State) : State :=
  if s.tar.counted.contains (rank, inc) then s
  else { s with tar := { s.tar with storm := bump 0 32 s.tar.storm, counted := (rank, inc) :: s.tar.counted } }

/-- A report reaches the leader (R182, R183); REPLACED and a self-report are decided at once, a probe under way or not. -/
def takeReport (t : Tarra) (s : State) : State :=
  let held := match SMap.find s.job.peers t.rank with
    | some p => p.inc
    | none => 0
  if s.ep.phase = 0 ∨ t.inc < held then s
  else
    let s := { s with tar := { s.tar with storm := bumpBy 32 32 t.count s.tar.storm } }
    match s.tar.probes.find? fun p => p.rank == t.rank && p.inc == t.inc with
    | some p =>
      if t.cause = 2 ∨ t.cause = 5 then
        issueVerdict (if t.cause = 2 then 3 else 1) t.rank t.inc { s with tar := { s.tar with probes := s.tar.probes.filter (· != p) } }
      else if p.reporters.contains t.origin then s
      else { s with tar := { s.tar with probes := { p with reporters := t.origin :: p.reporters } :: s.tar.probes.filter (· != p) } }
    | none =>
      if keyFailed s t.rank t.inc then s
      else
        let s := countReport t.rank t.inc s
        if t.cause = 2 then issueVerdict 3 t.rank t.inc s
        else if t.cause = 5 then issueVerdict 1 t.rank t.inc s
        else
          let s := { s with tar := { s.tar with probes := { rank := t.rank, inc := t.inc, reporters := [t.origin] } :: s.tar.probes } }
          let ax := match dirOf s t.rank with
            | d :: _ => d.axis
            | [] => 0
          sendProbe t.rank t.inc ax 1 (sendProbe t.rank t.inc ax 0 s)

/-- A probe reaches this block, which answers with its identity and incarnation (R183). -/
def takeProbe (t : Tarra) (s : State) : State :=
  sendTarra t.origin { tarraOf s 4 (servedRank s) s.job.inc s.ep.epoch with data := s.fuse.identity.toNat } s

/-- A probe answer reaches the leader (R183). -/
def takeAnswer (t : Tarra) (s : State) : State :=
  match s.tar.probes.find? fun p => p.rank == t.rank with
  | none => s
  | some p =>
    let ident := match SMap.find s.job.peers t.rank with
      | some q => q.identity.toNat
      | none => t.data
    if t.inc != p.inc || t.data != ident then s
    else
      let s := { s with tar := { s.tar with
        probes := s.tar.probes.filter (· != p), verdict := bump 32 12 s.tar.verdict } }
      p.reporters.foldl (fun s r =>
        let (s, t) := closureCount (tarraOf s 1 p.rank p.inc s.ep.epoch) s
        sendTarra r t s) s

def probeExpiry (rank inc : Nat) (s : State) : State :=
  if s.tar.probes.any fun p => p.rank == rank && p.inc == inc then
    issueVerdict 1 rank inc { s with tar := { s.tar with probes := s.tar.probes.filter fun p => !(p.rank == rank && p.inc == inc) } }
  else s

/-- A verdict or a closure naming a key ends its report, its suspect and its probe (R181, R183). -/
def dropReport (rank inc : Nat) (s : State) : State :=
  { s with tar := { s.tar with
      reports := s.tar.reports.filter fun r => !(r.rank == rank && r.inc == inc)
      suspects := s.tar.suspects.filter (· != (rank, inc))
      probes := s.tar.probes.filter fun p => !(p.rank == rank && p.inc == inc) } }

/-- A closure reaches a reporter: the report stops, and each port that raised the suspect goes to HOLD (R183, spec/08 R232; DEDUCED, log 72). -/
def takeClosure (t : Tarra) (s : State) : State :=
  let s := dropReport t.rank t.inc s
  updEdges <| (List.range 8).foldl (fun s p =>
    match (portOf s p).record with
    | some r => if r.rank = t.rank && (portOf s p).suspect then
        modPort p (fun x => { x with suspect := false, missed := 0, linkFault := true
                                     state := if x.state == .up then .hold else x.state
                                     holdTill := if x.state == .up then s.clk.wall + 100000000 else x.holdTill }) s
      else s
    | none => s) s

/-! ### Targets and takeovers -/

/-- The standby that takes a failed member's place: the live standby of its groups with the lowest rank (R189). -/
def standbyTarget (s : State) (r : Nat) : Option Nat :=
  let cand := ((dirOf s r).filter fun d => ((dirRanks s d).take d.members).contains r).flatMap fun d =>
    ((dirRanks s d).drop d.members).filter fun m => !rankFallen s m
  match cand with
  | [] => none
  | m :: ms => some (ms.foldl min m)

/-- The spread home that serves the failed rank: the first live position after the failed one in the positive ring direction, in the first of its groups by the directory; a rank that a spread home serves is no live position (R206; DEDUCED, log 45). -/
def spreadHome (s : State) (r : Nat) : Option Nat :=
  match (dirOf s r).find? fun d => ((dirRanks s d).take d.members).contains r with
  | none => none
  | some d =>
    let ms := (dirRanks s d).take d.members
    let i := ms.idxOf r
    ((ms.drop (i + 1)) ++ (ms.take i)).find? fun m => !rankDead s m && !s.reb.runs.any fun q => q.spread && q.failed == m

def freeXlat (s : State) : List Nat := (List.range Config.xlatEntries).filter fun i => !((SMap.look {} s.fab.xlat i).valid)

/-- Free entries of the exception table. -/
def xlatFree (s : State) : Nat := Config.xlatEntries - (s.fab.xlat.filter fun x => x.2.valid).length

/-- Writes an entry, which may give the block a further rank to serve (Table 8.16); the verdict vector is raised when fewer than 128 become free (R221). -/
def putXlat (i : Nat) (e : XlatEnt) (s : State) : State :=
  let t := { s with fab := { s.fab with
    xlat := SMap.put s.fab.xlat i e
    aliases := if e.valid && !e.retired && e.coord == s.fab.coord && e.rank != selfRank s then e.rank :: s.fab.aliases.filter (· != e.rank)
               else s.fab.aliases } }
  if 128 ≤ xlatFree s && decide (xlatFree t < 128) then raiseGlobal vVerdict t else t

/-- Installs the entries of a takeover (R220); false when too few are free (R221). An entry that an earlier takeover of the rank left is replaced. -/
def installXlat (failed : Nat) (coord : Nat) (retired : Option Nat) (s : State) : State × Bool :=
  let s := { s with fab := { s.fab with xlat := s.fab.xlat.filter fun e => !(e.2.valid && !e.2.retired && e.2.rank == failed) } }
  let need := if retired.isSome then 2 else 1
  match (freeXlat s).take need with
  | [i] =>
    if need = 1 then (putXlat i { valid := true, coord := coord, rank := failed } s, true) else (s, false)
  | [i, j] =>
    let s := putXlat i { valid := true, coord := coord, rank := failed } s
    (putXlat j { valid := true, retired := true, coord := coord, rank := retired.getD 0 } s, true)
  | _ => (s, false)

/-- A neighbour that took over a rank is heard under it from now on (R220). -/
def rewriteRecords (failed coord : Nat) (s : State) : State :=
  (wiredPorts s).foldl (fun s p =>
    if neighbour s p = coord then modPort p (fun x => { x with record := x.record.map fun r => { r with rank := failed } }) s else s) s

/-- The standby takes the failed member's layout, which is in force at once (R191, spec/02 R28). -/
def takeOver (failed : Nat) (s : State) : State :=
  match s.reb.takeover.find? fun t => t.rank == failed with
  | none => s
  | some t =>
    let s := t.regions.foldl (fun s x => let s := modRegion x.1 (fun _ =>
      regionOfWords (x.2.getD 0 0) (x.2.getD 1 0) (x.2.getD 2 0) (x.2.getD 3 0)) s
      { s with reg := { s.reg with late := SMap.del s.reg.late x.1 } }) s
    t.slots.foldl (fun s x => modGrp x.1 (fun g => { g with
      self := fld 40 5 (x.2.getD 0 0)
      dataUnits := fld 0 32 (x.2.getD 1 0)
      parTier := fld 62 2 (x.2.getD 2 0), parBase := fld 0 52 (x.2.getD 2 0)
      hdrTier := fld 62 2 (x.2.getD 3 0), hdrBase := fld 0 52 (x.2.getD 3 0) }) s) s

/-- Places, in the spread area, of the units of position f of a slot that this survivor hosts: 4,096 bytes and the header's 64 for a parity unit, 4,096 for a data unit, and none for a zero unit (R206, R65; PRESUMED, log 14). A spread area that would reach a block area is too small there (spec/15 R412; DESIGN CHOICE, log 164). -/
def hostUnits (r : Rebuild) (sl f : Nat) (s : State) : State × Bool :=
  let g := grpOf s sl
  let me := g.self
  let base := logBase s.reb.spreadBase
  let cap := fld 0 24 s.reb.spreadSize * 1048576
  let data := (List.range (gCycles g * g.k)).map fun u => let p := dataPlace g f u; (p.1, 0, p.2)
  let par := (List.range (gCycles g * g.m)).map fun v => let p := parityPlace g f v; (p.1, 1, p.2)
  let mine := (data ++ par).filter fun x => hostPos s r sl f x.1 x.2.1 == me &&
    !s.reb.hosted.any fun h => h.slot == sl && h.pos == f && h.stripe == x.1
  mine.foldl (fun a x =>
    let (s, ok) := a
    let n := if x.2.1 = 1 then 4160 else if (failedLoc s sl f x.1).isSome then 4096 else 0
    if !ok || cap < s.reb.spreadUsed + n || inBlockArea (base + s.reb.spreadUsed) n then (s, false)
    else
      let h : Hosted := { slot := sl, pos := f, stripe := x.1, kind := x.2.1, index := x.2.2, addr := base + s.reb.spreadUsed }
      ({ s with reb := { s.reb with hosted := s.reb.hosted ++ [h], spreadUsed := s.reb.spreadUsed + n } }, true)) (s, true)

def clearLive (rank : Nat) (s : State) : State :=
  (slotsOn s).foldl (fun s sl => match posOfRank s (grpOf s sl) rank with
    | some j => modGrp sl (fun g => { g with live := g.live &&& (2 ^ 22 - 1 - 2 ^ j) }) s
    | none => s) s

/-- TKJ_REBUILD_CTL and TKJ_REBUILD_PROG of a block that a new rebuild concerns: a target keeps that role until its own rebuild closes (DEDUCED, log 138), and the counts are of the open rebuilds whose units this block writes (Table 7.14, Table 7.15). -/
def rebuildRole (rank role : Nat) (sls : List (Nat × Nat)) (s : State) : State :=
  if sls.isEmpty then s
  else
    let keep := s.reb.active && role != 2 && (s.reb.role == 2 || (role == 0 && s.reb.role != 0))
    let mine := s.reb.runs.filter fun r => !r.closed && writesRun s r
    let s := { s with reb := { s.reb with
      active := true, failedRank := if keep then s.reb.failedRank else rank, role := if keep then s.reb.role else role } }
    if mine.isEmpty then s
    else { s with reb := { s.reb with
      total := (mine.map fun r => (unitsToWrite s r).length).foldl (· + ·) 0
      doneCnt := (mine.map fun r => r.doneU.length).foldl (· + ·) 0 } }

/-- Frames to a rank that another block serves carry the generations of that block (spec/08 R236, R220). -/
def takeGens (rank by_ : Nat) (s : State) : State :=
  let gens := if by_ = selfRank s then (List.range 16).map fun p => (partOf s p).gen else SMap.look [] s.fab.peerGen by_
  { s with fab := { s.fab with peerGen := SMap.put s.fab.peerGen rank gens } }

/-- A failed member is assigned its target, and every block takes the entries and records that follow (R189, R191, R206, R220). -/
def assignTarget (rank inc : Nat) (s : State) : State :=
  let sls := (slotsOn s).filterMap fun sl => match posOfRank s (grpOf s sl) rank with
    | some j => if j < gSize (grpOf s sl) then some (sl, j) else none
    | none => none
  match standbyTarget s rank with
  | some t =>
    let me := servedRank s == t
    let c := (translate s t).getD 0
    let (s, ok) := installXlat rank c (some t) s
    let s := rewriteRecords rank c s
    let s := if me then takeOver rank s else s
    let s := match SMap.find s.job.peers t with
      | some p => { s with job := { s.job with peers := SMap.put s.job.peers rank { SMap.look {} s.job.peers rank with identity := p.identity, inc := p.inc } } }
      | none => s
    let s := takeGens rank t s
    let s := sls.foldl (fun s x => modGrp x.1 (fun g =>
      let own := match posOfRank s g t with
        | some j => 2 ^ j
        | none => 0
      { g with live := (g.live &&& (2 ^ 22 - 1 - own)) ||| 2 ^ x.2 }) s) s
    let r : Rebuild := { failed := rank, inc := inc, target := t, spread := false, slots := sls }
    let s := rebuildRole rank (if me then 2 else if sls.any fun x => isMember (grpOf s x.1) then 1 else 0) sls (putRun r s)
    if ok then s else sls.foldl (fun s x => declareLost x.1 s) s
  | none => match spreadHome s rank with
    | none => s
    | some h =>
      let c := (translate s h).getD 0
      let r : Rebuild := { failed := rank, inc := inc, target := h, spread := true, slots := sls
                           homes := sls.map fun x => (x.1, (posOfRank s (grpOf s x.1) h).getD (slotHome s x.1 x.2)) }
      let (s, ok) := installXlat rank c none (putRun r s)
      let s := takeGens rank h (rewriteRecords rank c s)
      let (s, fits) := sls.foldl (fun (a : State × Bool) x =>
        let (s, b) := if isMember (grpOf a.1 x.1) then hostUnits r x.1 x.2 a.1 else (a.1, true)
        (s, a.2 && b)) (s, true)
      let s := rebuildRole rank (if sls.any fun x => isMember (grpOf s x.1) then 3 else 0) sls s
      if ok && fits then s else sls.foldl (fun s x => declareLost x.1 s) s

/-- What this survivor hosts of a spread run, and what it owes as its host, are dropped; places count on from the last unit still hosted (R206). -/
def dropHosted (q : Rebuild) (s : State) : State :=
  let gone (h : Hosted) : Bool := q.slots.contains (h.slot, h.pos)
  let out := (s.reb.hosted.filter fun h => gone h && h.kind == 0).map fun h => unitKey h.slot h.stripe h.index
  let keep := s.reb.hosted.filter fun h => !gone h
  let base := logBase s.reb.spreadBase
  { s with
    reb := { s.reb with
      hosted := keep
      spreadUsed := (keep.map fun h => h.addr + (if h.kind = 1 then 4160 else if (failedLoc s h.slot h.pos h.stripe).isSome then 4096 else 0) - base).foldl max 0 }
    cod := { s.cod with
      out := s.cod.out.filter fun o => !out.contains (unitKey o.2.slot o.2.stripe o.2.col)
      deltas := s.cod.deltas.filter fun d => !out.contains d.1
      shadow := s.cod.shadow.filter fun d => !out.contains d.1 } }

/-- A spread run under way that goes on without one of its hosts: the state of the rebuild is told anew, and a slot whose home failed takes the next one (R193, R206). -/
def reopen (s : State) (rank : Nat) (q : Rebuild) : Rebuild :=
  let pos (sl : Nat) : Nat := ((q.slots.find? fun y => y.1 == sl).map (·.2)).getD 0
  let home (x : Nat × Nat) : Nat × Nat := if posOfRank s (grpOf s x.1) rank = some x.2 then (x.1, slotHome s x.1 (pos x.1)) else x
  { q with decided := false, follows := some rank, readySent := false, ready := [], states := [], hostsDone := [], restored := false
           homes := q.homes.map home }

/-- Spread rebuilds that a later verdict touches: one whose home fails, or that is done and loses a host, starts from zero with the home that now follows; one under way whose other host fails goes on, and its home takes the units of that host (Table 7.7, R206, R207; DEDUCED, log 191). -/
def respread (rank : Nat) (s : State) : State :=
  s.reb.runs.foldl (fun s q =>
    if !q.spread || q.failed == rank || !runTouches s rank q then s
    else if q.closed || runRank q == rank then
      let s := assignTarget q.failed q.inc (dropHosted q s)
      { s with reb := { s.reb with runs := s.reb.runs.map fun r => if r.failed = q.failed then { r with follows := some rank } else r } }
    else
      let q := reopen s rank q
      let (s, fits) := q.slots.foldl (fun (a : State × Bool) x =>
        let (s, b) := if isMember (grpOf a.1 x.1) then hostUnits q x.1 x.2 a.1 else (a.1, true)
        (s, a.2 && b)) (putRun q s, true)
      if fits then s else q.slots.foldl (fun s x => declareLost x.1 s) s) s

/-- A slot with more lost positions than it has parity rows is lost; its leader says so (Table 7.7). -/
def checkLost (s : State) : State :=
  (slotsLed s).foldl (fun s sl =>
    let g := grpOf s sl
    let gone := ((List.range (gSize g)).filter fun j => (openRunAt s sl j).isSome || !posLive g j).length
    if g.m < gone then declareLost sl s else s) s

/-! ### Handover (R470) -/

def sendHandover (s : State) : State :=
  let d := pack [(1, b2n s.ep.flag), (1, b2n s.ep.voted), (1, b2n s.ep.landedRep), (5, s.ep.lastWave), (24, 0), (32, (stepRecCrc s).toNat)]
  sendTarra (issuerRank s) { tarraNow s 22 with data := d } s

/-- GROUP_GUARDED and RESTORED go again to a new issuer where no wave has answered them (R470). -/
def resendToIssuer (s : State) : State :=
  let s := if s.ep.guardWave then s
    else s.tar.leader.sentGuarded.foldl (fun s k =>
      sendTarra (issuerRank s) { tarraOf s 8 k.1 s.job.inc s.ep.epoch with cause := k.2 } s) s
  s.reb.runs.foldl (fun s r =>
    if r.restored && plansRun s r && !r.closed then
      sendTarra (issuerRank s) { tarraOf s 13 r.failed r.inc r.epoch with data := r.event } s
    else s) s

/-! ### The deciding moment (R46) -/

/-- The wave issuer decides the epoch for a verdict and forwards it job-wide (R46, R184; DEDUCED, log 42). -/
def decideVerdict (code rank inc : Nat) (s : State) : State :=
  let i := s.tar.issuer
  let fail := (code == 1 || code == 3) && memberRank s rank
  let abort := fail && !i.guardIssued && !i.commitIssued && s.ep.phase != 0
  let more := (s.reb.runs.filter fun r => r.follows == some rank && !r.decided).map (·.failed)
  let t := { tarraOf s 2 rank inc (if abort then s.ep.epoch - 1 else s.ep.epoch) with cause := code, data := 1 + 2 * b2n abort }
  let s := if fail then setIssuer (fun i => { i with
      rebuilding := (rank :: more ++ i.rebuilding).eraseDups
      restored := i.restored.filter fun r => r != rank && !more.contains r
      landed := i.landed.filter fun r => r != rank && (translate s r).isSome }) s
    else s
  let s := issueWave t s
  if abort then issueWave (tarraNow s 12) s else s

/-- A new wave issuer forwards job-wide at once a verdict that it decides only when it holds all HANDOVER reports, so that every block hears of it; the deciding copy follows, and the number that is no epoch in this one keeps the two apart on their floods (R184, R470, R238; DEDUCED, log 42). -/
def forwardHeld (code rank inc : Nat) (s : State) : State :=
  issueWave { tarraOf s 2 rank inc 0xFFFFFFFF with cause := code, data := 4 } s

/-- Whether the guard wave may yet be issued in the core cycle in which a verdict arrives at the wave issuer: the vote has settled PROCEED, and the wave is not out (Table 2.5, R46). -/
def guardDue (s : State) : Bool := s.tar.issuer.voteIssued && !s.tar.issuer.guardIssued && s.ep.phase != 0

/-- A verdict that may name the cycle of the guard wave waits until that cycle has passed, and one that follows the issue of the commit wave until that wave has opened the next epoch here; any other is decided at once (R46). -/
def decideOrTie (code rank inc : Nat) (s : State) : State :=
  if (code == 1 || code == 3) && memberRank s rank && (guardDue s || s.tar.issuer.commitIssued) then
    setIssuer (fun i => { i with tied := i.tied ++ [(instant s, code, rank, inc)] }) s
  else decideVerdict code rank inc s

/-- Verdicts whose cycle has passed are decided: the epoch rolls forward if the guard wave was issued by then, and aborts otherwise (R46). -/
def tiesDue (s : State) : State :=
  let due := if s.tar.issuer.commitIssued then [] else s.tar.issuer.tied.filter fun v => v.1 != instant s
  if due.isEmpty then s
  else due.foldl (fun s v => decideVerdict v.2.1 v.2.2.1 v.2.2.2 s)
    (setIssuer (fun i => { i with tied := i.tied.filter fun v => v.1 == instant s }) s)

/-- A new issuer that holds every HANDOVER report takes up the epoch; a re-run waits for the rebuilds of every verdict of the attempt. A report of a later epoch shows that the commit wave of the open one was received, and one of a later attempt that its abort is on the way: what is still to be decided then waits for this block to follow. A report of an earlier epoch or attempt says nothing of this one (R470; DEDUCED, log 189). -/
def handoverDone (s : State) : State :=
  let all := s.tar.issuer.handover
  if !s.tar.issuer.taking || !isIssuer s || !allHeard s (all.map (·.1)) then s
  else
    let hs := (all.filter fun h => h.2.1 == s.ep.epoch && h.2.2.1 == s.ep.attempt).map fun h => (h.1, h.2.2.2)
    let ahead := all.any fun h => decide (s.ep.epoch < h.2.1)
    let later := all.any fun h => h.2.1 == s.ep.epoch && h.2.2.1 != s.ep.attempt && decide ((h.2.2.1 + 256 - s.ep.attempt) % 256 < 128)
    let last := hs.map fun h => bitsOf 3 5 h.2
    let votes := (hs.filter fun h => bitOf 1 h.2).map fun h => (h.1, bitOf 0 h.2)
    let skip := votes.any (·.2) || s.ep.skip
    let ci := ahead || last.any fun k => k == 11
    let gi := s.ep.guardWave || (ci && !skip) || last.any fun k => k == 9
    let vi := s.ep.vote != 0 || gi || ci || last.any fun k => k == 6
    let held := s.tar.issuer.held
    let s := setIssuer (fun i => { i with
      votes := votes.foldl (fun m v => SMap.put m v.1 v.2) i.votes
      landed := ((hs.filter fun h => bitOf 2 h.2).map (·.1) ++ i.landed).eraseDups
      rebuilding := (((s.reb.runs.filter fun r => !r.closed).map (·.failed)) ++ i.rebuilding).eraseDups
      voteIssued := i.voteIssued || vi, guardIssued := i.guardIssued || gi || (vi && skip), commitIssued := i.commitIssued || ci
      taking := ahead || later, held := if ahead || later then held else [] }) s
    if later then s
    else
      let s := if vi then issueWave { tarraNow s 6 with data := b2n skip } s else s
      let s := if gi then issueWave (tarraNow s 9) s else s
      let s := if ci then issueWave { tarraNow s 11 with data := commitEvent s } s else s
      if ahead then s else issuerDecide (held.foldl (fun s v => decideVerdict v.1 v.2.1 v.2.2 s) s)

/-- A HANDOVER report is kept, also where the verdict that makes this block the wave issuer is still to come (R470). -/
def takeHandover (t : Tarra) (s : State) : State :=
  if s.ep.phase = 0 then s
  else handoverDone (setIssuer (fun i => { i with handover := SMap.put i.handover t.origin (t.epoch, t.attempt, t.data) }) s)

/-! ### Verdicts at a block -/

/-- A rank announces QUIET; three valid heartbeats with QUIET clear are counted anew from then on (R180, R185). -/
def noteQuiet (rank : Nat) (s : State) : State :=
  (List.range 8).foldl (fun s p => modPort p (fun x => if x.record.any fun r => r.rank == rank then { x with clearRun := 0 } else x) s)
    { s with tar := { s.tar with quiet := rank :: s.tar.quiet.filter (· != rank) } }

/-- What every block does at the first arrival of a verdict (R184, R185, R187); one that names this block counts for its lifetime (spec/15 R426). -/
def verdictFirst (code rank inc : Nat) (s : State) : State :=
  let last := BitVec.ofNat 64 (pack [(32, inc), (12, fld 32 12 s.tar.verdict), (17, rank), (3, code)])
  let s := raiseGlobal vVerdict { s with tar := { s.tar with verdict := last } }
  let s := forAll (boundTo s s.job.tag) (setEpend · evVerdict) s
  let s := if rank = servedRank s ∧ inc = s.job.inc then bumpLife 7 s else s
  if code = 4 then noteQuiet rank s
  else if code != 1 && code != 3 then s
  else
    let oldIssuer := issuerRank s
    let oldLeaders := myLeaders s
    let isMem := memberRank s rank
    let s := dropReport rank inc { s with tar := { s.tar with
        failed := (rank, inc) :: s.tar.failed.filter (· != (rank, inc)), again := s.tar.again.filter (· != (rank, inc)) } }
    if rank = servedRank s ∧ inc = s.job.inc then
      ownFailure (rebuildOutcome stPeerFailed true s)
    else
      let s := clearLive rank s
      let s := collPeerFailed rank s
      let s := if isMem then respread rank (assignTarget rank inc (restartRuns rank s)) else s
      let s := checkLost s
      let s := if oldIssuer = rank ∧ s.ep.phase ≠ 0 then
          let s := if isIssuer s then setIssuer (fun i => { i with taking := true }) s else s
          resendToIssuer (sendHandover s)
        else s
      if oldLeaders.contains rank then
        let s := if s.ep.guardedRep && !s.ep.guardWave then sendGuarded s else s
        s.tar.reports.foldl (fun s r => sendReportOf r s) s
      else s

/-- What the job-wide copy settles: the restoration epoch of the rebuilds that the verdict opened, and whether the open epoch aborts (R46, R188). A target that goes by the key of the failed member is watched under it from then on (R204; DEDUCED, log 133). -/
def verdictDecided (t : Tarra) (s : State) : State :=
  let mine (r : Rebuild) : Bool := (r.failed == t.rank || r.follows == some t.rank) && !r.decided
  if !s.reb.runs.any mine then s
  else
    let abort := t.data.testBit 1
    let att := if abort then (t.attempt + 1) % 256 else t.attempt
    let served := s.reb.runs.any fun r => r.failed == t.rank && !r.spread && !r.decided && (SMap.look {} s.job.peers t.rank).inc == r.inc
    let plans := s.reb.runs.any fun r => mine r && plansRun s r
    let settled (q : Rebuild) : Rebuild :=
      if mine q then { q with decided := true, epoch := t.epoch, aborted := abort, attempt := att }
      else if abort && q.decided && q.aborted && !q.restored then { q with attempt := att } else q
    let s := { s with
      reb := { s.reb with runs := s.reb.runs.map settled }
      tar := { s.tar with again := if served then (t.rank, t.inc) :: s.tar.again.filter (· != (t.rank, t.inc)) else s.tar.again } }
    if plans && !abort && t.epoch == s.ep.epoch then { s with ep := { s.ep with landedRep := false } } else s

/-- A new wave issuer goes on with what it waited for once this block has followed the others (R470). -/
def takeUp (s : State) : State := if s.tar.issuer.taking then handoverDone s else s

/-- A VERDICT message (R184, R185). Of a verdict that comes in several copies the first acts: those of one that ends no membership are told apart until its job-wide copy has come. -/
def takeVerdict (t : Tarra) (s : State) : State :=
  if s.ep.phase = 0 then s
  else
    let fail := t.cause == 1 || t.cause == 3
    let new := !fail || !keyFailed s t.rank t.inc
    let wasIssuer := isIssuer s
    let decided := t.data.testBit 0
    let key := (t.cause, t.rank, t.inc)
    let seen := !fail && s.tar.heard.contains key
    let s := if fail then s
      else { s with tar := { s.tar with heard := (if decided then [] else [key]) ++ s.tar.heard.filter (· != key) } }
    let s := if new && !seen then verdictFirst t.cause t.rank t.inc s else s
    if decided then verdictDecided t s
    else if isIssuer s && ((new && !seen) || !wasIssuer) then
      if s.tar.issuer.taking then
        handoverDone (forwardHeld t.cause t.rank t.inc (setIssuer (fun i => { i with held := i.held ++ [(t.cause, t.rank, t.inc)] }) s))
      else decideOrTie t.cause t.rank t.inc s
    else s

/-- QUIET reaches a leader, which makes it known to the group (R185, R186). -/
def takeQuiet (t : Tarra) (s : State) : State :=
  let s := noteQuiet t.rank s
  if s.ep.phase != 0 && (slotsLed s).any fun sl => (groupRanks s (grpOf s sl)).contains t.rank then issueVerdict 4 t.rank t.inc s else s

/-! ### Landed at a leader: step records and stragglers (R136, R212) -/

/-- The ceil(G/2)-th smallest land time. -/
def medianLand (ts : List Nat) : Nat := (sortBy (fun a b => decide (a ≤ b)) ts).getD ((ts.length + 1) / 2 - 1) 0

/-- One member's land time against the median, in the group of slot sl that this block leads (R212). -/
def straggle (sl median : Nat) (j rank time : Nat) (s : State) : State :=
  let key := sl * 2 ^ 17 + rank
  let slow := s.tar.slow.contains (sl, j)
  let margin := fld 0 8 s.tar.straggle.now
  let steps := fld 16 4 s.tar.straggle.now
  let late := decide (median * (100 + margin) < time * 100)
  let l := s.tar.leader
  let lag := if late then SMap.look 0 l.lag key + 1 else 0
  let good := if late then 0 else SMap.look 0 l.good key + 1
  let s := setLeader (fun l => { l with lag := SMap.put l.lag key lag, good := SMap.put l.good key good }) s
  let inc := match SMap.find s.job.peers rank with
    | some p => p.inc
    | none => s.job.inc
  if decide (steps ≤ lag) && !slow then issueVerdict 2 rank inc { s with tar := { s.tar with slow := (sl, j) :: s.tar.slow } }
  else if decide (steps ≤ good) && slow then
    issueVerdict 5 rank inc { s with tar := { s.tar with slow := s.tar.slow.filter (· != (sl, j)) } }
  else s

/-- A landed report at the leader of its sender's group: with the last member's the step records and land times are compared. -/
def leaderLanded (t : Tarra) (s : State) : State :=
  if !current s t then s
  else
    let before := s.tar.leader.crcs
    let s := setLeader (fun l => { l with
      crcs := SMap.put l.crcs t.origin (t.data % 2 ^ 32), land := SMap.put l.land t.origin (s.clk.wall - l.guardTime) }) s
    let led := (slotsLed s).filter fun sl => !(slotsLed s).any fun v => decide (v < sl) && memberRanks s (grpOf s v) == memberRanks s (grpOf s sl)
    led.foldl (fun s sl =>
      let ms := memberRanks s (grpOf s sl)
      let all (m : SMap Nat) := ms.all fun r => (SMap.find m r).isSome
      if all before || !all s.tar.leader.crcs then s
      else
        let cs := ms.map fun r => SMap.look 0 s.tar.leader.crcs r
        let s := if cs.all fun c => c == cs.getD 0 0 then s
          else raiseGlobal vDigest { s with dig := { s.dig with count := min (s.dig.count + 1) 0xFFFFFFFF } }
        if s.ep.guardWave then
          let ts := ms.map fun r => SMap.look 0 s.tar.leader.land r
          (ms.zip ts).zipIdx.foldl (fun s x => straggle sl (medianLand ts) x.2 x.1.1 x.1.2 s) s
        else s) s

def takeLanded (t : Tarra) (s : State) : State := issuerLanded t (leaderLanded t s)

/-- RESTORED: from a spread host to the home, or from a target to the wave issuer (R203; DEDUCED, log 45). -/
def takeRestored (t : Tarra) (s : State) : State :=
  match rebOf s t.rank with
  | some r =>
    if r.spread && plansRun s r && t.origin != runRank r then
      putRun { r with hostsDone := t.origin :: r.hostsDone.filter (· != t.origin), event := if r.event = 0 then t.data else r.event } s
    else issuerRestored t s
  | none => issuerRestored t s

/-! ### Restoration (R203) -/

/-- Whether this block has done its part of a run. -/
def partDone (s : State) (r : Rebuild) : Bool :=
  r.decided && (r.started || r.spread) && (unitsToWrite s r).all (fun u => r.doneU.contains u) &&
  (r.aborted || r.epoch != s.ep.epoch || !writesRun s r || r.rolled) &&
  (outsOf s s.ep.epoch).all fun o => !holderLive s o || (o.ready.isNone && o.flight.isNone && o.pend.isNone)

/-- A live replica of a REPLICATED region: the lowest live member of its group with an entry of the same index and UNITS (spec/04 R112). -/
def liveReplica (s : State) (failed i : Nat) (r : Region) : Option Nat :=
  (s.job.peers.find? fun x => x.1 != failed && !rankDead s x.1 && SMap.find x.2.replicas i == some r.units &&
    (memberRanks s (grpOf s r.group)).contains x.1).map (·.1)

/-- Regions of class REPLICATED take the bits of a live replica at the restoration epoch (Table 2.4; DESIGN CHOICE, log 48). -/
def copyReplicas (q : Rebuild) (s : State) : State :=
  ((regionsInForce s).filter fun x => x.2.valid && x.2.cls == 7).foldl (fun s x =>
    match liveReplica s q.failed x.1 x.2 with
    | some m => (List.range (4096 * x.2.units)).foldl (fun s k =>
        memWrite (regionAddr x.2 + k) [Config.replicaByte m q.epoch x.1 k] s) s
    | none => s) s

end Sys2Proof.Machine
end

