-- ==== Sys2Proof/Machine/Memops.lean ====
section
/-! DEFINITION. Memory-semantic operations and copies (spec/08 R239 to R243) with the partition's memory part (spec/13 R372). -/

namespace Sys2Proof.Machine

/-- A write into memory by way of the coded-store path, which counts the writes that enter coded units (R45, R109). -/
def pathWrite (a : Nat) (bs : List Byte) (s : State) : State :=
  codedWrite a bs (if touchesCoded s a bs.length then countCsWrite s else s)

/-! ### The destination (R239, R240) -/

def findPair (s : State) (rank part : Nat) : Option OpPair := s.fab.pairs.find? fun x => x.rank == rank && x.part.val == part

def putPair (x : OpPair) (s : State) : State :=
  { s with fab := { s.fab with pairs := x :: s.fab.pairs.filter fun y => !(y.rank == x.rank && y.part == x.part) } }

/-- Answers a request: APPLIED 0, NOT_APPLIED 1 or BUSY 2, by a MINIMAL route to the source (R240, R241). -/
def answerMem (h : FrameHdr) (m : MemMsg) (rstat : Nat) (data : List Byte) (s : State) : State :=
  (sendFrame { tag := h.tag, part := m.spart.val, typ := 10, rank := h.srcRank, epoch := s.ep.epoch
               body := .mem { m with rstat := rstat, data := data } } s).1

/-- What an atomic leaves in its word (Table 8.6). -/
def atomicNew (op : Nat) (old : Word) (data : List Byte) : Word :=
  let d := BitVec.ofNat 64 (ofBytes (data.take 8))
  match op with
  | 2 => BitVec.ofNat 64 ((old.toNat + ofBytes (data.take 4)) % 4294967296)
  | 3 => old + d
  | 4 => d
  | 5 => if old = d then BitVec.ofNat 64 (ofBytes ((data.drop 8).take 8)) else old
  | 6 => old &&& d
  | 7 => old ||| d
  | 8 => old ^^^ d
  | 9 => if old.toNat ≤ d.toNat then old else d
  | _ => if old.toNat ≤ d.toNat then d else old

/-- Bytes that an operation touches at the destination, with the address brought to its alignment (DESIGN CHOICE, log 51). -/
def memExtent (m : MemMsg) : Nat × Nat :=
  let a := m.addr.toNat
  if m.op = 2 then (a / 4 * 4, 4)
  else if 3 ≤ m.op ∧ m.op ≤ 10 then (a / 8 * 8, 8)
  else (a, m.size)

/-- What applying an operation comes to. -/
inductive MemDone where
  | applied (old : Word) (data : List Byte)
  | breach
  | wait
  | failed
  deriving DecidableEq, Repr

/-- Applies one operation (R239, Table 8.6); one with a reserved OP, or whose SIZE or DATA is not as the table has it, has no effect and is answered NOT_APPLIED (DESIGN CHOICE, log 62). -/
def applyMem (h : FrameHdr) (m : MemMsg) (s : State) : State × MemDone :=
  let (a, n) := memExtent m
  if !memShapeOk m then (s, .failed)
  else if m.op = 12 then
    let t := bitsOf 0 14 m.addr.toNat
    if (tallyOf s t).owned && (tallyOf s t).owner != m.spart.val then (violate 0 s, .breach)
    else (incTally t (BitVec.ofNat 32 (ofBytes (m.data.take 4))) s, .applied 0 [])
  else if 14 ≤ m.op then (s, .failed)
  else if !padFree s a && inWindow s h.part a n then (s, .wait)
  else if decide (2 ≤ tierOf a) || !inWindow s h.part a n then (violate 0 s, .breach)
  else
    let (s1, bad, u) := memFetch a n s
    if m.op = 0 then
      if bad then ((badLines a n s1).foldl (fun s l => repairLine l s) s1, .failed) else (s1, .applied 0 (denseU n 0 u))
    else if writeBlocked a n s then (markHold 16 s, .wait)
    else if m.op = 1 then (pathWrite a m.data s, .applied 0 [])
    else if bad then ((badLines a n s1).foldl (fun s l => repairLine l s) s1, .failed)
    else if m.op = 11 then
      (pathWrite a (List.zipWith (fun t d => t ^^^ gfMul m.coef d) (denseU n 0 u) (m.data ++ List.replicate n 0)) s1, .applied 0 [])
    else
      let old := BitVec.ofNat 64 (ofBytes (denseU n 0 u))
      (pathWrite a (toBytes n (atomicNew m.op old m.data).toNat) s1, .applied old [])

/-- Old value in a response: 8 bytes, for ADD32 too, whose record holds 4 (DESIGN CHOICE, log 184). -/
def oldBytes (op : Nat) (old : Word) : List Byte := if 2 ≤ op ∧ op ≤ 10 then toBytes 8 old.toNat else []

/-- Keeps the records of the last 256 operations of a pair, and those ahead (R240). -/
def pruneOps (x : OpPair) : OpPair :=
  { x with ops := x.ops.filter fun o => decide ((x.next + 65535 - o.1) % 65536 < 256) || decide ((o.1 + 65536 - x.next) % 65536 < 256) }

/-- Outcomes of a record: 1 applied, 2 cancelled, 3 held early, 4 dropped as a breach. -/
def recDone (x : OpPair) (k : Nat) (o : OpRecord) : OpPair :=
  pruneOps { x with next := (k + 1) % 65536, ops := SMap.put x.ops k o }

/-- Applies the operations of a pair that are next in order (R240). -/
def pumpPair (rank part : Nat) : Nat → State → State
  | 0, s => s
  | n + 1, s => match findPair s rank part with
    | none => s
    | some x => match SMap.find x.ops x.next with
      | none => s
      | some o => match o.outcome, o.msg, o.hdr with
        | 3, some m, some h => match applyMem h m s with
          | (t, .wait) => t
          | (t, .breach) => pumpPair rank part n (putPair (recDone x x.next { outcome := 4 }) t)
          | (t, .failed) => pumpPair rank part n (answerMem h m 1 [] (putPair (recDone x x.next { outcome := 2 }) t))
          | (t, .applied old data) => pumpPair rank part n (answerMem h m 0 (oldBytes m.op old ++ data)
              (putPair (recDone x x.next { outcome := 1, old := old, msg := some { m with data := [] }, hdr := some h }) t))
        | 2, _, _ => pumpPair rank part n (putPair (recDone x x.next o) s)
        | _, _, _ => s

def pumpOps (rank part : Nat) (s : State) : State := pumpPair rank part 300 s

/-- Pairs whose next operation waited for the coded-store path try again (R109, R110). -/
def pumpAll (s : State) : State := s.fab.pairs.foldl (fun s x => pumpOps x.rank x.part.val s) s

/-- The pair of a request, a new one if the table has room. -/
def pairFor (s : State) (h : FrameHdr) (m : MemMsg) : Option OpPair :=
  match findPair s h.srcRank m.spart.val with
  | some x => some x
  | none => if s.fab.pairs.length < Config.opPairs then some { rank := h.srcRank, part := m.spart } else none

/-- Answers for an operation already applied: a LOAD is read again (R240). -/
def answerApplied (o : OpRecord) (h : FrameHdr) (m : MemMsg) (s : State) : State :=
  match o.msg with
  | none => answerMem h m 0 [] s
  | some k =>
    if k.op = 0 then
      let (s, _, u) := memFetch k.addr.toNat k.size s
      answerMem h m 0 (denseU k.size 0 u) s
    else answerMem h m 0 (oldBytes k.op o.old) s

/-- CANCEL (R240). -/
def takeCancel (h : FrameHdr) (m : MemMsg) (s : State) : State :=
  match pairFor s h m with
  | none => answerMem h m 2 [] s
  | some x => match SMap.find x.ops m.opseq with
    | some o =>
      if o.outcome = 1 then answerApplied o h m s
      else if o.outcome = 3 then pumpOps x.rank x.part.val (answerMem h m 1 [] (putPair { x with ops := SMap.put x.ops m.opseq { outcome := 2 } } s))
      else answerMem h m 1 [] s
    | none =>
      let ahead := decide ((m.opseq + 65536 - x.next) % 65536 < 32768)
      let s := if ahead then putPair { x with ops := SMap.put x.ops m.opseq { outcome := 2 } } s else s
      pumpOps x.rank x.part.val (answerMem h m 1 [] s)

/-- A memory request for a partition of this block (R240). -/
def takeMemreq (h : FrameHdr) (m : MemMsg) (s : State) : State :=
  if m.op = 13 then takeCancel h m s
  else match pairFor s h m with
    | none => answerMem h m 2 [] s
    | some x => match SMap.find x.ops m.opseq with
      | some o => if o.outcome = 1 then answerApplied o h m s else s
      | none =>
        if (m.opseq + 65536 - x.next) % 65536 < 32768 then
          pumpOps x.rank x.part.val (putPair { x with ops := SMap.put x.ops m.opseq { outcome := 3, msg := some m, hdr := some h } } s)
        else s

/-! ### Gateways (R241) -/

def bulkLen (ms : List (FrameHdr × MemMsg)) : Nat := (ms.map fun x => payloadLen (.mem x.2)).foldl (· + ·) 0
def gwHeld (s : State) (rank : Nat) : List (FrameHdr × MemMsg) := SMap.look [] s.fab.gw rank
def gwTotal (s : State) : Nat := (s.fab.gw.map fun x => bulkLen x.2).foldl (· + ·) 0

/-- Whether two operations may share a bulk frame: one source rank, tag and partition, which the frame's header names (DEDUCED, log 49). -/
def gwSame (a b : FrameHdr) : Bool := a.srcRank == b.srcRank && a.tag == b.tag && a.part == b.part

/-- Sends the bulk frame of one source to a rank (R241). -/
def gwSend (rank : Nat) (h : FrameHdr) (s : State) : State :=
  let all := gwHeld s rank
  let mine := all.filter fun x => gwSame x.1 h
  let rest := all.filter fun x => !gwSame x.1 h
  let s := { s with fab := { s.fab with gw := if rest.isEmpty then SMap.del s.fab.gw rank else SMap.put s.fab.gw rank rest } }
  if mine.isEmpty then s
  else match translate s rank with
    | none => violate 3 s
    | some c =>
      let b : Payload := .bulk (mine.map (·.2))
      let f : Frame := ⟨sealHdr { h with destCoord := c, destRank := rank, typ := 13, vc := lowerVc 13 b, route := 0, hops := 0, len := payloadLen b }, b⟩
      (sendFormed f { s with fab := { s.fab with memopStat := bump 0 16 s.fab.memopStat } }).1

/-- Sends every bulk frame held for a rank. -/
def gwFlushRank (rank : Nat) (s : State) : State := (gwHeld s rank).foldl (fun s x => gwSend rank x.1 s) s

/-- An operation reaches its gateway; without space it stays with the sender, held by link back-pressure (R241). -/
def gwTake (h : FrameHdr) (m : MemMsg) (s : State) : State :=
  let mine (s : State) := (gwHeld s h.destRank).filter fun x => gwSame x.1 h
  if Config.gatewayBytes < gwTotal s + payloadLen (.mem m) then s
  else
    let s := if 4160 < bulkLen (mine s) + payloadLen (.mem m) then gwSend h.destRank h s else s
    let s := { s with fab := { s.fab with gw := SMap.put s.fab.gw h.destRank (gwHeld s h.destRank ++ [(h, m)]) } }
    if 4096 ≤ bulkLen (mine s) then gwSend h.destRank h s else s

/-- A bulk frame at its destination (R241). -/
def takeBulk (h : FrameHdr) (ms : List MemMsg) (s : State) : State := ms.foldl (fun s m => takeMemreq h m s) s

/-! ### The requester (R239 to R241, R304) -/

/-- Whether the first hop of a frame can be taken now or after a hold. -/
def hasRoute (s : State) (f : Frame) : Bool :=
  match nextPort s none f.hdr with
  | none => true
  | some (p, h) => portBringing s p || portServes s h.typ p || (alternatives s h p).any fun y => portServes s h.typ y.1

/-- Sends a request, straight or by way of its gateway; the status is not OK where nothing was sent (R241). -/
def sendMem (p rank : Nat) (m : MemMsg) (s : State) : State × Nat :=
  let r : SendReq := { tag := (partOf s p).tag, part := p, typ := 9, rank := rank, epoch := s.ep.epoch, body := .mem m }
  match translate s rank with
  | none => (s, stUnmapped)
  | some c =>
    let diff := (List.range 4).filter fun a => coordAt s.fab.coord a != coordAt c a
    let pos (a : Nat) : Nat :=
      let x (i : Nat) := coordAt (if i = a then c else s.fab.coord) i
      coordOf (x 0) (x 1) (x 2) (x 3)
    if diff.length ≤ 1 then sendFormed (formFrame s r c) s
    else
      let lo := formFrame s r (pos (diff.headD 0))
      if hasRoute s lo then sendFormed lo s else sendFormed (formFrame s r (pos (diff.getLastD 0))) s

def bumpMemop (lo : Nat) (s : State) : State := { s with fab := { s.fab with memopStat := bump lo 16 s.fab.memopStat } }

/-- An operation of partition p that waits for the answer of a rank. -/
def findRemote (s : State) (p rank opseq : Nat) : Option OpenOp :=
  (partOf s p).ops.find? fun o => match o.kind with
    | .remote r q _ _ _ => r == rank && q == opseq
    | _ => false

def dropOp (p : Nat) (o : OpenOp) (s : State) : State := modPart p (fun x => { x with ops := x.ops.filter (· != o) }) s
def swapOp (p : Nat) (o o' : OpenOp) (s : State) : State := modPart p (fun x => { x with ops := x.ops.map fun y => if y == o then o' else y }) s

/-- Unanswered operations of partition p to a rank. -/
def unanswered (s : State) (p rank : Nat) : Nat :=
  ((partOf s p).ops.filter fun o => match o.kind with
    | .remote r _ _ _ _ => r == rank
    | _ => false).length

/-- Whether the sequencer waits for this remote load or atomic: the last one that it issued. -/
def remoteWaits (x : PartSt) (o : OpenOp) : Bool :=
  x.wait == some .remote && (x.ops.filter fun y => match y.kind with
    | .remote _ _ v _ _ => v.isSome
    | _ => false).getLast? == some o

/-- A remote operation reaches its outcome: an open one its slot, a waiting one its registers (R267, R268, R304). One whose wait an image exchange or a fence has ended writes its registers, and the sequencer stays where it is (DESIGN CHOICE, log 75). -/
def remoteEnd (p : Nat) (o : OpenOp) (st : Nat) (data : List Byte) (s : State) : State :=
  let waits := remoteWaits (partOf s p) o
  let s := dropOp p o s
  match o.kind with
  | .remote _ _ vreg dst size =>
    let v : Word := BitVec.ofNat 64 (ofBytes (data.take 8))
    match vreg with
    | none => slotOutcome p o st 0 s
    | some r =>
      let s := if st = stOk then setG p r v s else s
      let s := match dst with
        | some a => if st = stOk then pathWrite a.toNat (data.take size) s else s
        | none => s
      let s := if waits then instrEnd p 7 st (if st = stOk then v else gReg (partOf s p) r) s
        else noteCheck p st (modPart p (fun x => { x with st := st }) s)
      endTally o.ten s
  | _ => s

/-- Whether the bytes of a response may not be written yet (spec/04 R109, R110). -/
def respBlocked (h : FrameHdr) (m : MemMsg) (s : State) : Bool :=
  m.rstat == 0 && match findRemote s h.part h.srcRank m.opseq with
  | some o => match o.kind with
    | .remote _ _ (some _) (some a) size => writeBlocked a.toNat (min size m.data.length) s
    | _ => false
  | none => false

/-- A response reaches its requester (R240, R304); a BUSY response is counted in TKJ_MEMOP_STAT.BUSY there (DESIGN CHOICE, log 201). -/
def takeMemrsp (h : FrameHdr) (m : MemMsg) (s : State) : State :=
  match findRemote s h.part h.srcRank m.opseq with
  | none => s
  | some o => match m.rstat with
    | 0 => remoteEnd h.part o stOk m.data s
    | 1 => remoteEnd h.part o stCheckFail [] (bumpMemop 32 s)
    | 2 => remoteEnd h.part o stNoRoom [] (bumpMemop 16 s)
    | _ => s

/-- No response within RSP_TIMEOUT_US (R240). -/
def rspExpiry (p rank opseq : Nat) (s : State) : State :=
  match findRemote s p rank opseq with
  | none => s
  | some o =>
    if 4 ≤ o.cancels then remoteEnd p o stCheckFail [] (bumpMemop 32 s)
    else
      let s := bumpMemop 48 (swapOp p o { o with cancels := o.cancels + 1 } s)
      match o.msg with
      | none => s
      | some m => (sendMem p rank { m with op := 13, size := 8, data := [] } s).1

/-! ### Copies (R242, R243) -/

/-- Sends unit k of a copy, read now. True when the source could not be read. -/
def sendCopyUnit (p : Nat) (o : OpenOp) (k : Nat) (s : State) : State × Nat :=
  match o.kind with
  | .copy rank id src len daddr tally arrive =>
    let n := min 4096 (len - 4096 * k)
    let (s, bad, u) := memFetch (src.toNat + 4096 * k) n s
    if bad then (s, stCheckFail)
    else
      sendFrame { tag := (partOf s p).tag, part := p, typ := 11, rank := rank, epoch := s.ep.epoch
                  body := .copy { copyId := id, unit := k, units := cdiv len 4096, daddr := daddr, tally := tally, arrive := arrive
                                  bytes := n, rstat := 0, crc := crc32c (denseU n 0 u), payload := u } } s
  | _ => (s, stOk)

/-- Sends every unit of a copy, up to the first that cannot leave. -/
def sendCopy (p : Nat) (o : OpenOp) (n : Nat) (s : State) : State × Nat :=
  (List.range n).foldl (fun a k => if a.2 = stOk then sendCopyUnit p o k a.1 else a) (s, stOk)

def findCopy (s : State) (p rank id : Nat) : Option OpenOp :=
  (partOf s p).ops.find? fun o => match o.kind with
    | .copy r i _ _ _ _ _ => r == rank && i == id
    | _ => false

/-- Answers a copy unit: LANDED 0, NEED 1 or REFUSED 2. -/
def answerCopy (h : FrameHdr) (c : CopyMsg) (rstat : Nat) (s : State) : State :=
  (sendFrame { tag := h.tag, part := h.part, typ := 12, rank := h.srcRank, epoch := s.ep.epoch
               body := .copyRsp { c with rstat := rstat, payload := [] } } s).1

/-- Notes that a unit of a copy arrived; the tally that it then earns, under ARRIVE (R243). The last 256 copies are on record (DESIGN CHOICE, log 52). -/
def noteCopy (h : FrameHdr) (c : CopyMsg) (s : State) : State × Bool :=
  let is (x : CopyIn) : Bool := x.rank == h.srcRank && x.part == h.part && x.copyId == c.copyId
  let x := (s.fab.copies.find? is).getD { rank := h.srcRank, part := h.part, copyId := c.copyId }
  let fresh := !x.seen.contains c.unit
  let x' := if fresh then { x with seen := c.unit :: x.seen } else x
  let s := { s with fab := { s.fab with copies := (x' :: s.fab.copies.filter fun y => !is y).take 256 } }
  (s, fresh && (!c.arrive || decide (x'.seen.length = c.units)))

/-- A copy unit for a partition of this block: true when it must wait for the coded-store path (R243, R110). -/
def takeCopyUnit (h : FrameHdr) (c : CopyMsg) (s : State) : State × Bool :=
  let a := c.daddr.toNat + 4096 * c.unit
  if decide (2 ≤ tierOf a) || !inWindow s h.part a c.bytes then (answerCopy h c 2 (violate 0 s), false)
  else if crc32c (denseU c.bytes 0 c.payload) != c.crc then (answerCopy h c 1 s, false)
  else if !padFree s a then (s, true)
  else if writeBlocked a c.bytes s then (markHold 16 s, true)
  else
    let s := pathWrite a (denseU c.bytes 0 c.payload) s
    let (s, inc) := noteCopy h c s
    let s := if !inc then s
      else if (tallyOf s c.tally).owned && (tallyOf s c.tally).owner != h.part then violate 0 s
      else incTally c.tally 1 s
    (answerCopy h c 0 s, false)

/-- A copy response at the source: a unit is sent again up to 4 times, and its failure after that ends the copy (R243; DEDUCED, log 123). -/
def takeCopyrsp (h : FrameHdr) (c : CopyMsg) (s : State) : State :=
  match findCopy s h.part h.srcRank c.copyId with
  | none => s
  | some o => match c.rstat with
    | 0 =>
      let o' := { o with landed := if o.landed.contains c.unit then o.landed else c.unit :: o.landed }
      if o'.landed.length ≥ c.units then slotOutcome h.part o stOk 0 (dropOp h.part o s)
      else swapOp h.part o o' s
    | 1 =>
      let n := SMap.look 0 o.fails c.unit + 1
      if 4 < n then slotOutcome h.part o stCheckFail 0 (dropOp h.part o s)
      else
        let o' := { o with fails := SMap.put o.fails c.unit n }
        let (s, st) := sendCopyUnit h.part o' c.unit (swapOp h.part o o' s)
        if st = stOk then s else slotOutcome h.part o' st 0 (dropOp h.part o' s)
    | _ => slotOutcome h.part o stCheckFail 0 (dropOp h.part o s)

end Sys2Proof.Machine
end

