-- ==== Sys2Proof/Machine/Issue.lean ====
section
/-! DEFINITION. Issue of an instruction (spec/09 R255, R260) and the short instructions: control (spec/10 R285, R286), scalar (R287, R288), tallies, timers, edges and waits (R306 to R309), vote and fence (R310, R311), power request (R312). -/

namespace Sys2Proof.Machine

/-- Whether the sequencer of a partition stands at an instruction boundary of its program, with no wait under way (R253). -/
def atBoundary (s : State) (p : Nat) : Bool :=
  coreUp s && ((partOf s p).seq == .run || (partOf s p).seq == .handler) && !isInstr (partOf s p) && (partOf s p).wait.isNone

/-- Issues the instruction at the PC of a partition's program: stopped outside the code, skipped under a false predicate, else carried out (R255, R260). -/
def issue (p cls : Nat) (pred : Nat) (pneg : Bool) (eff : State → State) (s : State) : State :=
  let x := partOf s p
  if !atBoundary s p then s
  else match x.image with
    | none => s
    | some m =>
      if !codeAt m x.pc then programStop p s
      else if pReg x pred == pneg then runAt p (x.pc + classWords cls) s
      else eff s

def issueR (p cls : Nat) (f : FmtR) (eff : State → State) (s : State) : State := issue p cls f.pred.val f.pneg eff s
def issueT (p cls : Nat) (f : FmtT) (eff : State → State) (s : State) : State := issue p cls f.pred.val f.pneg eff s

/-- An instruction that reports no status ends, with the register that it wrote as the result of an INSTR (Table 13.2). -/
def instrGo (p cls : Nat) (r : Word) (s : State) : State :=
  if isInstr (partOf s p) then endCommand p stOk r s else instrDone p cls s

/-- The sequencer enters WAIT, and leaves it at once where the wait has ended (R309). -/
def waitOn (p : Nat) (w : Wait) (s : State) : State :=
  wakePart p (modPart p (fun x => { x with wait := some w, seq := .wait }) s)

/-- A wait instruction of R309: one that still waits while a flush is under way ends FLUSHED (spec/13 R380). -/
def waitInsn (p cls : Nat) (w : Wait) (s : State) : State :=
  let s := waitOn p w s
  if (partOf s p).flushing && (partOf s p).wait == some w then instrEnd p cls stFlushed 0 s else s

/-- The instruction cannot go on now and issues again later (R109, R110, R240). -/
def stall (p : Nat) (s : State) : State := modPart p (fun x => { x with wait := some .stall, seq := .wait }) s

/-! ### Control, class 0 -/

/-- TKJ_EPOCH as read at the control port (Table 2.9). -/
def epochWord (s : State) : Word :=
  BitVec.ofNat 64 (pack [(32, s.ep.epoch), (16, 0), (1, b2n s.ep.rerun), (1, b2n (s.pub.any fun x => x.2.pend)), (1, b2n s.ep.fid),
    (1, b2n s.ep.skip), (4, s.ep.phase), (1, b2n s.ep.limit)])

/-- A special register of Table 9.2, as an instruction of one word reads it; PC is the word index of the next one. -/
def special (s : State) (p n : Nat) : Word :=
  let x := partOf s p
  match n with
  | 0 => BitVec.ofNat 64 ((x.pc + 1) % 16384)
  | 1 => BitVec.ofNat 64 x.st
  | 2 => BitVec.ofNat 64 x.epend
  | 3 => BitVec.ofNat 64 x.emask
  | 4 => BitVec.ofNat 64 (b2n x.eie)
  | 5 => BitVec.ofNat 64 x.eret
  | 6 => BitVec.ofNat 64 (b2n x.eres)
  | 7 => BitVec.ofNat 64 p
  | 8 => BitVec.ofNat 64 ((aliasNow s).getD (selfRank s))
  | 9 => epochWord s
  | 10 => BitVec.ofNat 64 s.clk.time
  | 11 => BitVec.ofNat 64 x.progress.count
  | _ => 0

/-- Whether the active image of a partition has the event handler, without which EIE stays 0 (R271). -/
def hasHandler (x : PartSt) : Bool := match x.image with
  | some m => (entryOf m 2).isSome
  | none => false

/-- MTS (R286). -/
def setSpecial (p n : Nat) (v : Word) (s : State) : State :=
  match n with
  | 1 => setSt p (fld 0 8 v) s
  | 2 => modPart p (fun x => { x with epend := x.epend &&& (65535 - fld 0 16 v) }) s
  | 3 => modPart p (fun x => { x with emask := fld 0 16 v }) s
  | 4 => modPart p (fun x => { x with eie := bit 0 v && hasHandler x }) s
  | _ => s

/-- KEY of a long instruction whose words are known: the CRC over the two words and the descriptors it uses (R264). -/
def longKey (w1 w2 : Word) (ds : List Desc) : Half :=
  crc32c (([w1, w2] ++ ds.flatMap descWords).flatMap fun w => toBytes 8 w.toNat)

/-- Header of microprogram n of the active image (R137). -/
def microHead (x : PartSt) (n : Nat) : Option Word :=
  match x.image with
  | none => none
  | some m => (m.micros[n]?).map fun h => m.words.getD h 0

/-- The micro-operations of microprogram n. -/
def microCode (x : PartSt) (n : Nat) : List Nat :=
  match x.image with
  | none => []
  | some m => match m.micros[n]? with
    | some h => microOps m.words (h + 1) (mLen (m.words.getD h 0))
    | none => []

/-- Inputs of the microprogram that a long instruction names; 3 where it names none. -/
def ninOf (x : PartSt) (x2 : Word) : Nat := match microHead x (sec34Of x2).mprog.val with
  | some h => mNin h
  | none => 3

/-- Numbers of the descriptor registers that a long instruction with a microprogram of nin inputs uses, in order (R264). -/
def usedDescs (nin cls op : Nat) (f : FmtT) (x2 : Word) : List Nat :=
  match cls with
  | 2 => match op with
    | 0x02 => [f.dst.val]
    | 0x08 => [f.sa.val]
    | 0x09 => [f.sa.val]
    | 0x0A => [f.sa.val]
    | _ => [f.dst.val, f.sa.val]
  | 3 =>
    let x := sec34Of x2
    if op = 0 then [f.dst.val, f.sa.val] ++ (if 2 ≤ laneArity x.lop.val then [f.sb.val] else []) ++ (if 3 ≤ laneArity x.lop.val then [f.sc.val] else [])
    else f.dst.val :: ([f.sa.val, f.sb.val, f.sc.val].take nin)
  | 4 => match op with
    | 0 => [f.sa.val, f.sb.val, f.sc.val]
    | 3 => [f.sa.val, f.sb.val, f.sc.val].take nin
    | _ => [f.sa.val, f.sb.val]
  | 5 => match op with
    | 0 => [f.dst.val, f.sa.val]
    | 4 => [f.dst.val]
    | _ => []
  | _ => []

/-- Descriptors of the second word of classes 3 and 4, where they are used (R292). -/
def secondDescs (cls : Nat) (x2 : Word) : List Nat :=
  if cls = 3 ∨ cls = 4 then
    let x := sec34Of x2
    (if x.e3 then [x.in3.val] else []) ++ (if x.e4 then [x.in4.val] else []) ++ (if x.eo1 then [x.out1.val] else []) ++
      (if x.eo2 then [x.out2.val] else []) ++ (if x.eo3 then [x.out3.val] else [])
  else []

/-- Descriptor registers that a long instruction uses, masks included, each once (R264). -/
def descNos (x : PartSt) (cls op : Nat) (f : FmtT) (x2 : Word) : List Nat :=
  let ns := (usedDescs (ninOf x x2) cls op f x2 ++ secondDescs cls x2).eraseDups
  ns ++ (((ns.map (dReg x)).filter fun d => bit 63 d.w1).map fun d => fld 57 6 d.w1).eraseDups.filter fun n => !ns.contains n

/-- KEY of a long instruction now (R264). -/
def keyNow (x : PartSt) (cls op : Nat) (f : FmtT) (x2 : Word) : Half :=
  longKey (fmtTWord cls op f) x2 ((descNos x cls op f x2).map (dReg x))

/-! ### Scalar, class 1 -/

def signed (v : Word) : Int := v.toInt
def unsignedOf (v : Int) : Word := BitVec.ofInt 64 v

/-- A two-operand result of Table 10.2. -/
def scalarAlu (op : Nat) (a b : Word) : Word :=
  let lane (c : Nat) : Word := BitVec.ofNat 64 (laneInt c 64 a.toNat b.toNat).1
  match op with
  | 0x03 => a + b
  | 0x04 => a - b
  | 0x05 => a * b
  | 0x06 => BitVec.ofNat 64 (a.toNat * b.toNat / 2 ^ 64)
  | 0x07 => lane 0x22
  | 0x08 => lane 0x23
  | 0x09 => a &&& b
  | 0x0A => a ||| b
  | 0x0B => a ^^^ b
  | 0x0C => lane 0x28
  | 0x0D => lane 0x29
  | 0x0E => lane 0x2A
  | 0x0F => if signed a ≤ signed b then a else b
  | 0x10 => if signed a ≤ signed b then b else a
  | 0x11 => if a.toNat ≤ b.toNat then a else b
  | _ => if a.toNat ≤ b.toNat then b else a

/-- A comparison of Table 10.2. -/
def scalarCmp (op : Nat) (a b : Word) : Bool :=
  match op with
  | 0x18 => a == b
  | 0x19 => a != b
  | 0x1A => decide (signed a < signed b)
  | 0x1B => decide (a.toNat < b.toNat)
  | 0x1C => decide (signed a ≤ signed b)
  | _ => decide (a.toNat ≤ b.toNat)

/-- Starts the repair of every bad line of a range that a coded unit holds (spec/07 R211, spec/15 Table 15.2). -/
def repairRange (a n : Nat) (s : State) : State :=
  (badLines a n s).foldl (fun s l => repairLine l s) s

/-- The address checks of LD, STG, LDD and STD (R288, and for T2 and T3 while any partition is bound spec/11 R318): whether the access is refused, and the state with a breach counted (spec/13 R372). -/
def scalarAddr (p : Nat) (a : Word) (n : Nat) (store : Bool) (s : State) : State × Bool :=
  if a.toNat % 8 != 0 || (store && anyBound s && decide (2 ≤ tierOf a.toNat)) then (s, true)
  else if !inWindow s p a.toNat n then (violate 0 s, true)
  else (s, false)

/-- LD and LDD: n bytes at an address, given to k; poison leaves the destination as it is (R288). -/
def scalarLoad (p : Nat) (a : Word) (n : Nat) (k : List Byte → State → State) (s : State) : State :=
  match scalarAddr p a n false s with
  | (s, true) => instrEnd p 1 stBad 0 s
  | (s, false) =>
    if !padFree s a.toNat then stall p s else
    let (s, bad, u) := memFetch a.toNat n s
    if bad then instrEnd p 1 stCheckFail 0 (repairRange a.toNat n s) else instrEnd p 1 stOk 0 (k (denseU n 0 u) s)

/-- STG and STD through the coded-store path (R288, R109). -/
def scalarStore (p : Nat) (a : Word) (bs : List Byte) (s : State) : State :=
  match scalarAddr p a bs.length true s with
  | (s, true) => instrEnd p 1 stBad 0 s
  | (s, false) =>
    if !padFree s a.toNat then stall p s
    else if writeBlocked a.toNat bs.length s then stall p (markHold p s)
    else instrEnd p 1 stOk 0 (pathWrite a.toNat bs s)

def wordsOfBytes (bs : List Byte) : List Word :=
  (List.range (bs.length / 8)).map fun i => BitVec.ofNat 64 (ofBytes ((bs.drop (8 * i)).take 8))

/-- Offset and descriptor number of LDD and STD. -/
def descOff (f : FmtR) : Word := BitVec.ofInt 64 (toS 26 (bitsOf 0 26 f.imm.toNat))
def descNo (f : FmtR) : Nat := bitsOf 26 6 f.imm.toNat

/-- The scalar operations of Table 10.2; OP bit 7 is the immediate form. -/
def scalarOp (p op : Nat) (f : FmtR) (s : State) : State :=
  let x := partOf s p
  let a := gReg x f.ra.val
  let im : Word := BitVec.ofInt 64 (immS f)
  let b := if 128 ≤ op then im else gReg x f.rb.val
  let o := op % 128
  let next := runAt p (x.pc + 1)
  if decide (3 ≤ o ∧ o ≤ 0x12) then next (setG p f.rd.val (scalarAlu o a b) s)
  else if decide (0x18 ≤ o ∧ o ≤ 0x1D) then next (setP p (f.rd.val % 8) (scalarCmp o a b) s)
  else match o with
    | 0x00 => next (setG p f.rd.val im s)
    | 0x01 => next (setG p f.rd.val (setFld 32 32 f.imm.toNat (gReg x f.rd.val)) s)
    | 0x02 => next (setG p f.rd.val a s)
    | 0x20 => next (setP p (f.rd.val % 8) (pReg x (f.ra.val % 8) && pReg x (f.rb.val % 8)) s)
    | 0x21 => next (setP p (f.rd.val % 8) (pReg x (f.ra.val % 8) || pReg x (f.rb.val % 8)) s)
    | 0x22 => next (setP p (f.rd.val % 8) (!pReg x (f.ra.val % 8)) s)
    | 0x23 => next (setP p (f.rd.val % 8) (f.imm.getLsbD 0) s)
    | 0x28 => scalarLoad p (a + im) 8 (fun bs s => setG p f.rd.val (BitVec.ofNat 64 (ofBytes bs)) s) s
    | 0x29 => scalarStore p (a + im) (toBytes 8 (gReg x f.rb.val).toNat) s
    | 0x2A => scalarLoad p (a + descOff f) 48 (fun bs s => setD p (descNo f) (descOf (wordsOfBytes bs)) s) s
    | 0x2B => scalarStore p (a + descOff f) ((descWords (dReg x (descNo f))).flatMap fun w => toBytes 8 w.toNat) s
    | 0x2C => next (setD p (descNo f) (setDWord (dReg x (descNo f)) (bitsOf 0 3 f.imm.toNat) a) s)
    | 0x2D => next (setG p f.rd.val (dWord (dReg x (descNo f)) (bitsOf 0 3 f.imm.toNat)) s)
    | _ => s

/-! ### Tallies, timers, edges and waits, class 8 -/

/-- The tally that a class 8 instruction names (R306). -/
def tallyNo (x : PartSt) (f : FmtR) : Nat := if f.imm.msb then fld 0 14 (gReg x f.ra.val) else bitsOf 0 14 f.imm.toNat

/-- Whether the program of partition p may use a tally (R274). -/
def tallyMine (s : State) (p n : Nat) : Bool := !(tallyOf s n).owned || (tallyOf s n).owner == p

def tenOf (f : FmtT) : Option Nat := if f.ten then some f.tally.val else none

/-- An instruction of format T ends at issue with a status other than BAD_COMMAND, which counts on its tally (R262, R284). -/
def endAtIssue (p cls : Nat) (f : FmtT) (st : Nat) (s : State) : State :=
  endTally (if f.ten && tallyMine s p f.tally.val then some f.tally.val else none) (instrEnd p cls st 0 s)

/-- A long instruction issued with RESUME clear, or an open one, completes FLUSHED while a flush is under way (spec/13 R380). -/
def flushGate (p cls : Nat) (f : FmtT) (k : State → State) (s : State) : State :=
  if (partOf s p).flushing && !f.resume then endAtIssue p cls f stFlushed s else k s

/-- Changes a tally other than by an increment, and shows the change (R273, R307). -/
def setTally (n : Nat) (f : Tally → Tally) (s : State) : State := afterTally n (reached (tallyOf s n)) (modTally n f s)

/-- Starts a timer; a periodic one below 40 ns is left stopped (R276). -/
def timerValid (t : Timer) : Timer := if t.en && t.periodic && decide (t.period < 40) then { t with en := false } else t

/-- The class 8 operations of Table 10.12. -/
def tallyOp (p op : Nat) (f : FmtR) (s : State) : State :=
  let x := partOf s p
  let n := tallyNo x f
  let b := gReg x f.rb.val
  let low : Half := BitVec.ofNat 32 (fld 0 32 b)
  if op ≤ 5 ∧ !tallyMine s p n then instrEnd p 8 stBad 0 s
  else match op with
    | 0x00 => instrEnd p 8 stOk 0 (incTally n low s)
    | 0x01 => instrEnd p 8 stOk 0 (setTally n (fun t => { t with count := low }) s)
    | 0x02 => instrEnd p 8 stOk 0 (setTally n (fun t => { t with target := low }) s)
    | 0x03 => instrEnd p 8 stOk 0 (setTally n (fun t => { t with target := t.target + low }) s)
    | 0x04 =>
      let v : Word := BitVec.ofNat 64 ((tallyOf s n).target.toNat * 2 ^ 32 + (tallyOf s n).count.toNat)
      instrEnd p 8 stOk v (setG p f.rd.val v s)
    | 0x05 => waitInsn p 8 (.tally n) s
    | 0x08 => waitInsn p 8 (.slot (bitsOf 0 5 f.imm.toNat)) s
    | 0x09 => waitInsn p 8 (.event (bitsOf 0 16 f.imm.toNat)) s
    | 0x0A =>
      let per := f.imm.getLsbD 8
      instrGo p 8 0 (modTimer p (bitsOf 0 6 f.imm.toNat) (fun t => timerValid { t with
        deadline := (s.clk.time + b.toNat) % 2 ^ 64, en := true, expired := false, missed := 0, periodic := per
        evt := f.imm.getLsbD 9, period := if per then fld 0 40 b else t.period }) s)
    | 0x0B => instrGo p 8 0 (modTimer p (bitsOf 0 6 f.imm.toNat) (fun t => { t with en := false }) s)
    | 0x0C =>
      let t := timerOf x (bitsOf 0 6 f.imm.toNat)
      let v : Word := BitVec.ofNat 64 (pack [(16, b2n t.expired), (12, t.missed)])
      instrGo p 8 v (setG p f.rd.val v (modTimer p (bitsOf 0 6 f.imm.toNat) (fun t => { t with expired := false, missed := 0 }) s))
    | 0x0D =>
      let e := edgeOf x (bitsOf 0 5 f.imm.toNat)
      let v : Word := BitVec.ofNat 64 (pack [(1, b2n e.latched), (1, b2n e.level), (14, 0), (16, e.count)])
      instrGo p 8 v (setG p f.rd.val v (modEdge p (bitsOf 0 5 f.imm.toNat) (fun e => { e with latched := false, count := 0 }) s))
    | 0x0E =>
      let a := gReg x f.ra.val
      let set (e : Edge) : Edge :=
        let e := { e with kind := fld 60 2 a, evt := bit 59 a, src := fld 24 3 a, sel := fld 0 14 a, latched := false, count := 0 }
        { e with level := edgeLevel s e }
      instrGo p 8 0 (modEdge p (bitsOf 0 5 f.imm.toNat) set s)
    | _ => s

/-! ### Vote, fence and power request, classes 9 and 10 -/

/-- Whether partition p is the step partition of the job admitted here. -/
def isStepPart (s : State) (p : Nat) : Bool :=
  (partOf s p).bound && (partOf s p).tag == s.job.tag && (match s.job.stepPart with
    | some q => q.val == p
    | none => false)

/-- The vote result of the open epoch: 0 pending, 1 PROCEED, 2 SKIP (Table 10.13). -/
def voteNow (s : State) : Nat := if s.ep.skip then 2 else if s.ep.vote = 1 then 1 else 0

/-- The class 9 operations of Table 10.13. -/
def voteOp (p op : Nat) (f : FmtR) (s : State) : State :=
  let x := partOf s p
  match op with
  | 0x00 => waitOn p (.fence (f.imm.getLsbD 0)) s
  | 0x01 =>
    if isStepPart s p then
      let s := if s.ep.phase = 0 then s else { s with ep := { s.ep with endupd := true } }
      instrEnd p 9 stOk 0 s
    else instrEnd p 9 stBad 0 s
  | 0x02 => waitInsn p 9 (.epoch (fld 0 32 (gReg x f.ra.val)) (bitsOf 0 4 f.imm.toNat)) s
  | 0x03 =>
    let v : Word := BitVec.ofNat 64 (voteNow s)
    instrGo p 9 v (setG p f.rd.val v s)
  | _ => s

/-- IDLE (R312): refused in chervil mode. -/
def idleOp (p : Nat) (s : State) : State := if s.mode.chervil then instrEnd p 10 stBad 0 s else waitOn p .idle s

end Sys2Proof.Machine
end

