-- ==== Sys2Proof/Machine/LongOps.lean ====
section
/-! DEFINITION. Long instructions at issue: descriptor checks (spec/09 R257 to R259, R284), resumption (R264, R265), masks and overlap (spec/05 R122 to R126), hyper-operands and step records (R131, R136, spec/07 R200), and the coding note of a granule's writes (R127, R128, R200). -/

namespace Sys2Proof.Machine

/-! ### Extents -/

/-- The span of bytes that a descriptor addresses, as a tiered address and a length. -/
def descExtent (d : Desc) : Nat × Nat :=
  if dCount d = 0 then (0, 0)
  else
    let (lo, hi) := byteRange d
    (tierOf d.w0.toNat * 2 ^ 62 + lo.toNat, (hi - lo).toNat)

/-- The bytes that walk elements [e, e + n) of a descriptor occupy. -/
def granExtents (d : Desc) (e n : Nat) : List (Nat × Nat) :=
  let k := atomElems d
  if n = 0 then []
  else if dDense d then [(elemAddr d (e / k * k), cdiv n k * atomBytes d)]
  else (List.range (cdiv n k)).map fun i => (elemAddr d (e + i * k), atomBytes d)

/-- The mask bytes of walk elements [e, e + n). -/
def maskExtents (ms : List Desc) (e n : Nat) : List (Nat × Nat) :=
  if n = 0 then [] else ms.map fun m => (m.w0.toNat + e / 8, (e + n - 1) / 8 - e / 8 + 1)

/-! ### Roles of descriptors -/

/-- Which input i of a microprogram each value depends on, as a set of bits, through temporaries; and the sets of the outputs (R200). -/
def microDeps : List Nat → SMap Nat → SMap Nat → SMap Nat
  | [], _, out => out
  | m :: ms, t, out =>
    if bitsOf 26 6 m = 0 then microDeps ms t out
    else
      let of (c : Nat) : Nat := if c < 5 then 2 ^ c else if 0x20 ≤ c then SMap.look 0 t c else 0
      let d := ((microSrcs m).take (laneArity (bitsOf 26 6 m))).foldl (fun a c => a ||| of c) 0
      let dst := microDst m
      if dst < 0x20 then microDeps ms t (SMap.put out (dst - 8) d) else microDeps ms (SMap.put t dst d) out

/-- The rule of R200 on a microprogram of a STEP instruction: out_j uses in_i of the first three only with i at least j. -/
def microWaveOk (ops : List Nat) : Bool :=
  let d := microDeps ops [] []
  (List.range 3).all fun j => SMap.look 0 d j % 2 ^ min j 3 == 0

/-- Input and output descriptor registers of a long instruction, in operand order; the outputs of MAP need alias no input, since R130 names none of them (DEDUCED, log 154); none where the instruction names streams that its operation or microprogram does not have (R289, R293, R294, R297, R301). -/
def longRoles (x : PartSt) (cls op : Nat) (f : FmtT) (x2 : Word) : Option (List Nat × List Nat) :=
  let y := sec34Of x2
  let a := [f.sa.val, f.sb.val, f.sc.val]
  let copy := if y.eo3 then [y.out3.val] else []
  match cls with
  | 2 => match op with
    | 0x02 => some ([], [f.dst.val])
    | 0x08 => some ([f.sa.val], [])
    | 0x0A => some ([f.sa.val], [])
    | _ => some ([f.sa.val], [f.dst.val])
  | 3 =>
    if op = 0 then some (a.take (laneArity y.lop.val), [f.dst.val])
    else match microHead x y.mprog.val with
      | none => none
      | some h =>
        if mStep h || y.e3 != decide (4 ≤ mNin h) || y.e4 != decide (5 ≤ mNin h) || y.eo1 != decide (2 ≤ mNout h) ||
          y.eo2 != decide (3 ≤ mNout h) || y.eo3 != decide (4 ≤ mNout h) then none
        else some ((a ++ [y.in3.val, y.in4.val]).take (mNin h), [f.dst.val, y.out1.val, y.out2.val, y.out3.val].take (mNout h))
  | 4 => match op with
    | 0 => if y.e3 then some (a ++ [y.in3.val], a ++ copy) else none
    | 3 => match microHead x y.mprog.val with
      | none => none
      | some h =>
        let n := min (mNout h) 3
        if y.e3 != decide (4 ≤ mNin h) || y.e4 != decide (5 ≤ mNin h) || y.eo3 != decide (4 ≤ mNout h) || decide (mNin h < n) ||
          (f.step && (!mStep h || !microWaveOk (microCode x y.mprog.val))) then none
        else some ((a ++ [y.in3.val, y.in4.val]).take (mNin h), a.take n ++ copy)
    | _ => if y.e3 then some (a.take 2 ++ [y.in3.val], a.take 2 ++ copy) else none
  | 5 => match op with
    | 0x00 => some ([f.sa.val], [f.dst.val])
    | 0x04 => some ([], [f.dst.val])
    | _ => some ([], [])
  | _ => none

/-- Lane type of a TYPE field (Table 10.5). -/
def laneTyOf (t : Nat) : LaneTy :=
  match t with
  | 0 => .f32
  | 1 => .bf16
  | 2 => .i32
  | _ => .i64

/-- Whether the formats of a lane operation are accepted (R122; DEDUCED, log 31). -/
def laneFmtsOk (lop : Nat) (t : LaneTy) (ins outs : List Desc) : Bool :=
  if lop = 0x18 then (ins.all fun d => dFmt d == 1) && outs.all fun d => dFmt d == 4
  else if lop = 0x19 then (ins.all fun d => dFmt d == 4) && outs.all fun d => dFmt d == 1
  else laneTyOk lop t && (ins.all fun d => (laneIn t (dFmt d) 0).isSome) && outs.all fun d => (laneOut t (dFmt d) 0).isSome

def f32Fmt (d : Desc) : Bool := dFmt d == 1 || dFmt d == 2 || dFmt d == 3
def gradFmt (d : Desc) : Bool := dFmt d == 1 || dFmt d == 2

/-- Whether every byte of [a, a + n) lies in EXACT regions of a slot (R297). -/
def exactIn (s : State) (sl a n : Nat) : Bool :=
  decide ((((regionsInForce s).filter fun x => x.2.valid && x.2.cls == 1 && x.2.group == sl).map fun x =>
    min (a + n) (regionAddr x.2 + 4096 * x.2.units) - max a (regionAddr x.2)).foldl (· + ·) 0 = n)

/-- Whether every byte that a descriptor addresses lies in EXACT regions of one DELTA slot (R297). -/
def exactDelta (s : State) (d : Desc) : Bool :=
  dCount d == 0 || match regionAt s (elemAddr d 0) with
  | none => false
  | some (_, r0) => (grpOf s r0.group).mode == 0 &&
    if dDense d then exactIn s r0.group (descExtent d).1 (descExtent d).2
    else (List.range (atomCount d)).all fun k => exactIn s r0.group (elemAddr d (k * atomElems d)) (atomBytes d)

/-- The formats and operand rules of each operation (R289 to R294, R297, R301). -/
def longFmts (s : State) (p cls op : Nat) (f : FmtT) (x2 : Word) (ins outs : List Desc) : Bool :=
  let i0 := ins.headD {}
  let o0 := outs.headD {}
  let y := sec34Of x2
  match cls with
  | 2 => match op with
    | 0x00 => dFmt i0 == dFmt o0
    | 0x01 => cvtOk (dFmt i0) (dFmt o0)
    | 0x02 => !fmtMx (dFmt o0)
    | 0x03 => dFmt i0 == dFmt o0 && dDims o0 == 1 && dDense o0 && bit 63 i0.w1
    | 0x04 => dFmt i0 == dFmt o0 && dDims i0 == 1 && dDense i0 && bit 63 o0.w1
    | 0x08 =>
      let e := pubOf s (sec2Of x2).entry.val
      e.valid && e.owner == p && gradFmt i0 && dCount i0 == e.elems
    | 0x0A => dFmt i0 == 4
    | _ => true
  | 3 =>
    if op = 0 then laneFmtsOk y.lop.val (laneTyOf y.type.val) ins outs
    else ins.all f32Fmt && outs.all fun d => f32Fmt d || dFmt d == 4 || dFmt d == 0
  | 4 =>
    if op = 3 then ins.all f32Fmt && outs.all fun d => f32Fmt d || dFmt d == 4 || dFmt d == 0
    else outs.all f32Fmt && (ins.dropLast.all f32Fmt) && gradFmt (ins.getLastD {})
  | 5 => match op with
    | 0x00 => dFmt i0 == dFmt o0 && exactDelta s o0
    | 0x04 =>
      let g := grpOf s (sec5Of x2).gslot.val
      g.en && decide ((sec5Of x2).pos.val < gSize g) && dDense o0 && decide (tierOf o0.w0.toNat < 2) &&
        dCount o0 / atomElems o0 * atomBytes o0 == 4096 * (gReg (partOf s p) (sec5Of x2).nreg.val).toNat
    | _ => (grpOf s (sec5Of x2).gslot.val).en && (grpOf s (sec5Of x2).gslot.val).mode == 1 && f.step && isStepPart s p
  | _ => true

/-- Overlap of outputs with inputs and with one another (R126). -/
def overlapsOk (ins outs : List Desc) : Bool :=
  (outs.all fun o => ins.all fun i => !badOverlap o i) &&
  (outs.zipIdx).all fun o => (outs.zipIdx).all fun q => decide (q.2 ≤ o.2) || !badOverlap o.1 q.1

/-- The masks of an instruction: COMPRESS takes that of SA, EXPAND that of DST, every other all of them (R125, R290). -/
def longMasks (x : PartSt) (cls op : Nat) (ins outs : List Desc) : List Desc :=
  if cls = 2 ∧ op = 3 then maskDescs (dReg x) ins
  else if cls = 2 ∧ op = 4 then maskDescs (dReg x) outs
  else maskDescs (dReg x) (ins ++ outs)

/-- The walk of a long instruction: elements, elements of a granule, granules (R123, R124, R142, R291, R298, R301). EXPAND walks its destination in as many granules as its source has, one at least. -/
def longWalk (s : State) (p cls op : Nat) (x2 : Word) (ins outs : List Desc) : Nat × Nat × Nat :=
  let n := max 1 (granuleElems (ins ++ outs))
  let e := if cls = 2 ∧ op = 3 then dCount (ins.headD {}) else dCount ((outs ++ ins).headD {})
  if cls = 2 ∧ op = 4 then (e, n, max (min 1 e) (cdiv (dCount (ins.headD {})) n)) else
  if cls = 5 ∧ op = 1 then (unitCount s (sec5Of x2).gslot.val, 1, unitCount s (sec5Of x2).gslot.val)
  else if cls = 5 ∧ op = 4 then
    let k := (gReg (partOf s p) (sec5Of x2).nreg.val).toNat
    (k, 1, k)
  else (e, n, cdiv e n)

/-- Bytes of memory, beside its descriptors, that a long instruction reads at issue: the hyper-operand block (R131). -/
def hyperAddr (x : PartSt) (cls : Nat) (x2 : Word) : Option Nat :=
  if cls = 4 then some (gReg x (sec34Of x2).hreg.val).toNat else none

/-- What a long instruction comes to at issue: refused with BAD_COMMAND, refused for its memory part, or taken with its descriptors and walk. -/
inductive LongCheck where
  | bad
  | breach
  | ok (ins outs : List Desc) (walk : Nat × Nat × Nat)
  deriving DecidableEq, Repr

/-- The checks at issue (R259, R284, R257, R123, R126, spec/13 R372). -/
def longCheck (s : State) (p cls op : Nat) (f : FmtT) (x2 : Word) : LongCheck :=
  let x := partOf s p
  match longRoles x cls op f x2 with
  | none => .bad
  | some (ni, no) =>
    let ins := ni.map (dReg x)
    let outs := no.map (dReg x)
    let all := ins ++ outs
    let ms := longMasks x cls op ins outs
    let w := longWalk s p cls op x2 ins outs
    let same := (cls == 2 && (op == 3 || op == 4)) || all.all fun d => dSizes d == dSizes (all.headD {})
    let hyper := match hyperAddr x cls x2 with
      | none => true
      | some a => a % 64 == 0 && decide (tierOf a < 2)
    if !(ins.all fun d => descOk d false) || !(outs.all fun d => descOk d (anyBound s) && outStrides d) || !same ||
      !overlapsOk ins outs || decide (2 ^ 40 ≤ w.2.2) || !hyper || !longFmts s p cls op f x2 ins outs ||
      (cls != 2 && cls != 5 && all.any fun d => fmtMx (dFmt d)) then .bad
    else if !(all.all fun d => inWindow s p (descExtent d).1 (descExtent d).2) ||
      !(ms.all fun m => inWindow s p m.w0.toNat (cdiv w.1 8)) ||
      !(match hyperAddr x cls x2 with
        | none => true
        | some a => inWindow s p a 64) then .breach
    else .ok ins outs w

/-! ### Issue -/

def refuse (p cls : Nat) (breach : Bool) (s : State) : State := instrEnd p cls stBad 0 (if breach then violate 0 s else s)

/-- Whether the slot table in force gives a partition a slot of an engine class (spec/12 Tables 12.2 and 12.3). -/
def engineGiven (s : State) (p e : Nat) : Bool :=
  match s.mode.table with
  | none => false
  | some t =>
    let names (i : Nat) : Bool := bitOf 7 (t.getD i 0).toNat && bitsOf 0 4 (t.getD i 0).toNat == p
    (List.range 256).any fun k => if e = 0 then (List.range 16).any fun c => names (32 * k + c) else names (32 * k + 23 + e)

/-- Whether chervil mode refuses an instruction that needs some engine classes (spec/12 R351). -/
def engineRefused (s : State) (p : Nat) (es : List Nat) : Bool := s.mode.chervil && !es.all (engineGiven s p)

/-- Engine classes that a long instruction needs, by the names of Table 12.2. -/
def engineOf (cls op : Nat) : List Nat :=
  match cls with
  | 3 => [0]
  | 4 => [0]
  | 5 => [3]
  | _ => match op with
    | 1 => [2]
    | 3 => [1]
    | 4 => [1]
    | 8 => [7]
    | _ => []

/-- Whether a partition may take engine unit i now: it is free, and a core only of its mask, and in chervil mode given by the slot in force (spec/05 R146, spec/12 R351). -/
def engineFree (s : State) (p i : Nat) : Bool :=
  (SMap.find s.mode.held i).isNone && (decide (16 ≤ i) || (coreMaskOf s p).testBit i) && (!s.mode.chervil || slotGives s i p)

/-- The free engines on which a granule of partition p can start: the lowest core, a whole pair in paired mode, or the unit of each class (spec/12 R348, R351, spec/05 R145, R146). -/
def enginesFor (s : State) (p : Nat) (paired : Bool) (es : List Nat) : Option (List Nat) :=
  (es.mapM fun e =>
    if e ≠ 0 then (if engineFree s p (23 + e) then some [23 + e] else none)
    else if paired then ((List.range 8).find? fun c => engineFree s p (2 * c) && engineFree s p (2 * c + 1)).map fun c => [2 * c, 2 * c + 1]
    else ((List.range 16).find? (engineFree s p)).map fun c => [c]).map List.flatten

/-- Whether the granule of a partition has started: once it holds its engines (spec/12 R348, R351). -/
def granuleStarted (s : State) (p : Nat) (l : Long) : Bool :=
  (engineOf l.cls l.op).isEmpty || s.mode.held.any fun x => x.2 == p && x.1 != 29

/-- The engine classes for which a partition has work ready: those of its started long instruction (spec/12 R348). -/
def readyClasses (x : PartSt) : List Nat :=
  match x.long with
  | some l => if x.seq == .long && !l.unstarted then engineOf l.cls l.op else []
  | none => []

/-- A partition that has work ready for a class, and had none until now, does not fall behind those that have (spec/12 R348, become_ready). -/
def becomeReady (p e : Nat) (s : State) : State :=
  if (partOf s p).ready.contains e then s
  else
    let vts := (s.part.filter fun x => x.2.ready.contains e).map fun x => SMap.look 0 x.2.vt e
    modPart p (fun x => { x with
      ready := e :: x.ready
      vt := match vts.min? with
        | some m => SMap.put x.vt e (max (SMap.look 0 x.vt e) m)
        | none => x.vt }) s

/-- The classes for which each partition has work ready, brought up to date. -/
def noteReady (s : State) : State :=
  forAll (s.part.map (·.1)) (fun p s =>
    let now := readyClasses (partOf s p)
    let s := if (partOf s p).ready.all now.contains then s else modPart p (fun x => { x with ready := x.ready.filter now.contains }) s
    now.foldl (fun s e => becomeReady p e s) s) s

/-- The granule of a partition starts where its engines are free; it holds them until it ends (spec/12 R348, R351). -/
def takeEngines (p : Nat) (s : State) : State :=
  match (partOf s p).long with
  | some l => if (partOf s p).seq != .long || l.unstarted || granuleStarted s p l || s.upd.lockWait.contains p then s
    else match enginesFor s p l.paired (engineOf l.cls l.op) with
      | some is => { s with mode := { s.mode with
          held := is.foldl (fun m i => SMap.put m i p) s.mode.held
          since := is.foldl (fun m i => SMap.put m i (coreCount s)) s.mode.since } }
      | none => s
  | none => s

/-- Partitions in the order in which engines choose them: the least virtual time for a class first, then the lowest index (spec/12 R348, pick). -/
def pickOrder (s : State) (ps : List Nat) : List Nat :=
  let key (p : Nat) : Nat := let x := partOf s p; SMap.look 0 x.vt ((readyClasses x).headD 0)
  sortBy (fun p q => decide (key p < key q ∨ (key p = key q ∧ p ≤ q))) ps

/-- Granules start: in throughput mode on every free engine by the share arbitration (spec/12 R348), in chervil mode at a slot boundary where the slot names their partitions (R351). -/
def engineStarts (slot : Bool) (s : State) : State :=
  let s := noteReady s
  if s.mode.chervil && !slot then s
  else forAll (pickOrder s ((s.part.filter fun x => x.2.seq == .long).map (·.1))) takeEngines s

/-- Whether a TEN tally may be used (R274). -/
def tenOk (s : State) (p : Nat) (f : FmtT) : Bool := !f.ten || tallyMine s p f.tally.val

/-- Whether a STEP instruction or a CODE.FRESH waits, runs or ends at issue: a status ends it (R55, R133, R295, R298). -/
def stepGate (s : State) (p cls : Nat) : Option Nat :=
  if s.ep.limit then some stStale
  else if s.ep.phase = 0 then some stBad
  else if cls = 4 && s.ep.endupd then some stStale
  else if !(partOf s p).bound || (partOf s p).tag != s.job.tag then some stBad
  else if s.ep.skip then some stSkip
  else none

/-- Whether a STEP instruction may start: after the guard wave, and CODE.FRESH after the vote result (R133, R298). -/
def stepMayStart (s : State) (cls : Nat) : Bool :=
  if cls = 5 then s.ep.vote == 1 && s.ep.phase == 4 else s.ep.guardWave && decide (5 ≤ s.ep.phase)

/-- STEP optimizer instructions that wait unstarted hold a place in the step record (R136). -/
def stepPlaces (s : State) : Nat :=
  s.upd.stepRec.length + (s.part.filter fun x => match x.2.long with
    | some l => l.cls == 4 && l.step && l.ins == 0 && !l.f.resume
    | none => false).length

/-- Whether a CODE.FRESH of a slot stands done or begun in this attempt (R298). -/
def freshBegun (s : State) (sl : Nat) : Bool :=
  s.ep.freshDone.contains sl || (owedUnits s sl).any fun x => guardFormed s sl x.1 x.2

/-- Whether every whole pair rule of paired mode can be met (R143). -/
def pairedOk (s : State) (p : Nat) : Bool :=
  !bit p s.upd.pairedEn.now || (List.range 8).any fun c => (coreMaskOf s p).testBit (2 * c) && (coreMaskOf s p).testBit (2 * c + 1)

/-- Active ones of the masks before element e. -/
def onesBefore (s : State) (ms : List Desc) (e : Nat) : Nat := ((List.range e).filter (active s ms)).length

/-- Walk element at which the active one number j of the masks stands, or the end of the walk. -/
def onePos (s : State) (ms : List Desc) (cnt j : Nat) : Nat := ((List.range cnt).filter (active s ms)).getD j cnt

/-- The walk elements of granule k: its first and the number of them. Granule k of EXPAND runs from the place of source element kN to that of element (k + 1)N, the last one to the end (R142). -/
def granSpan (s : State) (cls op : Nat) (ms : List Desc) (w : Nat × Nat × Nat) (k : Nat) : Nat × Nat :=
  if cls = 2 ∧ op = 4 then
    let a := if k = 0 then 0 else onePos s ms w.1 (k * w.2.1)
    let b := if w.2.2 ≤ k + 1 then w.1 else onePos s ms w.1 ((k + 1) * w.2.1)
    (a, b - a)
  else (min (k * w.2.1) w.1, min w.2.1 (w.1 - k * w.2.1))

/-- Place in the step record of the last entry with an operation and hyper-operand block, counted from 1; 0 for none. -/
def stepIndex (s : State) (cls op : Nat) (hyper : List Half) : Nat :=
  (s.upd.stepRec.zipIdx).foldl (fun m e => if e.1.cls == cls && e.1.op == op && e.1.hyper == hyper then e.2 + 1 else m) 0

/-! ### The unit interlock (R129) -/

/-- Units of export-pending regions that [a, a + n) meets, by their first byte (spec/14 R398). -/
def pendUnits (a n : Nat) (s : State) : List Nat :=
  (s.reg.table.filter fun x => x.2.valid && x.2.exportPend && decide (regionAddr x.2 < a + n ∧ a < regionAddr x.2 + 4096 * x.2.units)).flatMap fun x =>
    let b := regionAddr x.2
    let z := if x.2.cls = 2 then 8192 else 4096
    let lo := (max a b - b) / z
    let hi := cdiv (min (a + n) (b + 4096 * x.2.units) - b) z
    (List.range (hi - lo)).map fun k => b + z * (lo + k)

/-- The coding units of coded regions that a granule writes, and the units of export-pending ones whatever their class, by their first byte (R129, spec/14 R398). -/
def granUnits (outs : List Desc) (e n : Nat) (s : State) : List Nat :=
  (outs.flatMap fun d => granExtents d e (min n (dCount d - e))).flatMap fun x =>
    ((touchedUnits x.1 x.2 s).map fun y => (unitExtent y.r y.j).1) ++ pendUnits x.1 x.2 s

/-- A granule of a partition takes the interlock on all its units at once, or waits while another partition holds one of them (R129). -/
def takeLock (p : Nat) (us : List Nat) (s : State) : State :=
  let busy := s.upd.lock.any fun x => x.1 != p && us.contains x.2
  if busy then
    if s.upd.lockWait.contains p then s
    else { s with upd := { s.upd with lockWait := s.upd.lockWait ++ [p], updateStat := bump 32 32 s.upd.updateStat } }
  else { s with upd := { s.upd with
    lock := s.upd.lock.filter (fun x => x.1 != p) ++ (us.eraseDups.map fun u => (p, u)), lockWait := s.upd.lockWait.filter (· != p) } }

/-- Descriptors of a long instruction in execution. -/
def longIns (x : PartSt) (l : Long) : List Desc := match longRoles x l.cls l.op l.f l.x2 with
  | some r => r.1.map (dReg x)
  | none => []
def longOuts (x : PartSt) (l : Long) : List Desc := match longRoles x l.cls l.op l.f l.x2 with
  | some r => r.2.map (dReg x)
  | none => []

/-- The coding units that the next granule of a long instruction writes; COMPRESS packs from its running count on. -/
def nextUnits (p : Nat) (l : Long) (s : State) : List Nat :=
  let x := partOf s p
  let ins := longIns x l
  let outs := longOuts x l
  let w := longWalk s p l.cls l.op l.x2 ins outs
  let (e, n) := granSpan s l.cls l.op (longMasks x l.cls l.op ins outs) w l.count
  if l.cls = 5 ∧ l.op ≠ 0 then [] else granUnits outs (if l.cls = 2 ∧ l.op = 3 then l.result else e) n s

/-- The next granule of a started long instruction takes the interlock, or waits for it (R129). -/
def lockNext (p : Nat) (s : State) : State :=
  match (partOf s p).long with
  | some l => if l.unstarted || decide (l.total ≤ l.count) then s else takeLock p (nextUnits p l s) s
  | none => s

/-- A partition gives its units back, and the granules that wait try again in turn (R129). -/
def unlockNext (p : Nat) (s : State) : State :=
  let s := unlockAll p s
  s.upd.lockWait.foldl (fun s q => lockNext q s) s

/-- A long instruction that passed its checks begins, or waits unstarted (R262 to R265, R133). -/
def longBegin (p cls op : Nat) (f : FmtT) (x2 : Word) (ins outs : List Desc) (w : Nat × Nat × Nat) (hyper : List Half) (s : State) : State :=
  let x := partOf s p
  let pos := if f.resume then x.progress.count else 0
  let waits := f.step && !stepMayStart s cls
  let l : Long :=
    { cls := cls, op := op, f := f, x2 := x2, key := keyNow x cls op f x2, total := w.2.2, count := pos, extent := w.1
      step := f.step, unstarted := waits
      result := if cls = 2 ∧ (op = 3 ∨ op = 4) ∧ pos ≠ 0 then
          onesBefore s (longMasks x cls op ins outs) (granSpan s cls op (longMasks x cls op ins outs) w pos).1 else 0
      micro := if cls = 4 ∧ op = 3 then (microCode x (sec34Of x2).mprog.val).map (BitVec.ofNat 64) else []
      hyper := hyper, epoch := s.ep.epoch
      ins := if f.resume then stepIndex s cls op hyper else 0
      paired := bit p s.upd.pairedEn.now
      first := if cls = 5 ∧ op = 4 then (gReg x (sec5Of x2).freg.val).toNat else 0 }
  let s := if cls = 2 ∧ op = 8 then modPub (sec2Of x2).entry.val (fun e => { e with writing := true }) s else s
  lockNext p <| modPart p (fun x => { x with
    long := some l, seq := .long, wait := none, stepHeld := if f.resume && f.step then none else x.stepHeld
    progress := if f.resume then x.progress
      else { valid := false, susp := false, cls := cls, op := op, count := 0, key := l.key, hyper := if cls = 4 then some hyper else none } }) s

/-- Whether the repair of a poisoned line in a range is under way (spec/07 R211). -/
def repairPending (s : State) (a n : Nat) : Bool :=
  s.aud.repairs.any fun y => y.lines.any fun l => decide (l < a + n ∧ a < l + 64)

/-- The hyper-operand block of an optimizer instruction: the kept copy, or a read; none for poison, with PARTIAL where the instruction waits for its repair, and CHECK_FAIL once that could not clear it (R131, R265, R295, spec/07 R211). -/
def hyperRead (p cls op : Nat) (f : FmtT) (x2 : Word) (s : State) : State × Option (List Half) × Nat :=
  let x := partOf s p
  match hyperAddr x cls x2 with
  | none => (s, some [], stOk)
  | some a =>
    if f.resume then match x.progress.hyper with
      | some h => (s, some h, stOk)
      | none => (s, none, stBad)
    else
      let (s', bad, u) := memFetch a 64 s
      let h := (List.range 16).map fun i => BitVec.ofNat 32 (ofBytes (denseU 4 (4 * i) u))
      if bad then
        if x.repairing && !repairPending s' a 64 then (modPart p (fun x => { x with repairing := false }) s', none, stCheckFail)
        else
          let s' := repairRange a 64 s'
          if repairPending s' a 64 then (modPart p (fun x => { x with repairing := true }) s', none, stPartial)
          else (s', none, stCheckFail)
      else
        let s' := if x.repairing then modPart p (fun x => { x with repairing := false }) s' else s'
        if !hyperOk op h then (s', none, stBad) else (s', some h, stOk)

/-- Whether the interfaces that a long instruction needs are free (spec/16 R437). -/
def longPads (s : State) (p cls op : Nat) (x2 : Word) (ins outs : List Desc) : Bool :=
  ((ins ++ outs).all fun d => padFree s d.w0.toNat) && (hyperAddr (partOf s p) cls x2).all (padFree s) &&
  (!(cls == 5 || (cls == 2 && op == 8)) || tapFree s)

/-- Issues a long instruction of classes 2 to 5 (R259, R264, R265, R271, R295, R298, R334, R336, spec/13 R380); again says that ERETI continues a suspended one, which a refusal ends for good (R262; DEDUCED, log 165). An instruction with RESUME clear that ends here leaves the progress record as it is (DESIGN CHOICE, log 203). -/
def longIssue (p cls op : Nat) (f : FmtT) (x2 : Word) (again : Bool) (s : State) : State :=
  flushGate p cls f (fun s =>
  let x := partOf s p
  let gate := if f.step then stepGate s p cls else none
  let e := pubOf s (sec2Of x2).entry.val
  let check := longCheck s p cls op f x2
  let no (breach : Bool) (s : State) : State :=
    if again then endAtIssue p cls f stBad (modPart p (fun x => { x with progress := { x.progress with valid := false, hyper := none, pub := none } })
      (if breach then violate 0 s else s))
    else refuse p cls breach s
  if gate = some stStale then endAtIssue p cls f stStale s
  else if cls = 5 ∧ op = 1 ∧ !f.resume ∧ s.ep.phase ≠ 0 ∧ freshBegun s (sec5Of x2).gslot.val then
    endAtIssue p cls f stStale s
  else if cls = 2 ∧ op = 8 ∧ e.valid ∧ e.pubStep ∧ !e.pend then endAtIssue p cls f stStale s
  else if gate = some stBad || (x.eres && !f.resume) || !tenOk s p f || ((cls = 3 ∨ cls = 4) && !pairedOk s p) ||
    (cls == 5 && !x.bound) || engineRefused s p (engineOf cls op) then no false s
  else match check with
    | .bad => no false s
    | .breach => no true s
    | .ok ins outs w =>
      let full := cls == 4 && f.step && !f.resume && decide (Config.stepRecords ≤ stepPlaces s)
      if f.resume && !(x.progress.valid && keyNow x cls op f x2 == x.progress.key) then no false s
      else if f.resume && x.flushing then
        instrEnd p cls stPartial (BitVec.ofNat 64 x.progress.count) (modPart p (fun x => { x with stepHeld := if f.step then some s.ep.epoch else x.stepHeld }) s)
      else if cls = 2 ∧ op = 8 ∧ !f.resume ∧ (if activeB s e then e.readersA else e.readersB) ≠ 0 then
        endAtIssue p cls f stNoRoom (pubCount 16 16 (sec2Of x2).entry.val s)
      else if gate = some stSkip then endAtIssue p cls f (if full then stNoRoom else stSkip) s
      else if !longPads s p cls op x2 ins outs then stall p s
      else match hyperRead p cls op f x2 s with
        | (s, none, st) => if st = stBad then no false s else if st = stPartial then stall p s else endAtIssue p cls f st s
        | (s, some h, _) =>
          if full then endAtIssue p cls f stNoRoom s
          else if !outs.isEmpty && outs.all (fun d => dCount d == 0) then
            endAtIssue p cls f stOk s
          else longBegin p cls op f x2 ins outs w h s) s

/-! ### Control, class 0 -/

/-- ERETI: with a suspended long instruction, that one is issued again at ERET with RESUME set (R271). -/
def ereti (p : Nat) (s : State) : State :=
  let x := partOf s p
  let s := modPart p (fun x => { x with eie := hasHandler x, inH := false, eres := false }) s
  if x.eretDispatch && x.inH then toDispatch p s
  else match x.susp with
    | some l =>
      if !x.eres then runAt p x.eret s
      else
        longIssue p l.cls l.op { l.f with resume := true } l.x2 true
          (modPart p (fun y => { y with pc := x.eret, susp := none, seq := .run, progress := { y.progress with susp := false } }) s)
    | none => runAt p x.eret s

/-- The control operations of Table 10.1. -/
def controlOp (p op : Nat) (f : FmtR) (s : State) : State :=
  let x := partOf s p
  let target := ((x.pc : Int) + immS f) % 16384
  match op with
  | 0x00 => runAt p (x.pc + 1) s
  | 0x01 => runAt p target.toNat s
  | 0x02 => runAt p target.toNat (setG p f.rd.val (BitVec.ofNat 64 ((x.pc + 1) % 16384)) s)
  | 0x03 => runAt p (fld 0 14 (gReg x f.ra.val)) s
  | 0x04 =>
    let st := if f.imm.getLsbD 8 then x.st else bitsOf 0 8 f.imm.toNat
    endCommand p st (gReg x 31) s
  | 0x05 => ereti p s
  | 0x06 => runAt p (x.pc + 1) (setG p f.rd.val (special s p (bitsOf 0 5 f.imm.toNat)) s)
  | 0x07 => runAt p (x.pc + 1) (setSpecial p (bitsOf 0 5 f.imm.toNat) (gReg x f.ra.val) s)
  | 0x08 =>
    let sl := slotOf x (bitsOf 0 5 f.imm.toNat)
    runAt p (x.pc + 1) (setG p f.rd.val (BitVec.ofNat 64 (pack [(8, sl.status), (1, b2n sl.busy)])) s)
  | _ => s

/-! ### Coding of a granule's writes -/

def countDelta (s : State) : State := { s with upd := { s.upd with updateStat := bump 0 32 s.upd.updateStat } }

def unitTerm (x : Touched) (d : UnitImg) : Term := { raw := d, width := unitWidth x.r, narrow := x.r.cls == 2 || x.r.cls == 3 }

/-- Landing wave of output j of a STEP instruction (Table 7.5). -/
def waveOfOut (op j : Nat) : Nat :=
  match op with
  | 0 => 1
  | 1 => if j = 1 then 2 else 1
  | 2 => if j = 0 then 2 else 1
  | _ => min (j + 1) 3

/-- Landing wave of a unit that a STEP instruction writes: that of the output that covers it. -/
def waveOfUnit (op : Nat) (outs : List Desc) (x : Touched) : Nat :=
  let z := if x.r.cls = 2 then 8192 else 4096
  let a := regionAddr x.r + z * x.j
  match (outs.zipIdx).find? fun o => decide ((descExtent o.1).1 < a + z ∧ a < (descExtent o.1).1 + (descExtent o.1).2) with
  | some o => waveOfOut op o.2
  | none => 1

/-- Whether the output of an instruction that covers a coding unit is an exact alias of an input, so that the lanes form its delta (R127). -/
def aliasedUnit (ins outs : List Desc) (x : Touched) : Bool :=
  let z := if x.r.cls = 2 then 8192 else 4096
  let a := regionAddr x.r + z * x.j
  outs.any fun o => decide ((descExtent o).1 < a + z ∧ a < (descExtent o).1 + (descExtent o).2) && ins.any (sameTensor o)

/-- Merges a delta into a column's update-sweep contribution. -/
def mergeDelta (x : Touched) (d : UnitImg) (s : State) : State :=
  { s with cod := { s.cod with
      deltas := SMap.put s.cod.deltas (unitKey x.sl x.st x.col) (xorU (mergedDelta s x.sl x.st x.col) d) } }

def noteWaveUnit (w : WaveUnit) (s : State) : State :=
  if s.cod.waves.any fun v => v.ins == w.ins && v.slot == w.slot && v.stripe == w.stripe && v.col == w.col then s
  else { s with cod := { s.cod with waves := s.cod.waves ++ [w] } }

/-- Whether the lanes of an instruction form the delta of a unit: an aliased output in a DELTA slot (R127). -/
def laneCoded (ins outs : List Desc) (x : Touched) (s : State) : Bool := (grpOf s x.sl).mode == 0 && aliasedUnit ins outs x

/-- The delta of a unit that the walk has left goes to the outbox: a STEP instruction's as the unit's update-sweep contribution once its wave may go, any other as a coded-store write (R127, R128, R133, R200). -/
def laneLeft (l : Long) (outs : List Desc) (x : Touched) (d : UnitImg) (s : State) : State :=
  let s := countDelta s
  if l.cls = 4 ∧ l.step then
    if 1 < waveOfUnit l.op outs x && !sweepFormed s x.sl x.st x.col then mergeDelta x d s else stepDelta x.sl x.st x.col (unitTerm x d) s
  else noteDelta x d s

/-- What becomes of the delta of a granule's writes in a coding unit: the lanes gather that of an aliased output until the walk leaves the unit; any other is a coded-store write (R127, R200). -/
def laneNote (l : Long) (ins outs : List Desc) (x : Touched) (d : UnitImg) (s : State) : State :=
  if !laneCoded ins outs x s then noteDelta x d s
  else
    let wv := waveOfUnit l.op outs x
    let s := if l.cls = 4 ∧ l.step then
        noteWaveUnit { ins := l.ins, wave := wv, slot := x.sl, stripe := x.st, col := x.col, held := decide (1 < wv) } s else s
    mergeDelta x d s

/-- Units that the walk has entered and not left when element e is next, by the place of its outputs. -/
def unitsAt (s : State) (outs : List Desc) (extent : Nat) (place : Nat → Nat) (e : Nat) : List Touched :=
  if extent ≤ e then [] else outs.flatMap fun d => touchedUnits (elemAddr d (place e / atomElems d * atomElems d)) 1 s

def keyOf (x : Touched) : Nat := unitKey x.sl x.st x.col

/-- The walk leaves units whose delta the lanes gathered, in the order of R88; an instruction that stops leaves every unit it is in (R127, R128, R263). -/
def leaveUnits (l : Long) (outs : List Desc) (xs : List Touched) (s : State) : State :=
  (sortByKey keyOf xs).foldl (fun s x => laneLeft l outs x [] s) s

/-- The parts of a granule's walk [e, e') between which it passes from one coding unit to another, with the writes of each; dense outputs that share no unit enter none twice (R127). -/
def walkParts (s : State) (outs : List Desc) (extent : Nat) (place : Nat → Nat) (e e' : Nat) (ws : Writes) : List (Nat × Nat × Writes) :=
  let units (d : Desc) : List Nat := (((granExtents d (place e) (place e' - place e)).flatMap fun x => touchedUnits x.1 x.2 s).map keyOf).eraseDups
  if !codingOn s || (outs.all dDense && decide (outs.flatMap units).Nodup) then [(e, e', ws)]
  else
    let at_ := unitsAt s outs extent place
    let cuts := (List.range (e' - e)).filterMap fun i => if i ≠ 0 ∧ at_ (e + i) ≠ at_ (e + i - 1) then some (e + i) else none
    let r := cuts.foldl (fun (a : Nat × Writes × List (Nat × Nat × Writes)) c =>
      let xs := outs.flatMap fun d => granExtents d (place a.1) (place c - place a.1)
      let here (w : Nat × List Byte) : Bool := xs.any fun x => decide (x.1 ≤ w.1 ∧ w.1 < x.1 + x.2)
      (c, a.2.1.filter fun w => !here w, a.2.2 ++ [(a.1, c, a.2.1.filter here)])) (e, ws, [])
    r.2.2 ++ [(r.1, e', r.2.1)]

/-- One part of a granule's walk: its writes are made, and the units that the walk leaves take their deltas along; inside lists the units whose delta is being gathered. -/
def walkPart (l : Long) (ins outs : List Desc) (place : Nat → Nat) (a : State × List Nat) (x : Nat × Nat × Writes) : State × List Nat :=
  let (s, inside) := a
  let (e, e', ws) := x
  let wrote := if codingOn s then (touchedBy ws s).filter fun t => laneCoded ins outs t s else []
  let now := (inside ++ wrote.map keyOf).eraseDups
  let still := unitsAt s outs l.extent place e'
  let gone := ((unitsAt s outs l.extent place e ++ wrote).eraseDups).filter fun t => !still.contains t && now.contains (keyOf t)
  (leaveUnits l outs gone (writeAll (laneNote l ins outs) ws s), now.filter fun k => !(gone.map keyOf).contains k)

end Sys2Proof.Machine
end

