-- ==== Sys2Proof/Machine/Granule.lean ====
section
/-! DEFINITION. The granules of long instructions (spec/09 R263): tensor moves (spec/10 R289 to R291, spec/05 R140 to R142), conversions (spec/11 R325 to R330), lane work (spec/05 R122 to R125), optimizer steps (R130 to R135), and coding (spec/10 R297, R298, R301). -/

namespace Sys2Proof.Machine

/-! ### Values -/

/-- Walk element e as binary32 (R325). -/
def readF32 (s : State) (d : Desc) (e : Nat) : Nat :=
  match mxOf (dFmt d) with
  | some x =>
    let blk := memBytes (elemAddr d (e / 32 * 32)) x.blk s
    mxWiden (dFmt d) x (blk.headD 0).toNat (mxCode x blk (e % 32))
  | none => toF32 (dFmt d) (readElem s d e)

/-- A write of one element. -/
def elemWrite (d : Desc) (e v : Nat) : Nat × List Byte := (elemAddr d e, toBytes (fmtWidth (dFmt d)) v)

/-- What becomes of one element of an MX block that is written: it keeps its value, takes a code given under a scale, takes zero bits, or takes a code that the spec does not state for its value under the scale that stands. -/
inductive MxEl where
  | keep
  | code (scale c : Nat)
  | zero
  | unstated (value : Nat)
  deriving DecidableEq, Repr

/-- The scales of the codes that a block takes, each once. -/
def mxScales : List MxEl → List Nat
  | [] => []
  | .code k _ :: es => let r := mxScales es; if r.contains k then r else k :: r
  | _ :: es => mxScales es

/-- An element as a number, one of the operands of a free code. -/
def mxElKey : MxEl → Nat
  | .keep => 0
  | .zero => 1
  | .code k c => 2 + 4 * (256 * k + c)
  | .unstated v => 3 + 4 * v

/-- The code of element j of a block whose scale is to be given, where one is stated: a code given under another scale has no stated value, and is free (DESIGN CHOICE, log 54). -/
def mxElCode (x : Mx) (free : Nat → Byte) (blk : List Byte) (scale : Option Nat) (j : Nat) (el : MxEl) : Nat :=
  let open? : Nat := (free j).toNat % 2 ^ x.bits
  match el with
  | .keep => mxCode x blk j
  | .zero => 0
  | .unstated _ => open?
  | .code k c => if scale = some k then c else open?

/-- Writes an MX block element by element: with an element that keeps its value the scale stands, else it is the one scale of the codes taken; what is not stated is free, by the old block and the elements (R125, R140, R141, R115; DESIGN CHOICE, log 54). -/
def mxPut (fmt a : Nat) (els : List MxEl) (s : State) : Writes :=
  match mxOf fmt with
  | none => []
  | some x =>
    if els.all (· == .keep) then []
    else
      let blk := memBytes a x.blk s
      let free := Config.mxByte fmt (blk.map (·.toNat) ++ els.map mxElKey)
      let stands (e : MxEl) : Bool := match e with
        | .keep => true
        | .unstated _ => true
        | _ => false
      let scale := match mxScales els, els.any stands with
        | [k], false => some k
        | _ :: _ :: _, false => none
        | _, _ => some (blk.headD 0).toNat
      let b := scale.getD (free x.blk).toNat
      [(a, mxPack x (b, (els.zipIdx).map fun e => mxElCode x free blk scale e.2 e.1))]

/-- An element of an MX tensor as a block takes it over. -/
def mxTake (s : State) (i : Desc) (e : Nat) : MxEl :=
  match mxOf (dFmt i) with
  | none => .keep
  | some x =>
    let blk := memBytes (elemAddr i (e / 32 * 32)) x.blk s
    .code (blk.headD 0).toNat (mxCode x blk (e % 32))

/-- The write of one MX block of converted values; a block with a masked element keeps its scale, and no value is stated under it for the active ones (R125, R327; DESIGN CHOICE, log 54). -/
def mxWrite (fmt : Nat) (a : Nat) (vs : List Nat) (acts : List Bool) (s : State) : Writes :=
  match mxOf fmt with
  | none => []
  | some x =>
    if acts.all id then [(a, mxPack x (mxBlock fmt x vs))]
    else mxPut fmt a ((acts.zip vs).map fun b => if b.1 then .unstated b.2 else .keep) s

/-- Numbers [e, e + n). -/
def span (e n : Nat) : List Nat := (List.range n).map (e + ·)

/-- Converts elements [e, e + n) of a source into a destination through the format unit (R325 to R328). -/
def convertOut (ms : List Desc) (i o : Desc) (e n : Nat) (s : State) : Writes :=
  if fmtMx (dFmt o) then
    (List.range (n / 32)).flatMap fun k =>
      let es := span (e + 32 * k) 32
      mxWrite (dFmt o) (elemAddr o (e + 32 * k)) (es.map (readF32 s i)) (es.map (active s ms)) s
  else ((span e n).filter (active s ms)).map fun k => elemWrite o k (ofF32 (dFmt o) (readF32 s i k))

/-- Places in MX blocks of a destination that take source elements, as pairs of a destination and a source element, and those that take zero bits: each block touched is written once. -/
def mxMoves (i o : Desc) (ps : List (Nat × Nat)) (zs : List Nat) (s : State) : Writes :=
  (((ps.map (·.1) ++ zs).map (· / 32)).eraseDups).flatMap fun k =>
    mxPut (dFmt o) (elemAddr o (32 * k)) ((span (32 * k) 32).map fun j => match ps.find? fun x => x.1 == j with
      | some x => mxTake s i x.2
      | none => if zs.contains j then .zero else .keep) s

/-- Moves elements [e, e + n) between tensors of one format (Table 10.3). -/
def moveOut (ms : List Desc) (i o : Desc) (e n : Nat) (s : State) : Writes :=
  let es := (span e n).filter (active s ms)
  if fmtMx (dFmt o) then mxMoves i o (es.map fun k => (k, k)) [] s
  else if ms.isEmpty && dFmt o != 3 && dDense i && dDense o then
    streamWrites o (e * atomBytes o) (readStream s i (e * atomBytes i) (n * atomBytes i))
  else es.map fun k => elemWrite o k (readElem s i k)

/-- Place in the destination of the next element that COMPRESS packs when source element k is next, with c elements packed before element e (R140). -/
def packedPlace (s : State) (ms : List Desc) (c e k : Nat) : Nat := c + ((span e (k - e)).filter (active s ms)).length

/-- COMPRESS on source elements [e, e + n), with c elements packed before them (R140). -/
def compressOut (ms : List Desc) (i o : Desc) (e n c : Nat) (s : State) : Writes × Nat :=
  let es := (span e n).filter (active s ms)
  let ps := ((es.zipIdx).filter fun x => decide (c + x.2 < dCount o)).map fun x => (c + x.2, x.1)
  (if fmtMx (dFmt o) then mxMoves i o ps [] s else ps.map fun x => elemWrite o x.1 (readElem s i x.2), c + es.length)

/-- EXPAND into destination elements [e, e + n), with c elements taken before them (R141). -/
def expandOut (fill : Bool) (ms : List Desc) (i o : Desc) (e n c : Nat) (s : State) : Writes × Nat :=
  let es := (span e n).filter (active s ms)
  let ps := ((es.zipIdx).filter fun x => decide (c + x.2 < dCount i)).map fun x => (x.1, c + x.2)
  let zs := if fill then (span e n).filter fun k => !(ps.map (·.1)).contains k else []
  (if fmtMx (dFmt o) then mxMoves i o ps zs s
    else (ps.map fun x => elemWrite o x.1 (readElem s i x.2)) ++ zs.map fun k => elemWrite o k 0, c + es.length)

/-- Base of the inactive bay of a publication entry (R332). -/
def inactiveBay (s : State) (n : Nat) : Nat :=
  let e := pubOf s n
  (if activeB s e then e.bayA else e.bayB).toNat

/-- PUBLISH of elements [e, e + n) (R330, R334). -/
def publishOut (n0 : Nat) (ms : List Desc) (i : Desc) (e n : Nat) (s : State) : Writes :=
  let p := pubOf s n0
  let b := inactiveBay s n0
  if p.format = 2 then
    ((span e n).filter (active s ms)).map fun k => (b + 2 * k, toBytes 2 (publish16 (readF32 s i k)))
  else
    (List.range (n / 32)).flatMap fun k =>
      let es := span (e + 32 * k) 32
      mxWrite p.format (b + (e / 32 + k) * fmtBlockBytes p.format) (es.map (readF32 s i)) (es.map (active s ms)) s

/-! ### Lanes -/

/-- One lane operation on elements [e, e + n): writes and flags (R115 to R122). -/
def ewOut (lop rm : Nat) (t : LaneTy) (ms ins : List Desc) (o : Desc) (e n : Nat) (s : State) : Writes × Nat :=
  ((span e n).filter (active s ms)).foldl (fun acc k =>
    let v (j : Nat) : Nat := match ins[j]? with
      | some d => if lop = 0x18 ∨ lop = 0x19 then readElem s d k else (laneIn t (dFmt d) (readElem s d k)).getD 0
      | none => 0
    let r := laneOp lop rm t (v 0) (v 1) (v 2)
    let plain := lop == 0x18 || lop == 0x19
    let w := if plain then r.1 else (laneOut t (dFmt o) r.1).getD 0
    let fl := if plain then 0 else
      ins.foldl (fun a d => a ||| laneInFlags t (dFmt d) (readElem s d k)) (laneOutFlags t (dFmt o) r.1)
    (acc.1 ++ [elemWrite o k w], acc.2 ||| r.2 ||| fl)) ([], 0)

/-- Whether a format is one of integers (Table 9.3). -/
def intFmt (f : Nat) : Bool := f == 0 || f == 4

/-- An output of a microprogram or step in the format of its descriptor (R138). -/
def storeOut (o : Desc) (v : Nat) : Nat := (laneOut (if intFmt (dFmt o) then .i32 else .f32) (dFmt o) v).getD 0

def storeFlags (o : Desc) (v : Nat) : Nat := laneOutFlags (if intFmt (dFmt o) then .i32 else .f32) (dFmt o) v

def readLane (s : State) (d : Desc) (k : Nat) : Nat := (laneIn .f32 (dFmt d) (readElem s d k)).getD 0

/-- Outputs of a microprogram on one element, and its flags. -/
def microOut (micro : List Word) (hyper : List Half) (ins : List Nat) (nout : Nat) : List Nat × Nat :=
  let r := microRun (ins.map (BitVec.ofNat 32)) hyper micro [] [] 0
  ((List.range nout).map (SMap.look 0 r.1), r.2)

/-- The outputs of an optimizer step on one element (R130, R132): the streams in order, then the working copy. -/
def stepOut (l : Long) (v : List Nat) (nout : Nat) : List Nat × Nat :=
  let g (i : Nat) := v.getD i 0
  match l.op with
  | 0 =>
    let r := adamwStep l.hyper (g 0) (g 1) (g 2) (g 3)
    ((r.1 ++ [r.1.getD 0 0]).take nout, r.2)
  | 1 =>
    let r := lionStep l.hyper (g 0) (g 1) (g 2)
    ((r.1 ++ [r.1.getD 0 0]).take nout, r.2)
  | 2 =>
    let r := sgdmStep l.hyper (g 0) (g 1) (g 2)
    ((r.1 ++ [r.1.getD 0 0]).take nout, r.2)
  | _ => microOut l.micro l.hyper v nout

/-- Whether a value is not finite. -/
def notFinite (v : Nat) : Bool := fExp 23 v == 255

/-- A microprogram or a step on elements [e, e + n): writes, flags, and the element steps with a non-finite output, of a format that is not one of integers, and a finite gradient (R135), judged on the binary32 results before the output conversion (DESIGN CHOICE, log 155). -/
def streamsOut (f : List Nat → List Nat × Nat) (grad : Nat) (ms ins outs : List Desc) (e n : Nat) (s : State) : Writes × Nat × Nat :=
  ((span e n).filter (active s ms)).foldl (fun acc k =>
    let v := ins.map fun d => readLane s d k
    let r := f v
    let nf := ((outs.zip r.1).any fun x => !intFmt (dFmt x.1) && notFinite x.2) && !notFinite (v.getD grad 0)
    (acc.1 ++ (outs.zip r.1).map (fun x => elemWrite x.1 k (storeOut x.1 x.2)), (outs.zip r.1).foldl (fun a x => a ||| storeFlags x.1 x.2) (acc.2.1 ||| r.2),
      acc.2.2 + b2n nf)) ([], 0, 0)

/-! ### One granule -/

/-- What a granule comes to: done, held back, or the end of the instruction at its progress point. -/
inductive Gran where
  | go (s : State)
  | hold (s : State)
  | stop (st : Nat) (s : State)

/-- A checked read of a granule's inputs: poison in a coded unit holds the granule for its repair (spec/07 R211), anything else uncorrectable ends it (R319, R417). -/
def granRead (p : Nat) (l : Long) (xs : List (Nat × Nat)) (s : State) (k : State → Gran) : Gran :=
  let (t, bad) := touchAll xs s
  if !bad then k t
  else
    let ls := (xs.flatMap fun x => badLines x.1 x.2 s).eraseDups
    let pending (u : State) : Bool := ls.any fun a => u.aud.repairs.any fun y => y.lines.contains a
    if l.note = 2 && !pending t then .stop stCheckFail t
    else
      let t := ls.foldl (fun s a => repairLine a s) t
      if pending t then .hold (modPart p (fun x => { x with long := x.long.map fun l => { l with note := 2 } }) t)
      else .stop stCheckFail t

/-- A granule that may not write now waits: a STEP instruction that lacks only payload space stands for it, any other write is held (R108 to R110). -/
def granHeld (p : Nat) (l : Long) (ws : Writes) (s : State) : State :=
  if l.cls = 4 && l.step && !writesHeld ws s then markStall p s else markHold p s

/-- Makes the writes of a granule on walk elements [e, e'), whose outputs lie at the places given, or holds it while a coded unit may not be written; the units that the walk leaves take their deltas along (R127, R129, spec/04 R108 to R110). A write into T2 or T3 ends the instruction once a partition is bound (spec/11 R318; DESIGN CHOICE, log 199). -/
def granWrite (p : Nat) (l : Long) (ins outs : List Desc) (place : Nat → Nat) (e e' : Nat) (ws : Writes) (s : State) : Gran :=
  if anyBound s && ws.any (fun w => !w.2.isEmpty && decide (2 ≤ tierOf w.1)) then .stop stBad s
  else if writesBlocked ws (lockFree p s) then .hold (granHeld p l ws s)
  else
    let (s, inside) := (walkParts s outs l.extent place e e' ws).foldl (walkPart l ins outs place) (s, l.inside)
    .go (unmark p (modPart p (fun x => { x with long := x.long.map fun l => { l with inside := inside } }) s))

/-- Sets the running count of a long instruction. -/
def setResult (p n : Nat) (s : State) : State := modPart p (fun x => { x with long := x.long.map fun l => { l with result := n } }) s

/-- The step record takes a STEP instruction at its first granule, so that those of several partitions stand in the order in which they start; the spec gives no order among partitions (R136; DESIGN CHOICE, log 167). -/
def recordStep (p : Nat) (l : Long) (s : State) : State :=
  if l.cls = 4 ∧ l.step ∧ l.ins = 0 then
    let x := partOf s p
    let ins := longIns x l
    let outs := longOuts x l
    let ms := longMasks x l.cls l.op ins outs
    let s := { s with upd := { s.upd with stepRec := s.upd.stepRec ++
      [{ cls := l.cls, op := l.op, hyper := l.hyper, micro := l.micro, ins := ins.map descWords, outs := outs.map descWords
         masks := ms.map descWords }] } }
    modPart p (fun x => { x with long := x.long.map fun l => { l with ins := s.upd.stepRec.length } }) s
  else s

/-- One page keeper operation of a PAGE instruction: its status (R291, R339, R341). -/
def pageOp (p pop n : Nat) (s : State) : State × Nat :=
  match pageLoc s n with
  | none => (s, stBad)
  | some (_, r, _) =>
    if r.owner != p then (s, stBad)
    else match pop with
      | 0 => (pageSealAsk n s, stOk)
      | 1 => pageRetain n s
      | _ => (pageRelease n s, stOk)

/-- Page operations in order, up to the first that does not answer OK. -/
def pageOps (p pop : Nat) : List Nat → State → State × Nat
  | [], s => (s, stOk)
  | n :: ns, s => match pageOp p pop n s with
    | (s, 0) => pageOps p pop ns s
    | r => r

/-- Class 2 (Table 10.3). Each granule of an EXPAND in place reads its source elements as the granules before it left them (R141; DESIGN CHOICE, log 187). -/
def moveGran (p : Nat) (l : Long) (ins outs ms : List Desc) (e n : Nat) (s : State) : Gran :=
  let i := ins.headD {}
  let o := outs.headD {}
  let y := sec2Of l.x2
  let w (ws : Writes) (s : State) : Gran := granWrite p l ins outs id e (e + n) ws s
  let reads := maskExtents ms e n ++ (if l.op = 4 then [] else granExtents i e n)
  match l.op with
  | 0x00 => granRead p l reads s fun s => w (moveOut ms i o e n s) s
  | 0x01 => granRead p l reads s fun s => w (convertOut ms i o e n s) s
  | 0x02 =>
    let v := (gReg (partOf s p) y.vreg.val).toNat
    w (((span e n).filter (active s ms)).map fun k => elemWrite o k v) s
  | 0x03 => granRead p l reads s fun s =>
      let (ws, c) := compressOut ms i o e n l.result s
      match granWrite p l ins outs (packedPlace s ms l.result e) e (e + n) ws s with
      | .go u => .go (setResult p c u)
      | g => g
  | 0x04 =>
      let ones := ((span e n).filter (active s ms)).length
      let c := min l.result (dCount i)
      granRead p l (reads ++ granExtents i c (min (l.result + ones) (dCount i) - c)) s fun s =>
      let (ws, c) := expandOut y.xfill ms i o e n l.result s
      match granWrite p l ins outs id e (e + n) ws s with
      | .go u => .go (setResult p c u)
      | g => g
  | 0x08 => granRead p l reads s fun s => w (publishOut y.entry.val ms i e n s) s
  | _ => granRead p l reads s fun s =>
      let pages := ((span e n).filter (active s ms)).map fun k => readElem s i k
      if pages.any s.page.seals.contains then .hold s
      else match pageOps p y.pop.val pages s with
      | (s, 0) => .go s
      | (s, st) => .stop st s

/-- Paired mode: whether the two lanes of a pair differ on this granule, and then the lanes of the second pair, is free (R143, R144; DESIGN CHOICE, log 28). True when both differ: FAIL and the partition event. -/
def pairCheck (p : Nat) (paired : Bool) (s : State) : State × Bool :=
  if !paired then (s, false)
  else
    let (w, s) := freeWord s
    if !bit 0 w then (s, false)
    else if !bit 1 w then ({ s with upd := { s.upd with pairedCnt := bump 32 16 s.upd.pairedCnt } }, false)
    else (partCause p 2 { s with upd := { s.upd with pairedCnt := bump 16 16 s.upd.pairedCnt } }, true)

/-- Classes 3 and 4 (R293, R294). The gradient whose finiteness UPD_NF looks at is that of Table 5.3; of a microprogram step it is in3, and one with fewer inputs counts every non-finite output (R135; DESIGN CHOICE, log 168). A MAP has no hyper-operand block, and what its h operands read is free (R138; DESIGN CHOICE, log 186). -/
def laneGran (p : Nat) (l : Long) (ins outs ms : List Desc) (e n : Nat) (s : State) : Gran :=
  let y := sec34Of l.x2
  let x := partOf s p
  granRead p l (maskExtents ms e n ++ ins.flatMap fun d => granExtents d e n) s fun s =>
    let (ws, fl, nf) :=
      if l.cls = 3 then
        if l.op = 0 then
          let r := ewOut y.lop.val y.rm.val (laneTyOf y.type.val) ms ins (outs.headD {}) e n s
          (r.1, r.2, 0)
        else
          let r := streamsOut (fun v => microOut ((microCode x y.mprog.val).map (BitVec.ofNat 64)) ((List.range 16).map Config.mapHyper) v outs.length) 0 ms ins outs e n s
          (r.1, r.2.1, 0)
      else streamsOut (fun v => stepOut l v outs.length) (if l.op = 3 then 3 else ins.length - 1) ms ins outs e n s
    let (s, differ) := if writesBlocked ws (lockFree p s) then (s, false) else pairCheck p l.paired s
    if differ then .stop stCheckFail s
    else match granWrite p l ins outs id e (e + n) ws s with
    | .go t => .go (addFlags p fl { t with upd := { t.upd with nonfiniteCnt := bumpBy 0 32 nf t.upd.nonfiniteCnt } })
    | g => g

/-- An element of an MX block of which only some are active, under CODE.DELTA: the codes are combined under the scale that stands, and a masked element is unchanged (R297; DESIGN CHOICE, log 54). -/
def mxDelta (s : State) (ms : List Desc) (i o : Desc) (e : Nat) : MxEl :=
  if !active s ms e then .keep
  else match mxTake s i e, mxTake s o e with
    | .code _ a, .code k b => .code k (a ^^^ b)
    | _, _ => .keep

/-- CODE.DELTA on elements [e, e + n) (R297). -/
def deltaGran (p : Nat) (l : Long) (ins outs ms : List Desc) (e n : Nat) (s : State) : Gran :=
  let i := ins.headD {}
  let o := outs.headD {}
  granRead p l (maskExtents ms e n ++ granExtents i e n ++ granExtents o e n) s fun s =>
    let ws : Writes :=
      if fmtMx (dFmt o) then
        (List.range (n / 32)).flatMap fun k =>
          let acts := (span (e + 32 * k) 32).map (active s ms)
          let b := elemAddr o (e + 32 * k)
          if acts.all id then [(b, List.zipWith (· ^^^ ·) (memBytes b (atomBytes o) s) (memBytes (elemAddr i (e + 32 * k)) (atomBytes i) s))]
          else mxPut (dFmt o) b ((span (e + 32 * k) 32).map (mxDelta s ms i o)) s
      else ((span e n).filter (active s ms)).map fun k => elemWrite o k (readElem s o k ^^^ readElem s i k)
    granWrite p l ins outs id e (e + n) ws s

/-- CODE.FRESH on own unit u, behind the units hosted here of lower stripes (R88); the empty contributions of the zero units and the other hosted units follow the last (R298, R65). -/
def freshGran (l : Long) (u : Nat) (s : State) : Gran :=
  let sl := (sec5Of l.x2).gslot.val
  let g := grpOf s sl
  let s := if l.total = 0 then s else
    let pl := dataPlace g g.self u
    let s := ((owedUnits s sl).filter fun x => decide (x.1 < pl.1) && !sweepFormed s sl x.1 x.2).foldl (fun s x => guardColumn sl x.1 x.2 s) s
    guardColumn sl pl.1 pl.2 s
  if u + 1 < l.total then .go s
  else
    let s := (owedUnits s sl).foldl (fun s x => if sweepFormed s sl x.1 x.2 then s else guardColumn sl x.1 x.2 s) s
    .go { s with ep := { s.ep with freshDone := sl :: s.ep.freshDone } }

/-- DECODE.UNIT on unit k of its range: the unit is asked for, and the granule is done when it has arrived (R301). -/
def decodeGran (p : Nat) (l : Long) (outs : List Desc) (k : Nat) (s : State) : Gran :=
  let y := sec5Of l.x2
  let g := grpOf s y.gslot.val
  let u := l.first + k
  let pl := dataPlace g y.pos.val u
  if l.note = 1 then .go (modPart p (fun x => { x with long := x.long.map fun l => { l with note := 0 } }) s)
  else if l.stop = stCheckFail then .stop stCheckFail s
  else if g.lost then .stop stGroupLost s
  else if s.aud.repairs.any fun r => r.part == some p then .hold s
  else if gStripes g ≤ pl.1 then .stop stCheckFail s
  else
    .hold (repairAsk { slot := y.gslot.val, stripe := pl.1, tkind := 0, index := pl.2, row := repairRow s y.gslot.val pl.1 pl.2
                       addr := (elemAddr (outs.headD {}) 0) + 4096 * k, lines := [], part := some p } s)

/-- The next granule of a long instruction. -/
def granule (p : Nat) (l : Long) (s : State) : Gran :=
  let x := partOf s p
  let ins := longIns x l
  let outs := longOuts x l
  let ms := longMasks x l.cls l.op ins outs
  let w := longWalk s p l.cls l.op l.x2 ins outs
  let (e, n) := granSpan s l.cls l.op ms w l.count
  match l.cls with
  | 2 => moveGran p l ins outs ms e n s
  | 3 => laneGran p l ins outs ms e n s
  | 4 => laneGran p l ins outs ms e n s
  | _ => match l.op with
    | 0x00 => deltaGran p l ins outs ms e n s
    | 0x01 => freshGran l l.count s
    | _ => decodeGran p l outs l.count s

/-- A long instruction whose last granule has ended (R140, R141, R334). -/
def longDone (p : Nat) (l : Long) (s : State) : State :=
  let x := partOf s p
  let v : Word := BitVec.ofNat 64 l.result
  let o := (longOuts x l).headD {}
  let i := (longIns x l).headD {}
  let res (n : Nat) (s : State) : State := setResult p n s
  let fin (st n : Nat) (s : State) : State := longEnd p { l with result := n } st false (res n s)
  if l.cls = 2 ∧ l.op = 3 then
    fin (if dCount o < l.result then stNoRoom else stOk) l.result (setG p (sec2Of l.x2).vreg.val v s)
  else if l.cls = 2 ∧ l.op = 4 then fin (if dCount i < l.result then stNoRoom else stOk) 0 s
  else if l.cls = 2 ∧ l.op = 8 then fin stOk 0 (publishDone (sec2Of l.x2).entry.val s)
  else if l.cls = 4 ∧ l.step then fin stOk 0 { s with cod := { s.cod with walked := l.ins :: s.cod.walked } }
  else fin stOk 0 s

/-- A long instruction that stops after its present count leaves the units that it has entered, so that every delta written so far is formed (R263). -/
def leaveAll (p : Nat) (l : Long) (s : State) : State :=
  let x := partOf s p
  let ins := longIns x l
  let outs := longOuts x l
  let w := longWalk s p l.cls l.op l.x2 ins outs
  let e := (granSpan s l.cls l.op (longMasks x l.cls l.op ins outs) w l.count).1
  let us := unitsAt s outs l.extent (fun k => if l.cls = 2 ∧ l.op = 3 then l.result else k) e
  modPart p (fun x => { x with long := x.long.map fun l => { l with inside := [] } })
    (leaveUnits l outs (us.filter fun t => l.inside.contains (keyOf t)) s)

/-- A stop that was asked for takes effect at a granule boundary (R263, R272). -/
def longStopNow (p : Nat) (l : Long) (s : State) : State :=
  let s := leaveAll p l s
  if l.stop = stAborted then finishReset p s
  else
    let s := longStop p l.stop s
    if l.swap then swapBanks p s else s

/-- An event is taken where one may be: a running long instruction stops at its boundary with its deltas formed, and the handler starts (R263, R270). -/
def takeEvent (p : Nat) (s : State) : State :=
  let x := partOf s p
  if !canTake x then s
  else
    let e := match x.image with
      | some m => (entryOf m 2).getD 0
      | none => 0
    let l := x.long.filter fun l => !l.unstarted
    let s := unlockNext p (match l with
      | some l => leaveAll p l (leaveIdle s)
      | none => leaveIdle s)
    (if x.seq == .dispatch then noteCommand p else id) <| modPart p (fun x => { x with
      eret := x.pc, eretDispatch := x.seq == .dispatch, eres := l.isSome, eie := false, inH := true, seq := .handler
      pc := e, wait := none, susp := l, long := none
      progress := { x.progress with susp := l.isSome } }) s

/-- A granule ends: progress is recorded, and the instruction completes, stops or goes on (R263, R264, R272). One that waits for the interlock, or has no engine, does not end (R129, R146, spec/12 R348, R351). -/
def granuleEndOp (p : Nat) (s : State) : State :=
  match (partOf s p).long with
  | none => s
  | some l0 =>
    if l0.unstarted || (partOf s p).seq != .long || !coreUp s then s
    else
      let s := engineStarts false (lockNext p (recordStep p l0 s))
      let l := ((partOf s p).long).getD l0
      let ended (t : State) : State := if l.swap then swapBanks p t else t
      let asked (t : State) : State := if l.stop ≠ 0 ∧ l.stop ≠ stCheckFail then unlockNext p (longStopNow p l t) else t
      if l.count ≥ l.total && !(l.cls == 5 && l.op == 1) then unlockNext p (ended (longDone p l s))
      else if !granuleStarted s p l || s.upd.lockWait.contains p || ((l.cls == 3 || l.cls == 4) && coreMaskOf s p == 0) then asked s
      else match granule p l s with
        | .hold t => asked t
        | .stop st t => unlockNext p (ended (longStop p st (leaveAll p l t)))
        | .go t =>
          let k := l.count + 1
          let t := modPart p (fun x => { x with
            long := x.long.map fun l => { l with count := k, note := 0 }
            progress := { x.progress with valid := true, susp := false, cls := l.cls, op := l.op, count := k, key := l.key } }) t
          let l' := ((partOf t p).long).getD l
          if l.total ≤ k then unlockNext p (ended (longDone p l' t))
          else if l'.stop ≠ 0 then unlockNext p (longStopNow p l' t)
          else lockNext p (unlockNext p t)

/-! ### PFARM (R291, R320, R321) -/

/-- One entry of a schedule as 32 bytes spell it, with its reserved bits clear. -/
def pfEntryOf (bs : List Byte) : PfEntry × Bool :=
  let v := ofBytes bs
  ({ src := BitVec.ofNat 64 (bitsOf 0 64 v), dst := BitVec.ofNat 64 (bitsOf 64 64 v), size := bitsOf 128 32 v
     layer := bitsOf 160 16 v, lead := bitsOf 176 16 v, tally := bitsOf 192 14 v }, bitsOf 206 50 v == 0)

/-- PFARM: the schedule that SA holds is checked and armed, and a layer 0 of which the clock is already reached counts as late (R321 to R323). -/
def pfarmOp (p : Nat) (f : FmtT) (s : State) : State :=
  flushGate p 2 f (fun s =>
  let x := partOf s p
  let d := dReg x f.sa.val
  let fin (st : Nat) (s : State) : State := endAtIssue p 2 f st s
  if !descOk d false || dFmt d != 0 || !dDense d || decide (dCount d < 64) || !tenOk s p f || engineRefused s p [6] then refuse p 2 false s
  else if !inWindow s p (descExtent d).1 (descExtent d).2 then refuse p 2 true s
  else if !padFree s d.w0.toNat then stall p s
  else
    let (s, bad, u) := memFetch d.w0.toNat (dCount d) s
    let h := ofBytes (denseU 32 0 u)
    let n := bitsOf 0 16 h
    let layers := bitsOf 16 16 h
    let clock := bitsOf 32 14 h
    let es := (List.range n).map fun i => pfEntryOf (denseU 32 (32 + 32 * i) u)
    let ok := bitsOf 46 2 h == 0 && bitsOf 80 176 h == 0 && decide (1 ≤ n ∧ n ≤ 4096) && decide (32 + 32 * n ≤ dCount d) &&
      decide (1 ≤ layers) && tallyMine s p clock && es.all fun y =>
        let e := y.1
        y.2 && decide (64 ≤ e.size) && e.size % 64 == 0 && e.src.toNat % 64 == 0 && e.dst.toNat % 64 == 0 &&
        decide (e.layer < layers) && decide (e.lead ≤ layers) && tallyMine s p e.tally &&
        !(anyBound s && decide (2 ≤ tierOf e.dst.toNat)) && !touchesCoded s e.dst.toNat e.size
    if bad then fin stCheckFail (repairRange d.w0.toNat (dCount d) s)
    else if !ok then refuse p 2 false s
    else if !(es.all fun y => inWindow s p y.1.src.toNat y.1.size && inWindow s p y.1.dst.toNat y.1.size) then refuse p 2 true s
    else if x.pf.armed then fin stNoRoom s
    else
      fin stOk (pfRefresh (lateCheck clock p (modPart p (fun x => { x with pf :=
        { armed := true, fault := x.pf.fault, stopping := false, layers := layers, clock := clock, passes := bitsOf 48 32 h
          base := (tallyOf s clock).count, entries := es.map (·.1) } }) s)))) s

end Sys2Proof.Machine
end

