-- ==== Sys2Proof/Machine/OpenOps.lean ====
section
/-! DEFINITION. Open instructions and remote operations at issue (spec/09 R267, R268): AUDIT and REBUILD (spec/10 R299, R300), collectives (R302, R303, spec/06 R160 to R168), fabric operations (R304, spec/08 R239 to R242), and the instruction that an INSTR command carries (spec/09 R254). -/

namespace Sys2Proof.Machine

/-- An open instruction completes FLUSHED while a flush is under way; one that names a busy slot waits for that slot's outcome (R267, spec/13 R380). -/
def slotGate (p cls : Nat) (f : FmtT) (k : State → State) (s : State) : State :=
  flushGate p cls f (fun s => if (slotOf (partOf s p) f.slot.val).busy then modPart p (fun x => { x with wait := some (.slotFree f.slot.val), seq := .wait }) s
  else k s) s

/-- An open instruction is accepted: ST takes OK, its slot is busy, and the program goes on; an INSTR waits for the outcome (R267, R254). -/
def openTake (p cls : Nat) (f : FmtT) (o : OpenOp) (s : State) : State :=
  let x := partOf s p
  let s := modPart p (fun x => { x with ops := x.ops ++ [{ o with cur := if isInstr x then x.cur else none }], retry := none }) s
  let s := modSlot p f.slot.val (fun y => { y with busy := true }) s
  if isInstr x then setSt p stOk s else instrEnd p cls stOk 0 s

/-! ### AUDIT and REBUILD -/

/-- Key of an AUDIT instruction in the audit engine. -/
def auditKey (p slot : Nat) : Nat := p * 32 + slot

/-- Starts the trains of a stripe for an AUDIT instruction: every row's first column begins (R299; DESIGN CHOICE, log 47). -/
def auditStripe (sl st : Nat) (s : State) : State :=
  (rowsOf s sl).foldl (fun s t =>
    if auditFirst s sl st t then auditBegin sl st t s
    else match (routeCols (grpOf s sl) t).head? with
      | some c => sendAudit (columnRank s sl st c) (auditMsg s sl st t 2 (squeeze 0 []) 0) s
      | none => s) s

/-- Stripes of AUDIT instructions that wait for the pause to end are started (R299, R208); kind 2 waits, 0 is under way, 1 is bad. -/
def auditGo (s : State) : State :=
  if auditPaused s || !codingOn s then s
  else
    let js := s.aud.jobs.filter fun j => j.2.2.2 == 2
    let s := { s with aud := { s.aud with jobs := s.aud.jobs.map fun j => if j.2.2.2 = 2 then (j.1, j.2.1, j.2.2.1, 0) else j } }
    js.foldl (fun s j => auditStripe j.2.1 j.2.2.1 s) s

/-- AUDIT instructions whose stripes are all decided reach their outcome (R299). -/
def auditsEnd (s : State) : State :=
  s.part.foldl (fun s x =>
    (x.2.ops.filter fun o => o.kind == .audit).foldl (fun s o =>
      let k := auditKey x.1 (o.slot.getD 0)
      if s.aud.jobs.any fun j => j.1 == k && j.2.2.2 != 1 then s
      else
        let bad := s.aud.jobs.any fun j => j.1 == k
        slotOutcome x.1 o (if bad then stCheckFail else stOk) 0
          (dropOp x.1 o { s with aud := { s.aud with jobs := s.aud.jobs.filter fun j => j.1 != k } })) s) s

/-- AUDIT (R299). -/
def auditIssue (p : Nat) (f : FmtT) (y : Sec5) (s : State) : State :=
  slotGate p 5 f (fun s =>
    let x := partOf s p
    let sl := y.gslot.val
    let g := grpOf s sl
    let a := (gReg x y.freg.val).toNat
    let n := (gReg x y.nreg.val).toNat
    if !x.bound || !g.en || !codingOn s || !tenOk s p f || engineRefused s p [3] then refuse p 5 false s
    else
      let sts := (List.range (gStripes g)).filter fun st => decide (a ≤ st ∧ st < a + n) && (parityAt s sl st 0).isSome
      let k := auditKey p f.slot.val
      let s := openTake p 5 f { kind := .audit, slot := some f.slot.val, ten := tenOf f } s
      auditsEnd (auditGo { s with aud := { s.aud with jobs := s.aud.jobs ++ sts.map fun st => (k, sl, st, 2) } })) s

/-- Pending or running rebuilds that concern a group of this block (R300). -/
def runHere (s : State) (r : Rebuild) : Bool := !r.closed && r.slots.any fun x => (grpOf s x.1).en

/-- REBUILD (R300, R190). -/
def rebuildIssue (p : Nat) (f : FmtT) (s : State) : State :=
  slotGate p 5 f (fun s =>
    let rs := s.reb.runs.filter (runHere s)
    if !(partOf s p).bound || rs.isEmpty || !tenOk s p f || engineRefused s p [3] then refuse p 5 false s
    else
      let s := openTake p 5 f { kind := .rebuild (rs.map (·.failed)), slot := some f.slot.val, ten := tenOf f } s
      if isStepPart s p then rs.foldl (fun s r => sendReady r.failed (putRun { r with joined := true } s)) s else s) s

/-! ### Collectives -/

/-- Whether a descriptor lies in the binary32 gradient shard region: an EXACT region of a FRESH slot with FRESH set (R167, spec/02 R39). -/
def shardRegion (s : State) (d : Desc) : Bool :=
  dFmt d == 1 && match regionAt s (descExtent d).1 with
    | some (_, r) => r.fresh && r.format == 1 && decide ((descExtent d).1 + (descExtent d).2 ≤ regionAddr r + 4096 * r.units)
    | none => false

/-- The epoch rule of R55 and R163 for a collective: the status that ends it at issue, if any. -/
def collEpoch (s : State) (e : Nat) : Option Nat :=
  if s.ep.limit then some stStale
  else if s.ep.phase = 0 then some stBad
  else if e = s.ep.epoch then (if s.ep.landedRep then some stStale else none)
  else if e = s.ep.epoch + 1 then none
  else some stStale

/-- The operand rules of a collective on this member (R149, R160, R165, R302). -/
def collOk (s : State) (p op : Nat) (f : FmtT) (y : Sec6) (ins : List Desc) (o : Desc) (members : List Nat) : Bool :=
  let red := op == 0 || op == 2
  let i0 := ins.headD o
  (ins.all fun d => descOk d false) && descOk o (anyBound s) && outStrides o && overlapsOk ins [o] && tenOk s p f &&
  (if red then (ins.all gradFmt) && gradFmt o && ins.all fun d => dCount d == dCount i0
    else dFmt i0 == dFmt o) &&
  members.contains (servedRank s) && (op != 3 || decide (y.root.val < members.length)) &&
  (!f.step || (isStepPart s p && shardRegion s o))

/-- Engine classes of a collective: the collective engine, with the exact reduce unit where it reduces in EXACT, the update cores where in ORDERED (spec/06 R159, spec/12 Table 12.2). -/
def collEngines (op : Nat) (ordered : Bool) : List Nat := if op = 0 ∨ op = 2 then (if ordered then [0, 5] else [4, 5]) else [5]

/-- The mode of a collective: the one it names, and STEP_MODE for the step reduce (R148). -/
def collOrdered (s : State) (f : FmtT) (y : Sec6) : Bool := if f.step then bit 0 s.upd.reduceMode.now else y.mode

/-- A collective is issued on this member (R148, R161 to R163, R302, R303). A member of a broadcast other than the root supplies no input, and has the root's N (DESIGN CHOICE, log 157); with UNEVEN the root counts N and every other member 0 (R168; DESIGN CHOICE, log 173). The mode of the step reduce is that in force at issue (R148; DESIGN CHOICE, log 169). -/
def collIssue (p op : Nat) (f : FmtT) (y : Sec6) (s : State) : State :=
  slotGate p 6 f (fun s =>
    let x := partOf s p
    let members := memberSet s y.axes.val
    let me := (members.findIdx? (· == servedRank s)).getD 0
    let ins := if op = 3 ∧ me ≠ y.root.val then [] else ([f.sa.val, f.sb.val, f.sc.val, y.in3.val].take (y.nin.val + 1)).map (dReg x)
    let o := dReg x f.dst.val
    let i0 := ins.headD o
    let e := fld 0 32 (gReg x y.ereg.val)
    let gate := collEpoch s e
    let ordered := collOrdered s f y
    if gate = some stStale then endAtIssue p 6 f stStale s
    else if !x.bound || x.tag != s.job.tag || gate.isSome || !collOk s p op f y ins o members || engineRefused s p (collEngines op ordered) then refuse p 6 false s
    else if !((o :: ins).all fun d => inWindow s p (descExtent d).1 (descExtent d).2) then refuse p 6 true s
    else if !((o :: ins).all fun d => padFree s d.w0.toNat) then stall p s
    else
      let k := p * 16 + y.axes.val
      let q := SMap.look 0 s.coll.seq k
      let c : Coll :=
        { part := p, axes := y.axes.val, seq := q, op := op, ordered := ordered, uneven := y.uneven, step := f.step
          format := dFmt i0, outFormat := dFmt o, elems := if op = 1 then dCount o else if op = 3 ∧ me ≠ y.root.val then Config.rootElems (members.getD y.root.val 0) p y.axes.val q else dCount i0
          count := if op = 1 then dCount i0 else if op = 3 then (if me = y.root.val then dCount i0 else 0) else dCount o
          epoch := e, root := y.root.val, slot := f.slot.val, ten := tenOf f, members := members, me := me
          ins := ins.map descWords, outd := descWords o }
      let s := openTake p 6 f { kind := .coll y.axes.val q, slot := some f.slot.val, ten := tenOf f } s
      startWaiting { s with coll := { s.coll with
        openC := s.coll.openC ++ [c], seq := SMap.put s.coll.seq k ((q + 1) % 2 ^ 32) } }) s

/-! ### Fabric operations -/

/-- Whether a descriptor is dense and holds n bytes or more. -/
def denseHolds (d : Desc) (n : Nat) : Bool :=
  dDense d && decide (n ≤ dCount d / atomElems d * atomBytes d)

/-- An instruction of class 7 that its rules refuse: BAD_COMMAND, unless its rank is not mapped or its first port not ready, which R15 reports before it. -/
def fabricRefuse (p : Nat) (f : FmtT) (rank : Nat) (breach : Bool) (s : State) : State :=
  let probe : MemMsg := { op := 0, spart := Fin.ofNat 16 p, opseq := 0, coef := 0, addr := 0, size := 8, rstat := 0, data := [] }
  match (sendMem p rank probe s).2 with
  | 0 => refuse p 7 breach s
  | st => endAtIssue p 7 f st (if breach then violate 0 s else s)

/-- A remote load or an atomic: it waits for its response (R268, R304). An RLOAD of more than 8 bytes whose DST describes no element ends OK with no effect (R258). -/
def remoteIssue (p op : Nat) (f : FmtT) (y : Sec7) (s : State) : State :=
  let x := partOf s p
  let rank := (gReg x y.rkreg.val).toNat
  let n := if op = 0 then y.size.val else 8
  let d := dReg x f.dst.val
  let wide := op == 0 && decide (8 < n)
  let data : List Byte := if op = 0 then []
    else if op = 5 then toBytes 8 (gReg x y.dreg.val).toNat ++ toBytes 8 (gReg x ((y.dreg.val + 1) % 32)).toNat
    else toBytes (memReqData op n) (gReg x y.dreg.val).toNat
  if !x.bound || !tenOk s p f || !fabricWordOk op f (sec7Word y) || (wide && !(descOk d (anyBound s) && (dCount d == 0 || denseHolds d n) && decide (tierOf d.w0.toNat < 2))) then fabricRefuse p f rank false s
  else if wide && dCount d != 0 && !inWindow s p d.w0.toNat n then fabricRefuse p f rank true s
  else if wide && dCount d == 0 then endAtIssue p 7 f stOk s
  else if (wide && !padFree s d.w0.toNat) || decide (Config.maxUnanswered ≤ unanswered s p rank) then stall p s
  else
    let q := SMap.look 0 x.opseq rank
    let m : MemMsg := { op := op, spart := Fin.ofNat 16 p, opseq := q, coef := 0, addr := gReg x y.adreg.val, size := n, rstat := 0, data := data }
    match sendMem p rank m s with
    | (s, 0) =>
      modPart p (fun x => { x with
        opseq := SMap.put x.opseq rank ((q + 1) % 65536), wait := some .remote, seq := .wait, retry := none
        ops := x.ops ++ [{ kind := .remote rank q (some y.vreg.val) (if wide then some d.w0 else none) n, slot := none, ten := tenOf f, msg := some m }] }) s
    | (s, st) => endAtIssue p 7 f st s

/-- RSTORE, RGFMAC or RTADD (R304). -/
def storeIssue (p op : Nat) (f : FmtT) (y : Sec7) (s : State) : State :=
  slotGate p 7 f (fun s =>
    let x := partOf s p
    let rank := (gReg x y.rkreg.val).toNat
    let d := dReg x f.sa.val
    let n := if op = 12 then 8 else y.size.val
    if !x.bound || !tenOk s p f || !fabricWordOk op f (sec7Word y) || (op != 12 && !(descOk d false && denseHolds d n)) then fabricRefuse p f rank false s
    else if op != 12 && !inWindow s p d.w0.toNat n then fabricRefuse p f rank true s
    else if (op != 12 && !padFree s d.w0.toNat) || decide (Config.maxUnanswered ≤ unanswered s p rank) then stall p s
    else
      let (s, bad, u) := if op = 12 then (s, false, []) else memFetch d.w0.toNat n s
      if bad then endAtIssue p 7 f stCheckFail (repairRange d.w0.toNat n s)
      else
        let q := SMap.look 0 x.opseq rank
        let m : MemMsg :=
          { op := op, spart := Fin.ofNat 16 p, opseq := q, coef := if op = 11 then y.coef else 0, addr := gReg x y.adreg.val, size := n, rstat := 0
            data := if op = 12 then toBytes 4 (gReg x y.dreg.val).toNat else denseU n 0 u }
        match sendMem p rank m s with
        | (s, 0) =>
          openTake p 7 f { kind := .remote rank q none none n, slot := some f.slot.val, ten := tenOf f, msg := some { m with data := [] } }
            (modPart p (fun x => { x with opseq := SMap.put x.opseq rank ((q + 1) % 65536) }) s)
        | (s, st) => endAtIssue p 7 f st s) s

/-- COPY (R242, R304). -/
def copyIssue (p : Nat) (f : FmtT) (y : Sec7) (s : State) : State :=
  slotGate p 7 f (fun s =>
    let x := partOf s p
    let rank := (gReg x y.rkreg.val).toNat
    let d := dReg x f.sa.val
    let n := dCount d / atomElems d * atomBytes d
    if !x.bound || !tenOk s p f || !fabricWordOk 13 f (sec7Word y) || !descOk d false || !dDense d || decide (2 ≤ tierOf d.w0.toNat) then fabricRefuse p f rank false s
    else if !inWindow s p d.w0.toNat n then fabricRefuse p f rank true s
    else if (translate s rank).isNone then endAtIssue p 7 f stUnmapped s
    else if !padFree s d.w0.toNat then stall p s
    else
      let o : OpenOp :=
        { kind := .copy rank x.copyId d.w0 n (gReg x y.adreg.val) y.rtally.val y.arrive, slot := some f.slot.val, ten := tenOf f }
      let s := openTake p 7 f o (modPart p (fun x => { x with copyId := (x.copyId + 1) % 65536 }) s)
      let (s, st) := sendCopy p o (cdiv n 4096) s
      match findCopy s p rank x.copyId with
      | some o' => if st ≠ stOk ∨ n = 0 then slotOutcome p o' st 0 (dropOp p o' s) else s
      | none => s) s

/-- The operations of class 7 (Table 10.10). -/
def fabricOp (p op : Nat) (f : FmtT) (y : Sec7) (s : State) : State :=
  match op with
  | 0x01 => storeIssue p 1 f y s
  | 0x0B => storeIssue p 11 f y s
  | 0x0C => storeIssue p 12 f y s
  | 0x0D => copyIssue p f y s
  | _ => remoteIssue p op f y s

/-! ### The instruction of an INSTR command (R254) -/

def insnOp (p : Nat) (w1 w2 : Word) (s : State) : State :=
  let op := wOp w1
  let f := fmtTOf w1
  match wCls w1 with
  | 2 => if op = 9 then pfarmOp p f s else longIssue p 2 op f w2 false s
  | 3 => longIssue p 3 op f w2 false s
  | 4 => longIssue p 4 op f w2 false s
  | 5 => match op with
    | 0x02 => auditIssue p f (sec5Of w2) s
    | 0x03 => rebuildIssue p f s
    | _ => longIssue p 5 op f w2 false s
  | 6 => collIssue p op f (sec6Of w2) s
  | 7 => fabricOp p op f (sec7Of w2) s
  | 8 => tallyOp p op (fmtROf w1) s
  | _ => voteOp p op (fmtROf w1) s

/-- NIN of the microprograms of the active image. -/
def ninAt (x : PartSt) (n : Nat) : Option Nat := (microHead x n).map mNin

/-- Runs the carried instruction of the current INSTR command (R254). -/
def instrRun (p : Nat) (w1 w2 : Word) (s : State) : State :=
  let c := wCls w1
  if !insnOk (ninAt (partOf s p)) w1 w2 then endCommand p stBad 0 (violate 2 s)
  else if c = 0 ∨ c = 1 ∨ c = 10 then endCommand p stBad 0 s
  else if pReg (partOf s p) (fmtROf w1).pred.val == (fmtROf w1).pneg then endCommand p stOk 0 s
  else insnOp p w1 w2 (modPart p (fun x => { x with seq := .run, retry := some (w1, w2) }) s)

/-- An instruction that stalled issues again: an INSTR at once, one of a program as its partition's next (R254, R267). -/
def retryPart (p : Nat) (s : State) : State :=
  let s := if (partOf s p).wait = some .stall then
      modPart p (fun x => { x with wait := none, seq := if x.inH then .handler else .run }) s
    else s
  let x := partOf s p
  match x.retry with
  | some (w1, w2) => if isInstr x && x.wait.isNone && x.long.isNone && !x.resetting then instrRun p w1 w2 s else s
  | none => s

def retryAll (s : State) : State := forAll (s.part.map (·.1)) retryPart s

end Sys2Proof.Machine
end

