-- ==== Sys2Proof/Machine/RollForward.lean ====
section
/-! DEFINITION. The end of a rebuild: rolling the failed member forward (spec/07 R199 to R201), derived and replicated regions (spec/02 Table 2.4), and the report of restoration (R203). -/

namespace Sys2Proof.Machine

/-- A dense descriptor of part k of a region, in parts of 2^31 elements, which SIZE can hold. -/
def regionDesc (r : Region) (k : Nat) : Desc :=
  let before := k * 2 ^ 31
  let d : Desc := { w1 := BitVec.ofNat 64 r.format }
  { d with
    w0 := BitVec.ofNat 64 (regionAddr r + before / atomElems d * atomBytes d)
    w2 := BitVec.ofNat 64 (min (2 ^ 31) (elemCount r.format r.units - before) + 2 ^ 32) }

/-- Regenerates a DERIVED region from its source, element by element (Table 2.4). -/
def regenerate (r : Region) (s : State) : State :=
  (List.range (cdiv (elemCount r.format r.units) (2 ^ 31))).foldl (fun s k =>
    let o := regionDesc r k
    (convertOut [] (regionDesc (regionNow s r.source) k) o 0 (dCount o) s).foldl (fun s w => memWrite w.1 w.2 s) s) s

def regenerateAll (pick : Region → Bool) (s : State) : State :=
  ((regionsInForce s).filter fun x => x.2.valid && x.2.cls == cDerived && pick x.2).foldl (fun s x => regenerate x.2 s) s

/-- The element values of a recorded step with the streams read from memory. -/
def entryLong (e : StepEntry) : Long :=
  { cls := e.cls, op := e.op, f := fmtTOf 0, x2 := 0, key := 0, total := 0, count := 0, extent := 0, step := true, unstarted := false
    micro := e.micro, hyper := e.hyper }

/-- Whether an output element lies in a coded unit that stands at the epoch before. -/
def behindAt (s : State) (r : Rebuild) (w : Nat × List Byte) : Bool :=
  (touchedUnits w.1 w.2.length s).any fun x => r.before.contains (x.sl, x.st, x.col)

/-- What one recorded STEP instruction, run again, writes into outputs that stand before (R199). -/
def rollWrites (r : Rebuild) (e : StepEntry) (s : State) : Writes :=
  let outs := e.outs.map descOf
  let x := streamsOut (fun v => stepOut (entryLong e) v outs.length) 0 (e.masks.map descOf) (e.ins.map descOf) outs 0 (dCount (outs.headD {})) s
  x.1.filter (behindAt s r)

/-- Runs one recorded STEP instruction again and sends the deltas of the outputs that stood before (R199). -/
def rollEntry (r : Rebuild) (e : StepEntry) (s : State) : State :=
  writeAll (fun u d s => formDirect u.sl u.st u.col (unitTerm u d) s) (rollWrites r e s) s

/-- The data units of the failed member that this block hosts. -/
def hostedData (r : Rebuild) (s : State) : List Hosted := s.reb.hosted.filter fun h => h.kind == 0 && r.slots.contains (h.slot, h.pos)

/-- The failed member's memory as a spread host sees it: its regions at its addresses, with the hosted units widened (R199, R206; DEDUCED, log 55). -/
def spreadView (r : Rebuild) (s : State) : State :=
  let v := r.slots.foldl (fun s x => modGrp x.1 (fun g => { g with self := x.2 }) s) { s with reg := { s.reg with table := memberTable r.failed } }
  (hostedData r s).foldl (fun v h => match failedLoc s h.slot h.pos h.stripe with
    | some (_, q, j) => memWriteImg (unitExtent q j).1 (unitExtent q j).2 (widenImage q.cls (memImg h.addr 4096 s)) v
    | none => v) v

/-- Runs one recorded STEP instruction again for the units that this block hosts: the changed ones are written, and their deltas sent (R199, R206). -/
def rollSpread (r : Rebuild) (e : StepEntry) (s : State) : State :=
  let v := spreadView r s
  let v' := (rollWrites r e v).foldl (fun v w => memWrite w.1 w.2 v) v
  (hostedData r s).foldl (fun s h => match failedLoc s h.slot h.pos h.stripe with
    | some (_, q, j) =>
      let d := xorU (contentOf v q j) (contentOf v' q j)
      if d.isEmpty then s
      else formDirect h.slot h.stripe h.index { raw := d, width := unitWidth q, narrow := q.cls == 2 || q.cls == 3 }
        (memWriteImg h.addr 4096 (contentOf v' q j) s)
    | none => s) s

/-- Units of the failed member that stand before and that no STEP instruction wrote: their sweep at the end of update forms an empty contribution (R199). -/
def rollSweep (r : Rebuild) (s : State) : State :=
  r.slots.foldl (fun s x =>
    if (grpOf s x.1).mode != 0 then s
    else (owedUnits s x.1).foldl (fun s u =>
      if !r.before.contains (x.1, u.1, u.2) then s
      else (rowsOf s x.1).foldl (fun s t =>
        let o := outFor s s.ep.epoch x.1 u.1 t u.2
        let (_, w, _) := colContent s x.1 u.1 u.2
        if o.last = 0 ∧ o.pend.isNone ∧ o.ready.isNone then formDirectRow x.1 u.1 u.2 { raw := [], width := w, narrow := false } t s else s) s) s) s

/-- Roll-forward of a run on its target, or on a host of a spread rebuild, from the step record of the lowest live member (R199; DESIGN CHOICE, log 69). -/
def rollRun (r : Rebuild) (s : State) : State :=
  let ready := writesRun s r && r.decided && !r.aborted && !r.rolled && !r.restored && (r.started || r.spread) && r.epoch == s.ep.epoch &&
    (unitsToWrite s r).all (fun u => r.doneU.contains u)
  if !ready then s
  else
    let s := putRun { r with rolled := true } s
    if s.ep.skip then s
    else
      let s := rollSweep r (r.steps.foldl (fun s e => if r.spread then rollSpread r e.2 s else rollEntry r e.2 s) s)
      if r.spread then s else { s with ep := { s.ep with updEnded := true } }

def rollForwardOp (s : State) : State := s.reb.runs.foldl (fun s r => rollRun r s) s

/-- Restoration of a run is complete on this block: it tells the spread home, or the wave issuer (R203). Whether a change was lost the target cannot tell, so STORE_LOST is free. In a spread rebuild the home sets PAGES_LOST: for a page that does not decode with its seal, and where it finds none as a free bit, since no block then holds a whole page and sees whether it is zero (R201; DESIGN CHOICE, log 46). -/
def restoreRun (r : Rebuild) (s : State) : State :=
  let home := plansRun s r
  let hosts := (survivors s r).filter fun m => m != selfRank s && m != runRank r
  if !writesRun s r || r.restored || !partDone s r || (home && r.spread && !hosts.all (fun m => r.hostsDone.contains m)) then s
  else
    let s := if r.spread then s else copyReplicas r (regenerateAll (fun _ => true) s)
    let s := if home && r.spread && (memberTable r.failed).any (fun x => x.2.cls == 6) then
        let (w, s) := freeWord s
        if pagesMixed s r || bit 0 w then { s with reb := { s.reb with stat := s.reb.stat ||| BitVec.ofNat 64 (2 ^ 29) } } else s
      else s
    let (w, s) := freeWord s
    let s := if bit 0 w then { s with reb := { s.reb with stat := s.reb.stat ||| BitVec.ofNat 64 (2 ^ 30) } } else s
    let s := if r.event = 0 then s else markFid (r.slots.map (·.1)) s
    let s := putRun { r with restored := true } s
    let s := if s.reb.runs.all (fun q => !writesRun s q || q.restored) then { s with reb := { s.reb with active := false } } else s
    sendTarra (if home then issuerRank s else runRank r)
      { tarraOf s 13 r.failed r.inc r.epoch with data := r.event, attempt := r.attempt } s

def restoreCompleteOp (s : State) : State := s.reb.runs.foldl (fun s r => restoreRun r s) s

end Sys2Proof.Machine
end

