-- ==== Sys2Proof/Machine/Export.lean ====
section
/-! DEFINITION. Exporting a consistent cut and restoring one: arming (spec/14 R390 to R394), the drain (R395 to R402), the manifest (R403), cancelling (R404), and RESTORE (R405 to R407). -/

namespace Sys2Proof.Machine

def roundUp4k (n : Nat) : Nat := cdiv n 4096 * 4096

/-! ### Tensor maps and shards -/

/-- A tensor map entry, and whether its reserved fields are 0 (Table 14.1). -/
def mapEntOf (bs : List Byte) : MapEnt × Bool :=
  let w (i n : Nat) := ofBytes ((bs.drop i).take n)
  ({ region := w 0 2 % 16384, tensor := w 4 4, first := w 8 8, elems := w 16 8 }, w 0 4 / 16384 == 0 && w 24 8 == 0)

/-- Reads a tensor map of n entries; none on a read error. -/
def readMap (a n : Nat) (s : State) : State × Option (List (MapEnt × Bool)) :=
  let (s, bad, u) := memFetch a (32 * n) s
  if bad then (s, none)
  else
    let bs := denseU (32 * n) 0 u
    (s, some ((List.range n).map fun k => mapEntOf ((bs.drop (32 * k)).take 32)))

def regionElems (r : Region) : Nat := elemCount r.format r.units

/-- Exported format of a region (Table 14.2). -/
def exportFmt (wide : Bool) (r : Region) : Nat :=
  if r.cls = 2 then (if wide then 1 else 2) else if r.cls = 3 then (if wide then 1 else 0x20) else r.format

/-- Bytes that n elements of an exported format take; a part of a block of an MX format counts whole (DESIGN CHOICE, log 56). -/
def exportLen (fmt n : Nat) : Nat :=
  if fmt = 0x20 then 3 * n else if fmtMx fmt then cdiv n 32 * fmtBlockBytes fmt else n * fmtWidth fmt

/-- Stored bytes that the elements of a map entry take in their region. -/
def storedLen (r : Region) (n : Nat) : Nat := exportLen r.format n

/-- Whether this block writes the shard of an entry: of a REPLICATED region the lowest rank of the replica set does (R394). -/
def writesShard (s : State) (m : MapEnt) : Bool :=
  let r := regionOf s m.region
  r.cls != 7 || ((memberRanks s (grpOf s r.group)).all fun q => decide (servedRank s ≤ q) ||
    (match SMap.find s.job.peers q with
      | some x => SMap.find x.replicas m.region != some r.units
      | none => true))

/-- Size of a shard's data and of its check table, padded (R402). -/
def shardSpace (wide : Bool) (r : Region) (n : Nat) : Nat × Nat :=
  let d := roundUp4k (exportLen (exportFmt wide r) n)
  (d, roundUp4k (4 * (d / 4096)))

def manifestLen (n : Nat) : Nat := 64 + 96 * n

/-- Bytes that an export takes in its area (R402). -/
def exportSpace (s : State) (wide : Bool) (ms : List MapEnt) : Nat :=
  let ms := ms.filter (writesShard s)
  roundUp4k (manifestLen ms.length) + (ms.map fun m =>
    let x := shardSpace wide (regionOf s m.region) m.elems
    x.1 + x.2).sum

/-- Whether an extent meets a region, the outbox or a bay. -/
def extentTaken (s : State) (a n : Nat) : Bool :=
  let hit (b k : Nat) := decide (b < a + n ∧ a < b + k)
  (s.reg.table.any fun x => x.2.valid && hit (regionAddr x.2) (4096 * x.2.units)) ||
  hit (logBase s.cod.outboxBase) (s.cod.outboxSize.toNat * 2 ^ 20) ||
  (s.pub.any fun x => x.2.valid && (hit x.2.bayA.toNat (bayBytes x.2.format x.2.elems) || hit x.2.bayB.toNat (bayBytes x.2.format x.2.elems)))

/-- EXPORT: the status, and the state with the export armed when that is OK (R390, R393, R402). -/
def exportIssue (p : Nat) (epv : Bool) (epoch : Nat) (b : ExportBody) (s : State) : State × Nat :=
  let early := !epv || !isStepPart s p || s.exp.state == 1 || s.exp.state == 2 || b.entries == 0 || decide (16384 < b.entries) ||
    !(tierOf b.mapAddr.toNat == 1 || tierOf b.mapAddr.toNat == 3) || decide (tierOf b.area.toNat < 2) || b.area.toNat % 4096 != 0 ||
    b.areaSize % 4096 != 0 || tierOf b.copyBase.toNat != 1 || b.copyBase.toNat % 4096 != 0 || extentTaken s b.copyBase.toNat (b.copyMib * 2 ^ 20)
  if early then (s, stBad)
  else match readMap b.mapAddr.toNat b.entries s with
    | (s, none) => (s, stCheckFail)
    | (s, some es) =>
      let ms := es.map (·.1)
      let ok (e : MapEnt × Bool) : Bool :=
        let r := regionOf s e.1.region
        r.valid && (partOf s r.owner).bound && (partOf s r.owner).tag == (partOf s p).tag && r.cls != cDerived &&
        (r.cls != cExperience || b.pages) && e.1.elems != 0 && decide (e.1.elems ≤ regionElems r) && e.2
      if !es.all ok || (ms.map (·.region)).eraseDups.length != ms.length then (s, stBad)
      else if !b.stream && decide (b.areaSize < exportSpace s b.wide ms) then (s, stNoRoom)
      else
        let own := ms.filter (writesShard s)
        ({ s with exp := { s.exp with
            state := 1, cause := 0, epoch := epoch, doneU := 0
            totalU := (own.map fun m => cdiv (storedLen (regionOf s m.region) m.elems) 4096).sum
            peak := 0, head := 0, tail := 0, wide := b.wide, stream := b.stream, pages := b.pages, part := BitVec.toFin (BitVec.ofNat 4 p)
            map := ms, area := b.area, areaSize := b.areaSize, copyBase := b.copyBase, copyMib := b.copyMib, taken := [], store := []
            shard := 0, unit := 0, buf := [], out := [], shards := [], skipped := false, fid := false, sealedAt := [], own := own, wrote := [], await := false } }, stOk)

/-- EXPORT_CANCEL (R404, R408). -/
def exportCancelNow (s : State) : State := exportStop 1 true s

/-! ### The drain -/

/-- Offset of the data of shard k, and of its check table, from the first byte of the area or stream (R402). -/
def shardOff (s : State) (k : Nat) : Nat × Nat :=
  let ms := s.exp.own
  let start := if s.exp.stream then 0 else roundUp4k (manifestLen ms.length)
  let a := (ms.take k).foldl (fun a m =>
    let x := shardSpace s.exp.wide (cutRegion s m.region) m.elems
    a + x.1 + x.2) start
  (a, a + match ms[k]? with
    | some m => (shardSpace s.exp.wide (cutRegion s m.region) m.elems).1
    | none => 0)

/-- Writes bytes of an export; an error of the surroundings fails it (R401). -/
def exportWrite (a : Nat) (bs : List Byte) (s : State) : State :=
  if bs.isEmpty || s.exp.state == 4 then s
  else if s.badWrite.any fun r => decide (r.1 < a + bs.length ∧ a < r.1 + r.2) then exportFail 3 s
  else
    let s := memWrite a bs s
    { s with exp := { s.exp with wrote := (a, bs.length) :: s.exp.wrote.filter (· != (a, bs.length)) } }

/-- Writes as many bytes as the ring takes of those that wait to leave (R402). -/
def streamFlush (s : State) : State :=
  let e := s.exp
  let n := min (e.head + e.areaSize - e.tail) e.out.length
  let bs := e.out.take n
  let o := e.tail % e.areaSize
  let k := e.areaSize - o
  let s := exportWrite e.area.toNat (bs.drop k) (exportWrite (e.area.toNat + o) (bs.take k) s)
  if s.exp.state = 4 then s else { s with exp := { s.exp with tail := e.tail + n, out := e.out.drop n } }

/-- Writes bytes at an offset of the export area, or puts them next in the stream (R402). -/
def exportPut (off : Nat) (bs : List Byte) (s : State) : State :=
  if s.exp.stream then streamFlush { s with exp := { s.exp with out := s.exp.out ++ bs } }
  else exportWrite (s.exp.area.toNat + off) bs s

/-- Address field of a record: the place in the area, or the offset in the stream (R402). -/
def exportAddr (s : State) (off : Nat) : Nat := if s.exp.stream then off else s.exp.area.toNat + off

/-- Exported bytes of n stored bytes of a region (Table 14.2). -/
def exportBytes (wide : Bool) (r : Region) (bs : List Byte) : List Byte :=
  let conv (f : Nat → Nat) (w : Nat) : List Byte :=
    (List.range (bs.length / 4)).flatMap fun i => toBytes w (f (ofBytes ((bs.drop (4 * i)).take 4)))
  if wide then bs
  else if r.cls = 2 then conv narrow16 2
  else if r.cls = 3 then conv narrow24 3
  else bs

/-- Bytes of a shard record (Table 14.4). -/
def shardRec (s : State) (x : Shard) : List Byte :=
  toBytes 64 (pack [(32, x.ent.tensor), (14, x.ent.region), (2, 0), (8, x.format), (4, x.cls), (4, 0), (64, x.ent.first), (64, x.ent.elems),
    (64, x.data), (64, x.bytes), (64, x.check), (17, s.exp.rank)]) ++ x.sha

/-- The manifest (R403). -/
def manifestBytes (s : State) : List Byte :=
  let e := s.exp
  toBytes 64 (pack [(32, 0x7C4A4D46), (16, 1), (16, e.tag), (32, e.epoch), (1, b2n e.wide), (1, b2n e.stream), (1, b2n e.pages),
    (1, b2n e.fid), (1, b2n e.skipped), (3, 0), (8, match s.fuse.grade with
      | .a => 0x0A
      | .b => 0x0B), (16, 0), (17, e.rank), (15, 0), (32, e.shards.length), (64, e.digest.toNat), (32, e.inc)]) ++
  e.shards.flatMap (shardRec s)

/-- The manifest is written last, and the export is DONE once every byte has left (R399). -/
def exportFinish (s : State) : State :=
  let m := manifestBytes s
  let s := if s.exp.shard = s.exp.map.length then
      let s := exportPut 0 (if s.exp.stream then m else m ++ List.replicate (roundUp4k m.length - m.length) 0) s
      { s with exp := { s.exp with shard := s.exp.shard + 1 } }
    else s
  if s.exp.state = 4 then s
  else if s.exp.out.isEmpty then
    raiseGlobal vExport (clearPend { s with exp := { s.exp with state := 3, taken := [], store := [], buf := [], out := [], sealedAt := [], wrote := [] } })
  else s

/-- The last unit of a shard has left: padding, check table and record (R402, R403). -/
def shardFinish (m : MapEnt) (r : Region) (s : State) : State :=
  let e := s.exp
  let k := e.shards.length
  let (d, c) := shardOff s k
  let sp := shardSpace e.wide r m.elems
  let full := e.buf ++ List.replicate (sp.1 - e.buf.length) 0
  let crcs := (List.range (sp.1 / 4096)).flatMap fun i => toBytes 4 (crc32c ((full.drop (4096 * i)).take 4096)).toNat
  let tbl := crcs ++ List.replicate (sp.2 - crcs.length) 0
  let x : Shard := { ent := m, format := exportFmt e.wide r, cls := r.cls, data := exportAddr s d, bytes := e.buf.length, check := exportAddr s c
                     sha := sha256 e.buf }
  let s := exportPut c tbl (exportPut (d + e.buf.length) (List.replicate (sp.1 - e.buf.length) 0) s)
  if s.exp.state = 4 then s else
  let s := modRegion m.region (fun r => { r with exportPend := false }) s
  { s with exp := { s.exp with shard := s.exp.shard + 1, unit := 0, buf := [], shards := s.exp.shards ++ [x]
                               sealedAt := s.exp.sealedAt.filter fun x => x.1 != m.region } }

/-- Copy store block that holds a unit of the cut. -/
def copyOf (s : State) (i j : Nat) : Option Nat := (s.exp.store.find? fun x => x.2.1 == i && x.2.2.1 == j).map (·.1)

/-- Whether a stored unit of the cut reads as zeros: it lies in a page that was not sealed at the cut (Table 14.2). -/
def unsealedAt (s : State) (i : Nat) (r : Region) (j : Nat) : Bool :=
  r.cls == cExperience && !s.exp.sealedAt.contains (i, regionAddr r + 65536 * (j / 16))

/-- A page of the cut that the drain has left may be used again (R396). -/
def pageDrained (i : Nat) (r : Region) (j : Nat) (last : Bool) (s : State) : State :=
  if r.cls == cExperience && (j % 16 == 15 || last) then
    { s with exp := { s.exp with sealedAt := s.exp.sealedAt.filter (· != (i, regionAddr r + 65536 * (j / 16))) } }
  else s

/-- One unit of the drain; it waits while a granule holds the unit (R396 to R401). The tier mover's time since the unit before is charged to the issuing partition (R399; DEDUCED, log 26), and in chervil mode it works in that partition's slots (spec/12 R351). -/
def drainUnitNow (s0 : State) : State :=
  let s := if s0.exp.state = 2 ∧ s0.exp.stream then streamFlush s0 else s0
  if s.exp.state != 2 || !moverFree s s.exp.part.val || !(s.exp.out.isEmpty || decide (s.exp.map.length < s.exp.shard)) then s
  else match s.exp.map[s.exp.shard]? with
    | none => exportFinish s
    | some m =>
      let r := cutRegion s m.region
      if !s.exp.own.contains m then
        let s := modRegion m.region (fun r => { r with exportPend := false }) { s with exp := { s.exp with shard := s.exp.shard + 1, unit := 0 } }
        if s.exp.shard = s.exp.map.length then exportFinish s else s
      else
        let j := s.exp.unit
        let n := min 4096 (storedLen r m.elems - 4096 * j)
        let last := decide (storedLen r m.elems ≤ 4096 * (j + 1))
        let copy := copyOf s m.region j
        let a := match copy with
          | some k => logBase s.exp.copyBase + 4096 * k
          | none => regionAddr r + 4096 * j
        let (t, bad) := memTouch a 4096 s
        if copy.isNone && pendLocked a 4096 s then s
        else if bad && copy.isSome then exportFail 3 t
        else if bad then
          let ls := badLines a 4096 t
          let waiting (u : State) : Bool := ls.any fun l => u.aud.repairs.any fun y => y.lines.contains l
          let t' := if s.exp.await then t else ls.foldl (fun s l => repairLine l s) t
          if waiting t' then { t' with exp := { t'.exp with await := true } } else exportFail 3 t'
        else
          let bs := if unsealedAt t m.region r j then List.replicate n 0 else memBytes a n t
          let x := exportBytes t.exp.wide r bs
          let off := (shardOff t t.exp.shards.length).1 + t.exp.buf.length
          let t := exportPut off x t
          if t.exp.state = 4 then t else
          let e := t.exp
          let t := { t with exp := { e with
            await := false, began := coreCount t, buf := e.buf ++ x, unit := j + 1, doneU := e.doneU + 1
            taken := (m.region, j) :: e.taken.filter (· != (m.region, j))
            store := match copy with
              | some k => SMap.del e.store k
              | none => e.store } }
          let t := pageDrained m.region r j last (chargeEngine t.exp.part.val 6 ((coreCount t - e.began) / 2) t)
          if last then
            let t := shardFinish m r t
            if t.exp.state = 4 then t else if t.exp.shard = t.exp.map.length then exportFinish t else t
          else t

/-! ### Restore -/

def restoreRecOf (bs : List Byte) : RestoreRec :=
  let w (i n : Nat) := ofBytes ((bs.drop i).take n)
  { tensor := w 0 4, format := w 6 1, first := w 8 8, elems := w 16 8, data := w 24 8, bytes := w 32 8, check := w 40 8, sha := (bs.drop 64).take 32 }

/-- Records sorted by TENSOR and FIRST, with no overlap within a tensor (R403, R407). -/
def recsOk : List RestoreRec → Bool
  | [] => true
  | [_] => true
  | x :: y :: ys =>
    (decide (x.tensor < y.tensor) || (x.tensor == y.tensor && decide (x.first ≤ y.first ∧ x.first + x.elems ≤ y.first))) && recsOk (y :: ys)

/-- Records of a tensor that meet elements [lo, hi). -/
def recsMeet (rs : List RestoreRec) (t lo hi : Nat) : List RestoreRec :=
  rs.filter fun x => x.tensor == t && decide (x.first < hi ∧ lo < x.first + x.elems)

/-- Whether sorted records cover [lo, hi). -/
def recsCover (rs : List RestoreRec) (lo hi : Nat) : Bool :=
  decide (hi ≤ rs.foldl (fun p x => if x.first ≤ p then max p (x.first + x.elems) else p) lo)

/-- Whether Table 14.6 converts a shard format into a region format. -/
def restorePair (a b : Nat) : Bool := a == b || (a == 2 && b == 1) || (a == 0x20 && b == 1) || (a == 1 && (b == 2 || b == 3))

/-- One element converted (Table 14.6). -/
def restoreElem (a b : Nat) (x : List Byte) : List Byte :=
  let v := ofBytes x
  if a = b then x
  else if a = 2 then toBytes 4 (widen16 v)
  else if a = 0x20 then toBytes 4 (widen24 v)
  else if b = 2 then toBytes 2 (narrow16 v)
  else toBytes 4 (narrow24 v)

/-- Reads the pieces [i, j) of a record with their checks: whether all hold (R405, R407). -/
def piecesOk (x : RestoreRec) (i j : Nat) (s : State) : State × Bool :=
  (List.range (j - i)).foldl (fun a k =>
    let q := i + k
    let (s, b1, u) := memFetch (x.data + 4096 * q) 4096 a.1
    let (s, b2, c) := memFetch (x.check + 4 * q) 4 s
    (s, a.2 && !b1 && !b2 && ofBytes (denseU 4 0 c) == (crc32c (denseU 4096 0 u)).toNat)) (s, true)

/-- The part of a map entry that one record gives: its bytes in the region's format, where it starts in the region, and whether its checks hold. -/
def restorePart (verify : Bool) (m : MapEnt) (r : Region) (x : RestoreRec) (s : State) : State × Bool × Nat × List Byte :=
  let lo := max m.first x.first
  let hi := min (m.first + m.elems) (x.first + x.elems)
  let src (e : Nat) : Nat := if fmtMx x.format then (e - x.first) / 32 * fmtBlockBytes x.format else exportLen x.format (e - x.first)
  let b0 := src lo
  let b1 := exportLen x.format (hi - x.first)
  let (s, ok) := if verify then piecesOk x 0 (cdiv x.bytes 4096) s else piecesOk x (b0 / 4096) (cdiv b1 4096) s
  let shaOk := !verify || sha256 (memBytes x.data x.bytes s) == x.sha
  if fmtMx r.format then
    let d := (lo - m.first) / 32 * fmtBlockBytes r.format
    if (lo - x.first) % 32 = 0 ∧ (lo - m.first) % 32 = 0 then (s, ok && shaOk, d, memBytes (x.data + b0) (b1 - b0) s)
    else
      let (s, bs) := freeBytes (cdiv (hi - lo) 32 * fmtBlockBytes r.format) s
      (s, ok && shaOk, d, bs)
  else
    let w := exportLen x.format 1
    (s, ok && shaOk, (lo - m.first) * fmtWidth r.format,
      (List.range (hi - lo)).flatMap fun k => restoreElem x.format r.format (memBytes (x.data + b0 + w * k) w s))

/-- Restores one map entry: whether every check held; a region is written only when it did (R407). -/
def restoreEntry (verify : Bool) (rs : List RestoreRec) (m : MapEnt) (s : State) : State × Bool :=
  let r := regionOf s m.region
  let got := (recsMeet rs m.tensor m.first (m.first + m.elems)).foldl (fun a x =>
    let (s, ok, d, bs) := restorePart verify m r x a.1
    (s, a.2.1 && ok, a.2.2 ++ [(regionAddr r + d, bs)])) (s, true, [])
  if got.2.1 then (got.2.2.foldl (fun s w => memWrite w.1 w.2 (preserve w.1 w.2.length s)) got.1, true) else (got.1, false)

/-- One map entry of a RESTORE that runs is loaded; after the last the DERIVED regions are made again and the command completes (R405 to R407; a vigil cycle an entry, DESIGN CHOICE, log 179). -/
def restoreStep (s : State) : State :=
  match s.exp.restoring with
  | none => s
  | some x =>
    let fin (st : Nat) (s : State) : State := complete x.cur st 0 { s with exp := { s.exp with restoring := none } }
    match x.left with
    | [] => fin stOk (regenerateAll (fun r => x.regions.contains r.source) s)
    | m :: ms => match restoreEntry x.verify x.recs m s with
      | (s, false) => fin stCheckFail s
      | (s, true) => { s with exp := { s.exp with restoring := some { x with left := ms } } }

/-- RESTORE: a status where it ends at its checks, else it runs (R405 to R407). A record whose DATA or CHECK lies in a block area, which nothing addresses, ends it BAD_COMMAND (spec/15 R412; DESIGN CHOICE, log 164). -/
def restoreNow (c : CurCmd) (b : RestoreBody) (s : State) : State × Option Nat :=
  let mt := tierOf b.mapAddr.toNat
  if s.ep.phase ≠ 0 ∨ b.entries = 0 ∨ 16384 < b.entries ∨ ¬(mt = 1 ∨ mt = 3) ∨ tierOf b.manifest.toNat = 0 then (s, some stBad)
  else match readMap b.mapAddr.toNat b.entries s with
    | (s, none) => (s, some stCheckFail)
    | (s, some es) =>
      let (s, bad, hu) := memFetch b.manifest.toNat 64 s
      let hd := denseU 64 0 hu
      let w (i n : Nat) := ofBytes ((hd.drop i).take n)
      if bad then (s, some stCheckFail)
      else if w 0 4 != 0x7C4A4D46 || w 4 2 != 1 then (s, some stBad)
      else
        let n := w 20 4
        let (s, bad, ru) := memFetch (b.manifest.toNat + 64) (96 * n) s
        let bytes := denseU (96 * n) 0 ru
        let rs := (List.range n).map fun k => restoreRecOf ((bytes.drop (96 * k)).take 96)
        let ok (e : MapEnt × Bool) : Bool :=
          let r := regionOf s e.1.region
          let rs := recsMeet rs e.1.tensor e.1.first (e.1.first + e.1.elems)
          r.valid && r.cls != cDerived && e.2 && decide (e.1.elems ≤ regionElems r) && recsCover rs e.1.first (e.1.first + e.1.elems) &&
          rs.all fun x => restorePair x.format r.format && !inBlockArea x.data (roundUp4k x.bytes) && !inBlockArea x.check (4 * cdiv x.bytes 4096)
        if bad then (s, some stCheckFail)
        else if !recsOk rs || !es.all ok then (s, some stBad)
        else
          let ms := es.map (·.1)
          ({ s with exp := { s.exp with restoring := some { cur := c, verify := b.verify, recs := rs, left := ms, regions := ms.map (·.region) } } }, none)

end Sys2Proof.Machine
end

