-- ==== Sys2Proof/Machine/Front.lean ====
section
/-! DEFINITION. The command front end: command entries (spec/13 R367 to R369), when a command is taken and in what order (R364, R365, R371, spec/02 R55), and the front-end commands BIND, UNBIND, PCFG, LOAD, ADMIT, TEARDOWN and SLOTTAB (R373 to R378, spec/12 R350). -/

namespace Sys2Proof.Machine

/-- What a command entry asks for (Table 13.3); bad is an entry that R369 refuses. -/
inductive FrontCmd where
  | nop
  | call (entry : Nat) (a : Args)
  | instr (w1 w2 : Word)
  | bind (tag : Nat)
  | unbind
  | pcfg (mask : Nat)
  | load (addr : Word)
  | admission (compat : Bool) (n0 : Nat) (bitmap : Word)
  | teardown
  | slottab (addr : Word)
  | exportCut (b : ExportBody)
  | exportCancel
  | restore (b : RestoreBody)
  | bad
  deriving DecidableEq, Repr

/-! ### Entries (R367, R369) -/

/-- TYPE of a command (Table 13.3). -/
def cmdType : FrontCmd → Nat
  | .nop => 0
  | .call _ _ => 1
  | .instr _ _ => 2
  | .bind _ => 0x10
  | .unbind => 0x11
  | .pcfg _ => 0x12
  | .load _ => 0x13
  | .admission _ _ _ => 0x14
  | .teardown => 0x15
  | .slottab _ => 0x16
  | .exportCut _ => 0x18
  | .exportCancel => 0x19
  | .restore _ => 0x1A
  | .bad => 0xFF

/-- Bytes 0 to 7: the command word (Table 13.1). -/
def cmdWord (h : CmdHdr) (k : FrontCmd) : Word :=
  wordOf [(16, h.cid), (8, cmdType k), (1, b2n h.epv), (1, b2n h.fence), (6, 0), (32, h.epoch)]

def argWords (a : Args) : List Word := [a.a0, a.a1, a.a2, a.a3, a.a4, a.a5]

/-- Bytes 8 to 63 as fields from byte 8 up (Tables 13.3 and 14.7). -/
def cmdFields : FrontCmd → List (Nat × Nat)
  | .call e a => (8, e) :: (56, 0) :: (argWords a).map fun w => (64, w.toNat)
  | .instr w1 w2 => [(64, 0), (64, w1.toNat), (64, w2.toNat)]
  | .bind t => [(16, t)]
  | .pcfg m => [(16, m)]
  | .load a => [(64, 0), (64, a.toNat)]
  | .admission c n a => [(1, b2n c), (31, 0), (32, n), (64, a.toNat)]
  | .slottab a => [(64, 0), (64, a.toNat)]
  | .exportCut b => [(1, b2n b.wide), (1, b2n b.stream), (1, b2n b.pages), (29, 0), (32, b.entries), (64, b.mapAddr.toNat), (64, b.area.toNat),
      (64, b.areaSize), (64, b.copyBase.toNat), (16, b.copyMib)]
  | .restore b => [(1, b2n b.verify), (31, 0), (32, b.entries), (64, b.mapAddr.toNat), (64, b.manifest.toNat)]
  | _ => []

/-- The 64 bytes of an entry. -/
def cmdBytes (h : CmdHdr) (k : FrontCmd) : List Byte := toBytes 8 (cmdWord h k).toNat ++ toBytes 56 (pack (cmdFields k))

/-- Reads an entry; it is bad when its TYPE is reserved, or a reserved bit or an unused byte is not 0 (R369). -/
def parseCmd (bs : List Byte) : CmdHdr × FrontCmd :=
  let w (i n : Nat) := ofBytes ((bs.drop i).take n)
  let v (i : Nat) : Word := BitVec.ofNat 64 (w i 8)
  let h : CmdHdr := { cid := w 0 2, epv := bitOf 0 (w 3 1), fence := bitOf 1 (w 3 1), epoch := w 4 4 }
  let k : FrontCmd := match w 2 1 with
    | 0x00 => .nop
    | 0x01 => .call (w 8 1) ⟨v 16, v 24, v 32, v 40, v 48, v 56⟩
    | 0x02 => .instr (v 16) (v 24)
    | 0x10 => .bind (w 8 2)
    | 0x11 => .unbind
    | 0x12 => .pcfg (w 8 2)
    | 0x13 => .load (v 16)
    | 0x14 => .admission (bitOf 0 (w 8 1)) (w 12 4) (v 16)
    | 0x15 => .teardown
    | 0x16 => .slottab (v 16)
    | 0x18 => .exportCut { wide := bitOf 0 (w 8 1), stream := bitOf 1 (w 8 1), pages := bitOf 2 (w 8 1), entries := w 12 4, mapAddr := v 16
                           area := v 24, areaSize := w 32 8, copyBase := v 40, copyMib := w 48 2 }
    | 0x19 => .exportCancel
    | 0x1A => .restore { verify := bitOf 0 (w 8 1), entries := w 12 4, mapAddr := v 16, manifest := v 24 }
    | _ => .bad
  (h, if cmdBytes h k == bs then k else .bad)

/-- Whether an entry is malformed (R369): EPOCH is 0 unless EPV names it. -/
def cmdBad (h : CmdHdr) (k : FrontCmd) : Bool := k == .bad || (!h.epv && h.epoch != 0)

def onSequencer : FrontCmd → Bool
  | .call _ _ => true
  | .instr _ _ => true
  | _ => false

/-- ADMIN commands (Table 13.3). -/
def adminCmd : FrontCmd → Bool
  | .admission _ _ _ => true
  | .teardown => true
  | .slottab _ => true
  | .exportCut _ => true
  | .exportCancel => true
  | .restore _ => true
  | _ => false

/-! ### Front-end commands -/

/-- BIND (R373, R421); it withdraws QUIET (spec/16 R436). -/
def bindOp (p tag : Nat) (s : State) : State × Nat :=
  if (partOf s p).bound || tag == 0 then (s, stBad)
  else
    let s := modPart p (fun x => { x with bound := true, tag := tag, gen := (x.gen + 1) % 16, opseq := [] }) s
    let other (q : Nat) := q != p
    ({ s with
        coll := { s.coll with
          seq := s.coll.seq.filter fun x => other (x.1 / 16)
          kept := s.coll.kept.filter fun x => other x.part
          decided := s.coll.decided.filter fun x => other x.part
          roots := s.coll.roots.filter fun x => other x.part
          credits := s.coll.credits.filter fun x => other x.2.part }
        fab := { s.fab with pairs := s.fab.pairs.filter fun x => other x.part.val, copies := s.fab.copies.filter fun x => other x.part }
        sram := { s.sram with split := setFld 63 1 0 s.sram.split, splitArm := false }
        pwr := { s.pwr with quiet := false, torndown := s.pwr.torndown.filter (· != tag) } }, stOk)

def ownsCoded (s : State) (p : Nat) : Bool := s.reg.table.any fun x => x.2.valid && x.2.owner == p && codedClass x.2.cls

/-- What is dropped when the job ends on this block. -/
def clearJob (s : State) : State :=
  { s with
    cod := { s.cod with out := [], lastSeq := [], batches := [], deltas := [], shadow := [], dirty := [], store := [], waves := [], walked := [], heldFrames := [] }
    upd := { s.upd with stepRec := [] }
    tar := { s.tar with merge := [], reports := [], probes := [], failed := [], again := [], counted := [], heard := [], quiet := [], suspects := [], issuer := {}, leader := {}, slow := [] }
    reb := { s.reb with active := false, role := 0, runs := [], plans := [], halves := [], hosted := [], takeover := [], spreadUsed := 0 }
    aud := { s.aud with syn := [], repairs := [], left := [], running := false }
    job := { s.job with admitting := none, exchanged := false, peers := [], dir := [], teardown := none } }

/-- UNBIND (R373, R38, R56). -/
def unbindOp (p : Nat) (s : State) : State × Nat :=
  let stepP := s.job.stepPart.map Fin.val == some p
  if s.ep.phase ≠ 0 ∧ (stepP ∨ ownsCoded s p) then (s, stBad)
  else
    let s := modPart p (fun x => { x with bound := false, fenced := false }) s
    if stepP then
      let s := clearJob s
      (dropFidelity { s with job := { inc := s.job.inc } }, stOk)
    else (s, stOk)

/-- Cores that the slot table in force gives to a partition (R349). -/
def tableCores (t : List Byte) (p : Nat) : Nat :=
  (List.range 16).foldl (fun m c =>
    if (List.range 256).any fun k => let b := (t.getD (32 * k + c) 0).toNat; bitOf 7 b && bitsOf 0 4 b == p then m ||| 2 ^ c else m) 0

/-- PCFG (R374). -/
def pcfgOp (p mask : Nat) (s : State) : State × Nat :=
  let need := match s.mode.table with
    | some t => if s.mode.chervil then tableCores t p else 0
    | none => 0
  if (s.fuse.grade = .b ∧ 4096 ≤ mask) ∨ need &&& mask ≠ need then (s, stBad)
  else if (partOf s p).bound then (modPart p (fun x => { x with coreMaskNext := some mask }) s, stOk)
  else (modPart p (fun x => { x with coreMask := mask, coreMaskNext := none }) s, stOk)

/-- LOAD: status and RESULT (R378, R279). -/
def loadOp (p : Nat) (addr : Word) (s : State) : State × Nat × Word :=
  let t := tierOf addr.toNat
  if ¬(t = 1 ∨ t = 3) then (s, stBad, 0)
  else
    let (s, bad, u) := memFetch addr.toNat 8 s
    let n := bitsOf 0 14 (ofBytes (denseU 8 0 u)) + 1
    let (s, bad2, v) := memFetch addr.toNat (8 * n) s
    if bad || bad2 then (s, stCheckFail, 0)
    else
      let r := parseImage s.mode.compat (wordsOfBytes (denseU (8 * n) 0 v))
      let id : Word := match r with
        | .inr m => m.id
        | .inl _ => 0
      let (s, ok) := stageImage p r s
      if ok then (s, stOk, id) else (s, stBad, 0)

/-- The checks of R350 on a slot table. -/
def slotTableOk (s : State) (t : List Byte) : Bool :=
  (List.range 256).all fun k =>
    let b (i : Nat) := (t.getD (32 * k + i) 0).toNat
    ((List.range 16).all fun c => bitsOf 4 3 (b c) == 0 &&
      (!bitOf 7 (b c) || ((s.fuse.grade == .a || decide (c < 12)) && (coreMaskOf s (bitsOf 0 4 (b c))).testBit c))) &&
    ((List.range 8).all fun i => bitsOf 4 2 (b (16 + i)) == 0 && (!bitOf 6 (b (16 + i)) || bitsOf 0 4 (b (16 + i)) == 0)) &&
    ((List.range 7).all fun i => bitsOf 4 3 (b (24 + i)) == 0) && bitsOf 2 6 (b 31) == 0

/-- SLOTTAB (R350); a table in a block area, which no instruction addresses, is refused (spec/15 R412; DESIGN CHOICE, log 164). -/
def slottabOp (addr : Word) (s : State) : State × Nat :=
  if inBlockArea addr.toNat 8192 then (s, stBad) else
  let (s, bad, u) := memFetch addr.toNat 8192 s
  let t := denseU 8192 0 u
  if bad then (s, stCheckFail)
  else if !slotTableOk s t then (s, stBad)
  else if anyBound s then ({ s with mode := { s.mode with tableNext := some t } }, stOk)
  else ({ s with mode := { s.mode with table := some t, tableNext := none, tableCrc := crc32c t } }, stOk)

/-! ### Admission (R375) -/

/-- Ranks whose bit is set in a membership bitmap. -/
def bitmapRanks (u : UnitImg) : List Nat :=
  u.flatMap fun x => ((List.range 8).filter fun i => x.2.toNat.testBit i).map fun i => 8 * x.1 + i

def isStandby (g : Group) : Bool := decide (gSize g ≤ g.self)

/-- The checks of R29, R60, Table 4.11 and R191 on this block. -/
def admitLocalOk (s : State) (tag : Nat) : Bool :=
  (s.reg.table.all fun x => !x.2.valid ||
    (let o := partOf s x.2.owner
     if codedClass x.2.cls then o.bound && o.tag == tag
     else x.2.cls == cDerived || !o.bound || o.tag == tag)) &&
  ((slotsOn s).all fun sl => posRank s (grpOf s sl) (grpOf s sl).self == selfRank s) &&
  fld 62 2 s.cod.outboxBase == 1 &&
  (!((slotsOn s).any fun sl => isStandby (grpOf s sl)) || !s.reg.table.any fun x => x.2.valid)

/-- Records that this block sends to a member (R375, R62, R112, R181, R191, R236). -/
def admitRecords (s : State) (rank : Nat) : List AdmitRec :=
  let on := slotsOn s
  let mine := on.filter fun sl => isMember (grpOf s sl)
  let toStandby := mine.any fun sl => (((List.range (gTotal (grpOf s sl))).drop (gSize (grpOf s sl))).map (posRank s (grpOf s sl))).contains rank
  [.identity s.fuse.identity, .gens ((List.range 16).map fun p => (partOf s p).gen)] ++
  (on.map fun sl => let g := grpOf s sl; .directory (fin 16 sl) g.rank0 g.axis (gSize g) g.standbys) ++
  (on.map fun sl => .geometry (fin 16 sl) (grpOf s sl).rank0 (grpOf s sl).dataUnits) ++
  ((s.reg.table.filter fun x => x.2.valid && x.2.cls == cReplicated).map fun x => .replica x.1 x.2.units) ++
  (if toStandby then
    ((s.reg.table.filter fun x => x.2.valid).map fun x => let w := regionWords x.2; .takeRegion x.1 (w.getD 0 0) (w.getD 1 0) (w.getD 2 0) (w.getD 3 0)) ++
    (on.map fun sl => let g := grpOf s sl; .takeSlot (fin 16 sl) (groupWord g 0) (groupWord g 2) (groupWord g 3) (groupWord g 4))
   else []) ++ [.done]

/-- Heartbeat records of every port, from the records of the exchange (R180). -/
def takePortRecords (s : State) : State :=
  (List.range 8).foldl (fun s p =>
    let c := neighbour s p
    let m := if (wiredPorts s).contains p then s.job.members.find? fun r => r != servedRank s && translate s r == some c else none
    modPort p (fun x => { x with
      missed := 0, gotHb := false, quietPeer := false, clearRun := 0, suspect := false, holdJob := false
      record := m.bind fun r => (SMap.find s.job.peers r).map fun y => { identity := y.identity, inc := y.inc, rank := r } }) s) s

/-- The checks that depend on the exchange (R62, R112, R191). -/
def exchangeOk (s : State) : Bool :=
  let peer (r : Nat) := SMap.find s.job.peers r
  let on := slotsOn s
  (on.all fun sl => (groupRanks s (grpOf s sl)).all fun r => r == servedRank s || !s.job.members.contains r ||
    (match peer r with
      | some x => SMap.find x.geoms sl == some ((grpOf s sl).rank0, (grpOf s sl).dataUnits)
      | none => false)) &&
  (s.reg.table.all fun x => !(x.2.valid && x.2.cls == cReplicated) ||
    decide (x.2.replicas ≤ ((memberRanks s (grpOf s x.2.group)).filter fun r => r == servedRank s ||
      (match peer r with
        | some y => SMap.find y.replicas x.1 == some x.2.units
        | none => false)).length)) &&
  (!(on.any fun sl => isStandby (grpOf s sl)) ||
    (fld 62 2 s.reb.takeBase == 1 &&
      decide ((s.reb.takeover.map fun t => 32 * t.regions.length + 1024).sum ≤ fld 0 24 s.reb.takeSize * 2 ^ 20)))

/-- The exchange ends once every other member has sent all its records; then the seed sweeps run (R375). -/
def exchangeStep (s : State) : State :=
  let all := s.job.members.all fun r => r == servedRank s || (match SMap.find s.job.peers r with
    | some x => x.done
    | none => false)
  if s.job.admitting.isNone || s.job.exchanged || !all then s
  else if !exchangeOk s then undoAdmit stBad s
  else
    let own := (slotsOn s).map fun sl => let g := grpOf s sl; ({ slot := sl, rank0 := g.rank0, axis := g.axis, members := gSize g, standbys := g.standbys } : DirGroup)
    runSeeds (takePortRecords { s with job := { s.job with exchanged := true, dir := (own ++ s.job.dir).eraseDups } })

/-- An ADMIT record of a member (R375, R180). One that differs after the exchange raises a suspect with cause 2 or 3, as a heartbeat that differs does (DESIGN CHOICE, log 194). -/
def takeAdmitRec (t : Tarra) (r : AdmitRec) (s : State) : State :=
  let old : Peer := SMap.look {} s.job.peers t.rank
  let port := (List.range 8).find? fun p => match (portOf s p).record with
    | some q => q.rank == t.rank
    | none => false
  if s.job.exchanged then
    let id := match r with
      | .identity i => i != old.identity
      | _ => false
    match port with
    | some _ => if id then raiseSuspect t.rank old.inc 2 s else if t.inc != old.inc then raiseSuspect t.rank old.inc 3 s else s
    | none => s
  else
    let put (x : Peer) (s : State) : State := { s with job := { s.job with peers := SMap.put s.job.peers t.rank { x with inc := t.inc } } }
    let tk (f : TakeOver → TakeOver) (s : State) : State :=
      let cur : TakeOver := (s.reb.takeover.find? fun y => y.rank == t.rank).getD ⟨t.rank, [], []⟩
      put old { s with reb := { s.reb with takeover := f cur :: s.reb.takeover.filter (·.rank != t.rank) } }
    exchangeStep (match r with
      | .identity i => put { old with identity := i } s
      | .gens g => put { old with gens := g } { s with fab := { s.fab with peerGen := SMap.put s.fab.peerGen t.rank g } }
      | .directory g rank0 axis members standbys =>
        put old { s with job := { s.job with dir := (s.job.dir ++
          [({ slot := g.val, rank0 := rank0, axis := axis, members := members, standbys := standbys } : DirGroup)]).eraseDups } }
      | .geometry g rank0 du => put { old with geoms := SMap.put old.geoms g.val (rank0, du) } s
      | .replica i u => put { old with replicas := SMap.put old.replicas i u } s
      | .takeRegion i w0 w1 w2 w3 => tk (fun x => { x with regions := SMap.put x.regions i [w0, w1, w2, w3] }) s
      | .takeSlot g w0 w2 w3 w4 => tk (fun x => { x with slots := SMap.put x.slots g.val [w0, w2, w3, w4] }) s
      | .step _ _ => s
      | .done => put { old with done := true } s)

/-- A message of KIND 20: an ADMIT record, or an entry of a step record (R375, R199). -/
def takeAdmit (t : Tarra) (r : AdmitRec) (s : State) : State :=
  match r with
  | .step i e => takeStep t.epoch i e s
  | _ => takeAdmitRec t r s

/-- Whether a partition is bound to a tag and owns a coded region, which forbids QUIET (spec/07 R186). -/
def codedBound (s : State) (tag : Nat) : Bool :=
  s.reg.table.any fun y => y.2.valid && codedClass y.2.cls && (partOf s y.2.owner).bound && (partOf s y.2.owner).tag == tag

/-- ADMIT: a status where it completes at once, none while the admission goes on; no port holds a record until the exchange gives it one (R375, R180). -/
def admitOp (c : CurCmd) (compat : Bool) (n0 : Nat) (bitmap : Word) (s : State) : State × Option Nat :=
  let x := partOf s c.p.val
  let t := tierOf bitmap.toNat
  if s.ep.phase ≠ 0 ∨ !x.bound ∨ n0 = 0 ∨ n0 = 0xFFFFFFFF ∨ compat ≠ s.mode.compat ∨ ¬(t = 1 ∨ t = 3) ∨ s.exp.state = 2 then (s, some stBad)
  else
    let (s, bad, u) := memFetch bitmap.toNat 16384 s
    let ms := bitmapRanks u
    if bad then (s, some stCheckFail)
    else if !ms.contains (servedRank s) || !admitLocalOk s x.tag then (s, some stBad)
    else
      let inc := ((keepNow s 0).toNat + 1) % 2 ^ 32
      let s := keepBlockWrite 0 (BitVec.ofNat 64 inc) s
      let keepPeers := s.job.peers
      let keepDir := s.job.dir
      let keepTake := s.reb.takeover
      let s := clearJob s
      let s := (slotsOn s).foldl (fun s sl => modGrp sl (fun g => { g with live := 2 ^ gTotal g - 1, lost := false, sorrel := false }) s) s
      let s := { s with
        pwr := { s.pwr with torndown := s.pwr.torndown.filter (· != x.tag) }
        port := s.port.map fun q => (q.1, { q.2 with record := none })
        fab := { s.fab with floods := [] }
        reb := { s.reb with takeover := keepTake }
        ep := { epoch := n0 - 1, stat := s.ep.stat, fid := s.ep.fid, limit := s.ep.limit, committed := s.ep.committed, lastSkip := s.ep.lastSkip }
        job := { s.job with
          tag := x.tag, stepPart := some c.p, members := ms, inc := inc, admitting := some c, exchanged := false
          peers := keepPeers, dir := keepDir } }
      let s := setPhase 6 s
      let t := tarraOf s 20 (servedRank s) inc (n0 - 1)
      let s := (ms.filter (· != servedRank s)).foldl (fun s r => (admitRecords s r).foldl (fun s q => sendAdmit r t q s) s) s
      (exchangeStep s, none)

/-- The 10 s of an admission pass (R375). -/
def admitTimeoutOp (s : State) : State := undoAdmit stPeerFailed s

/-! ### Teardown (R377) -/

/-- QUIET goes to the leaders of this block's groups (R186). -/
def sendQuiet (s : State) : State :=
  let s := { s with pwr := { s.pwr with quiet := true } }
  (myLeaders s).foldl (fun s r => sendTarra r (tarraOf s 15 (servedRank s) s.job.inc s.ep.epoch) s) s

/-- The job ends on this block once every flush of its partitions has ended; from then on its waves are ignored (R377). -/
def teardownStep (s : State) : State :=
  match s.job.teardown with
  | none => s
  | some c =>
    if (boundTo s s.job.tag).any fun p => (partOf s p).flushing then s
    else
      let s := endWaiting stStale (exportStop 6 false (sendQuiet s))
      complete c stOk 0 (setPhase 0 (clearJob { s with pwr := { s.pwr with torndown := s.job.tag :: s.pwr.torndown } }))

def teardownOp (c : CurCmd) (s : State) : State × Option Nat :=
  let x := partOf s c.p.val
  if s.ep.phase = 0 ∨ !x.bound ∨ x.tag ≠ s.job.tag ∨ s.job.admitting.isSome then (s, some stBad)
  else
    let s := forAll (boundTo s x.tag) flushPart { s with job := { s.job with teardown := some c } }
    (teardownStep s, none)

/-! ### Taking a command -/

/-- Whether completion queue q of a partition has a free entry for one more command (R365). -/
def cqRoom (x : PartSt) (q : Nat) : Bool :=
  let k := cqOf x q
  let n := k.sizeM1 + 1
  k.en && decide (k.reserved + ((k.tail + n - k.head % n) % n) < k.sizeM1)

/-- What becomes of a command now. -/
inductive Gate where
  | start
  | wait
  | done (st : Nat)
  deriving DecidableEq, Repr

/-- Whether a command is covered by a recorded tail, in the order of R15 (R380, R204, R383). -/
def forced (x : PartSt) (q : Nat) (queued : Bool) : Option Nat :=
  let k := sqOf x q
  if queued && k.flushTo.isSome then some stFlushed
  else if queued && k.lostTo.isSome then some stGroupLost
  else if x.fenced || (queued && k.fenceTo.isSome) then some stFenced
  else none

/-- Addresses that a front-end command reads (Tables 13.3 and 14.7). -/
def cmdAddrs : FrontCmd → List Word
  | .load a => [a]
  | .admission _ _ a => [a]
  | .slottab a => [a]
  | .exportCut b => [b.mapAddr]
  | .restore b => [b.mapAddr, b.manifest]
  | _ => []

/-- Whether a command names an epoch that is neither open nor next (R55, spec/02 R38). -/
def cmdStale (s : State) (h : CmdHdr) : Bool :=
  h.epv && (if s.ep.phase = 0 then s.ep.limit else h.epoch != s.ep.epoch && h.epoch != s.ep.epoch + 1)

/-- When a command that nothing ends may start (R55, R254, R370, R371, Table 9.1, spec/16 R437); of two statuses the first of R15. -/
def startGate (s : State) (p q : Nat) (h : CmdHdr) (k : FrontCmd) : Gate :=
  let x := partOf s p
  if cmdBad h k then .done (if cmdStale s h then stStale else stBad)
  else if h.fence && (sqOf x q).outstanding != 0 then .wait
  else
    let go : Gate :=
      if onSequencer k then
        match x.seq with
        | .dispatch => .start
        | .noImage => .done stBad
        | _ => .wait
      else if s.job.admitting.isSome || s.job.teardown.isSome || s.exp.restoring.isSome then .wait
      else if adminCmd k && !x.admin then .done stBad
      else if (cmdAddrs k).all fun a => padFree s a.toNat then .start
      else .wait
    if !h.epv then go
    else if cmdStale s h then .done stStale
    else if s.ep.phase = 0 then .done stBad
    else if h.epoch = s.ep.epoch then go
    else .wait

/-- A command runs (Table 13.3). -/
def runCmd (c : CurCmd) (h : CmdHdr) (k : FrontCmd) (s : State) : State :=
  let p := c.p.val
  let fin (r : State × Nat) : State := complete c r.2 0 r.1
  let fino (r : State × Option Nat) : State := match r.2 with
    | some st => complete c st 0 r.1
    | none => r.1
  match k with
  | .nop => complete c stOk 0 s
  | .call e a =>
    match (partOf s p).image.bind fun m => if e < 3 ∨ 64 ≤ e then none else entryOf m e with
    | none => complete c stBad 0 (modPart p (fun x => { x with lastQ := c.q.val }) s)
    | some pc =>
      let s := modPart p (fun x => { x with cur := some c, lastQ := c.q.val, pc := pc, seq := .run, wait := none }) s
      noteCommand p (((argWords a ++ [cmdWord h k]).zipIdx).foldl (fun s y => setG p (24 + y.2) y.1 s) s)
  | .instr w1 w2 => noteCommand p <| instrRun p w1 w2 (modPart p (fun x => { x with cur := some { c with instr := true }, lastQ := c.q.val }) s)
  | .bind tag => fin (bindOp p tag s)
  | .unbind => fin (unbindOp p s)
  | .pcfg m => fin (pcfgOp p m s)
  | .load a =>
    let r := loadOp p a s
    complete c r.2.1 r.2.2 r.1
  | .admission cp n0 a => fino (admitOp c cp n0 a s)
  | .teardown => fino (teardownOp c s)
  | .slottab a => fin (slottabOp a s)
  | .exportCut b => fin (exportIssue p h.epv h.epoch b s)
  | .exportCancel => complete c stOk 0 (exportCancelNow s)
  | .restore b => fino (restoreNow c b s)
  | .bad => complete c stBad 0 s

/-- The front end takes the next command of a queue: its completion entry is reserved, and the head moves past a queued one (R365). -/
def takeEntry (p q : Nat) (queued : Bool) (s : State) : State :=
  modCq p q (fun y => { y with reserved := y.reserved + 1 })
    (modSq p q (fun y =>
      let hd := if queued then (if y.head = y.sizeM1 then 0 else y.head + 1) else y.head
      { y with head := hd, outstanding := y.outstanding + 1
               flushTo := if y.flushTo = some hd then none else y.flushTo
               fenceTo := if y.fenceTo = some hd then none else y.fenceTo
               lostTo := if y.lostTo = some hd then none else y.lostTo }) s)

/-- Whether fetch may go on: it stops while a power state is entered (spec/16 Table 16.3), while a pad group that it needs is held (R437), and while the completion queue has no room (R365). -/
def fetchRoom (s : State) (p q : Nat) : Bool :=
  !s.pwr.entering.isSome && padFree s (cqOf (partOf s p) q).base.toNat && cqRoom (partOf s p) q

/-- Whether a command would be taken now (R365, R371). -/
def cmdGoes (p q : Nat) (queued : Bool) (h : CmdHdr) (k : FrontCmd) (s : State) : Bool :=
  fetchRoom s p q && ((forced (partOf s p) q queued).isSome || startGate s p q h k != .wait)

/-- A command that is taken is an external input with its 64 bytes (spec/12 Table 12.5). -/
def logCmd (p q : Nat) (raw : List Byte) (s : State) : State := logIn 4 (4 * p + q) (sqOf (partOf s p) q).head 0 raw s

/-- Takes one command of queue q with the bytes of its entry: reserves its completion entry, then runs or ends it; where it may not start yet nothing changes but CQ_WAIT (R365, R369). Fetch stops while a power state is entered (spec/16 Table 16.3), and while a pad group that it needs is held (R437). -/
def takeCmd (p : Part) (q : Queue) (queued : Bool) (h : CmdHdr) (k : FrontCmd) (raw : List Byte) (s : State) : State :=
  let x := partOf s p.val
  if s.pwr.entering.isSome || !padFree s (cqOf x q.val).base.toNat then s
  else if !cqRoom x q.val then modSq p.val q.val (fun y => { y with cqWait := true }) s
  else
    let s0 := s
    let s := modSq p.val q.val (fun y => { y with cqWait := false }) s
    let take (s : State) : State := takeEntry p.val q.val queued (logCmd p.val q.val raw s)
    let cur (s : State) : CurCmd :=
      { p := p, q := q, cid := h.cid, sqHead := (sqOf (partOf s p.val) q.val).head, instr := false
        epv := if h.epv then some h.epoch else none, cqGen := (cqOf x q.val).gen }
    let fin (st : Nat) : State :=
      let s := take s
      complete (cur s) st 0 s
    match forced x q.val queued with
    | some st => fin st
    | none => match startGate s0 p.val q.val h k with
      | .wait => s
      | .done st => if cmdBad h k then violate 2 (fin st) else fin st
      | .start =>
        let s := take s
        runCmd (cur s) h k s

/-! ### Submission queues (R363, R364, R371) -/

/-- Whether queue q has an entry to fetch: one before its tail, or before a recorded tail. -/
def sqHas (x : PartSt) (q : Nat) : Bool :=
  let k := sqOf x q
  (k.en && k.head != k.tail) || k.flushTo.isSome || k.lostTo.isSome || k.fenceTo.isSome

/-- The entry at the head of a queue. -/
def sqEntry (s : State) (p q : Nat) : CmdHdr × FrontCmd :=
  let k := sqOf (partOf s p) q
  parseCmd (memBytes (k.base.toNat + 64 * k.head) 64 s)

/-- The queue that the sequencer serves next: round robin from the one served last (R371). -/
def servedNext (s : State) (p : Nat) : Option Nat :=
  let x := partOf s p
  ((List.range 4).map fun i => (x.lastQ + 1 + i) % 4).find? fun q =>
    sqHas x q && (forced x q true).isNone && cqRoom x q && (let e := sqEntry s p q; onSequencer e.2 && startGate s p q e.1 e.2 == .start)

/-- Whether the entry at the head of a queue is fetched now (R364, R365, R371). -/
def fetchGoes (p q : Nat) (s : State) : Bool :=
  let x := partOf s p
  let k := sqOf x q
  let e := sqEntry s p q
  sqHas x q && !(x.flushing && k.flushTo.isNone) && padFree s k.base.toNat && fetchRoom s p q &&
    ((memTouch (k.base.toNat + 64 * k.head) 64 s).2 || (forced x q true).isSome ||
      (startGate s p q e.1 e.2 != .wait && !(onSequencer e.2 && startGate s p q e.1 e.2 == .start && servedNext s p != some q)))

/-- COMMAND_FETCH: the entry at the head of a queue (R364, R365, R371; Table 13.11 FETCH_ERR). -/
def commandFetchOp (p : Part) (q : Queue) (s : State) : State :=
  let x := partOf s p.val
  let k := sqOf x q.val
  if !sqHas x q.val || (x.flushing && k.flushTo.isNone) || s.pwr.entering.isSome || !padFree s k.base.toNat ||
      !padFree s (cqOf x q.val).base.toNat then s
  else if !cqRoom x q.val then modSq p.val q.val (fun y => { y with cqWait := true }) s
  else
    let a := k.base.toNat + 64 * k.head
    let e := sqEntry s p.val q.val
    if (memTouch a 64 s).2 then
      let s := logCmd p.val q.val (memBytes a 64 s) (partCause p.val 1 (memTouch a 64 s).1)
      let s := takeEntry p.val q.val true s
      let st := firstStatus stCheckFail ((forced x q.val true).getD stCheckFail)
      complete { p := p, q := q, cid := 0, sqHead := (sqOf (partOf s p.val) q.val).head, instr := false, cqGen := (cqOf x q.val).gen } st 0 s
    else if (forced x q.val true).isNone && onSequencer e.2 && startGate s p.val q.val e.1 e.2 == .start && servedNext s p.val != some q.val then s
    else takeCmd p q true e.1 e.2 (memBytes a 64 s) s

/-- SQ_DOORBELL (R364). -/
def sqDoorbellOp (p q tail : Nat) (s : State) : State :=
  let k := sqOf (partOf s p) q
  if !k.en then s
  else if k.sizeM1 < tail then violate 8 s
  else noteCommand p (modSq p q (fun y => { y with tail := tail }) s)

/-- CID of the entry at an address; 0 where it cannot be read. -/
def cidAt (s : State) (a : Nat) : Nat := if (memTouch a 64 s).2 then 0 else ofBytes (memBytes a 2 s)

/-- Completes FLUSHED the entries that a disabled queue owes, as far as its completion queue has room and no pad group that it needs is held (R363, R365, spec/16 R437). -/
def payOwed (p q : Nat) : Nat → State → State
  | 0, s => s
  | n + 1, s =>
    match (sqOf (partOf s p) q).owed with
    | [] => s
    | e :: es =>
      if !padFree s (cqOf (partOf s p) q).base.toNat || !(e.2.2.all (padFree s)) then s
      else if !cqRoom (partOf s p) q then modSq p q (fun y => { y with cqWait := true }) s
      else
        let g := (cqOf (partOf s p) q).gen
        let s := modCq p q (fun y => { y with reserved := y.reserved + 1 })
          (modSq p q (fun y => { y with owed := es, outstanding := y.outstanding + 1, cqWait := false }) s)
        payOwed p q n (complete { p := fin 16 p, q := fin 4 q, cid := (e.2.2.map (cidAt s)).getD e.1, sqHead := e.2.1, instr := false, cqGen := g } stFlushed 0 s)

/-- The entries of a queue between head and tail, as CID and head after them, with the address where it is still to be read since its pads are held; one that cannot be read has CID 0. -/
def heldEntries (s : State) (p q : Nat) : List (Nat × Nat × Option Nat) :=
  let k := sqOf (partOf s p) q
  let n := k.sizeM1 + 1
  (List.range ((k.tail + n - k.head % n) % n)).map fun i =>
    let j := (k.head + i) % n
    let a := k.base.toNat + 64 * j
    if padFree s a then (cidAt s a, (j + 1) % n, none) else (0, (j + 1) % n, some a)

/-- Every disabled queue pays what it owes, once its pads are free (spec/16 R437). -/
def payAll (s : State) : State :=
  forAll (s.part.map (·.1)) (fun p s => (List.range 4).foldl (fun s q => payOwed p q (sqOf (partOf s p) q).owed.length s) s) s

/-- CQ_HEAD_DOORBELL (R366). -/
def cqHeadOp (p q head : Nat) (s : State) : State :=
  let k := cqOf (partOf s p) q
  if !k.en then s
  else if k.sizeM1 < head then violate 8 s
  else
    let s := modCq p q (fun y => { y with head := head }) s
    payOwed p q (sqOf (partOf s p) q).owed.length s

/-- A base that lets EN be set (Table 13.13). -/
def queueBaseOk (b : Word) : Bool := (fld 62 2 b == 1 || fld 62 2 b == 3) && fld 0 12 b == 0

/-- A write of word +0x8 of a submission queue (R363): disabling it ends every entry that it still holds. -/
def sqEnableOp (p q : Nat) (v : Word) (s : State) : State :=
  let k := sqOf (partOf s p) q
  if !k.en then
    if bit 63 v && queueBaseOk k.base then
      modSq p q (fun y => { y with en := true, sizeM1 := fld 0 16 v, head := 0, tail := 0, flushTo := none, fenceTo := none, lostTo := none }) s
    else modSq p q (fun y => { y with sizeM1 := fld 0 16 v }) s
  else if bit 63 v then s
  else
    let es := heldEntries s p q
    let s := modSq p q (fun y => { y with en := false, head := y.tail, flushTo := none, fenceTo := none, lostTo := none, owed := y.owed ++ es }) s
    payOwed p q (sqOf (partOf s p) q).owed.length s

/-- A write of word +0x8 of a completion queue (R363). -/
def cqEnableOp (p q : Nat) (v : Word) (s : State) : State :=
  let k := cqOf (partOf s p) q
  let us := fld 48 10 v
  let cnt := fld 40 8 v
  if !k.en then
    if bit 63 v && queueBaseOk k.base then
      modCq p q (fun y => { y with en := true, sizeM1 := fld 0 16 v, coalUs := us, coalCnt := cnt, head := 0, tail := 0, phase := true, reserved := 0, since := 0 }) s
    else modCq p q (fun y => { y with sizeM1 := fld 0 16 v, coalUs := us, coalCnt := cnt }) s
  else if bit 63 v then modCq p q (fun y => { y with coalUs := us, coalCnt := cnt }) s
  else modSq p q (fun y => { y with owed := [] }) (modCq p q (fun y => { y with en := false, coalUs := us, coalCnt := cnt, reserved := 0, since := 0, gen := y.gen + 1 }) s)

/-- UNFENCE (R383). -/
def unfenceOp (p : Nat) (s : State) : State := modPart p (fun x => { x with fenced := false }) s

/-- COAL_US passes (R385). -/
def coalExpiryOp (p q : Nat) (s : State) : State :=
  let k := cqOf (partOf s p) q
  if k.since = 0 then s else sendVec (5 * p + q) (modCq p q (fun y => { y with since := 0 }) s)

end Sys2Proof.Machine
end

