-- ==== Sys2Proof/Machine/RegMap.lean ====
section
/-! DEFINITION. The control window: every register of spec/18 Tables 18.2 to 18.9 by its offset (R464), and what a read of it returns (spec/00 R9 to R12; the field tables of the owning chapters). -/

namespace Sys2Proof.Machine

/-- A register word of the control window. -/
inductive Reg where
  | gid
  | devid
  | gctl
  | gstat
  | cfgDigest
  | digestMis
  | time
  | mode
  | pwrCtl
  | pwrStat
  | wakeSrc
  | padHold
  | hbCtl
  | svcCtl
  | svcStat
  | svcWake
  | mgtCtl
  | mgtStat
  | alertStat
  | keepWord (n : Nat)
  | keepWear (n : Nat)
  | keepLock
  | keepStat
  | vecMap (n : Nat)
  | vecCause
  | portCtl (p : Nat)
  | portLanes (p : Nat)
  | portFec (p : Nat)
  | portLink (p : Nat)
  | portShare (p w : Nat)
  | rankSelf
  | torus
  | xlatSel
  | xlatEnt
  | xlatStat
  | fabricStat
  | memopCtl
  | memopStat
  | jobtag (p : Nat)
  | codeCoef (w : Nat)
  | group (g w : Nat)
  | epoch
  | trainWin
  | outboxBase
  | outboxLevel
  | stormCnt
  | silentFix
  | epochStat
  | regionSel
  | regionEnt (w : Nat)
  | regionStat
  | fidelity
  | unitCheck
  | outboxSize
  | trainStat
  | noticeStat
  | codeStat
  | outboxStall
  | verdictLast
  | straggle
  | rebuildCtl
  | rebuildProg
  | rebuildStat
  | spreadBase
  | spreadSize
  | takeBase
  | takeSize
  | auditCtl
  | auditLap
  | repairCnt
  | reduceMode
  | nonfiniteStat
  | pairedCtl
  | nonfiniteCnt
  | updateStat
  | collTimeout
  | collStat
  | collLast
  | laneFlags (p : Nat)
  | coreMask (p : Nat)
  | tapSlots
  | lateLayer
  | tapStat
  | pfCtl (p : Nat)
  | pubDir (e w : Nat)
  | pageSel
  | pageRec
  | pageStat
  | pageCtl
  | expStat
  | expProg
  | expCopy
  | expHead
  | expTail
  | expCtl
  | scrubCtl
  | scrubLap
  | eccStat
  | eccSplit
  | sramCfg
  | viol (c : Nat)
  | recCtl
  | recBase
  | recPbase
  | recSize
  | recPos
  | recStat
  | psqdb (p q : Nat)
  | pcqhd (p q : Nat)
  | pctl (p : Nat)
  | pstat (p : Nat)
  | pshare (p : Nat)
  | pprogress (p : Nat)
  | ppkey (p : Nat)
  | pimage (p : Nat)
  | pimageId (p : Nat)
  | pstagedId (p : Nat)
  | pseq (p : Nat)
  | psq (p q w : Nat)
  | pcq (p q w : Nat)
  | pacct (p e : Nat)
  | pmwin (p k w : Nat)
  | ptimer (p t w : Nat)
  | pedge (p e : Nat)
  | tally (n w : Nat)
  deriving DecidableEq, Repr

/-! ### Offsets (Tables 18.1 to 18.9) -/

/-- Table 18.2. -/
def regGlobal (o : Nat) : Option Reg :=
  match o with
  | 0x0 => some .gid
  | 0x8 => some .devid
  | 0x10 => some .gctl
  | 0x18 => some .gstat
  | 0x20 => some .cfgDigest
  | 0x28 => some .digestMis
  | 0x30 => some .time
  | 0x38 => some .mode
  | 0x10000 => some .pwrCtl
  | 0x10008 => some .pwrStat
  | 0x10010 => some .wakeSrc
  | 0x10018 => some .padHold
  | 0x10020 => some .hbCtl
  | 0x10100 => some .svcCtl
  | 0x10108 => some .svcStat
  | 0x10110 => some .svcWake
  | 0x10118 => some .mgtCtl
  | 0x10120 => some .mgtStat
  | 0x10128 => some .alertStat
  | _ => none

/-- Table 18.3. -/
def regKeep (o : Nat) : Option Reg :=
  if o < 0x20200 then some (.keepWord ((o - 0x20000) / 8))
  else if o < 0x20400 then some (.keepWear ((o - 0x20200) / 8))
  else if o = 0x20400 then some .keepLock
  else if o = 0x20408 then some .keepStat
  else if 0x30000 ≤ o ∧ o < 0x30300 then some (.vecMap ((o - 0x30000) / 8))
  else if o = 0x30400 then some .vecCause
  else none

/-- Table 18.4. -/
def regFabric (o : Nat) : Option Reg :=
  if o < 0x40800 then
    let p := (o - 0x40000) / 0x100
    match o % 0x100 with
    | 0x00 => some (.portCtl p)
    | 0x08 => some (.portLanes p)
    | 0x10 => some (.portFec p)
    | 0x18 => some (.portLink p)
    | 0x20 => some (.portShare p 0)
    | 0x28 => some (.portShare p 1)
    | 0x30 => some (.portShare p 2)
    | _ => none
  else if 0x42000 ≤ o ∧ o < 0x42080 then some (.jobtag ((o - 0x42000) / 8))
  else match o with
    | 0x41000 => some .rankSelf
    | 0x41008 => some .torus
    | 0x41010 => some .xlatSel
    | 0x41018 => some .xlatEnt
    | 0x41020 => some .xlatStat
    | 0x41028 => some .fabricStat
    | 0x41030 => some .memopCtl
    | 0x41038 => some .memopStat
    | _ => none

/-- Table 18.5. -/
def regCoding (o : Nat) : Option Reg :=
  if o < 0x80040 then some (.codeCoef ((o - 0x80000) / 8))
  else if 0x81000 ≤ o ∧ o < 0x81400 then some (.group ((o - 0x81000) / 0x40) (o % 0x40 / 8))
  else match o with
    | 0x82000 => some .epoch
    | 0x82008 => some .trainWin
    | 0x82010 => some .outboxBase
    | 0x82018 => some .outboxLevel
    | 0x82020 => some .stormCnt
    | 0x82028 => some .silentFix
    | 0x82030 => some .epochStat
    | 0x82038 => some .regionSel
    | 0x82040 => some (.regionEnt 0)
    | 0x82048 => some (.regionEnt 1)
    | 0x82050 => some (.regionEnt 2)
    | 0x82058 => some (.regionEnt 3)
    | 0x82060 => some .regionStat
    | 0x82068 => some .fidelity
    | 0x82070 => some .unitCheck
    | 0x82078 => some .outboxSize
    | 0x82080 => some .trainStat
    | 0x82088 => some .noticeStat
    | 0x82090 => some .codeStat
    | 0x82098 => some .outboxStall
    | 0x85000 => some .verdictLast
    | 0x85008 => some .straggle
    | 0x86000 => some .rebuildCtl
    | 0x86008 => some .rebuildProg
    | 0x86010 => some .rebuildStat
    | 0x86018 => some .spreadBase
    | 0x86020 => some .spreadSize
    | 0x86028 => some .takeBase
    | 0x86030 => some .takeSize
    | 0x87000 => some .auditCtl
    | 0x87008 => some .auditLap
    | 0x87010 => some .repairCnt
    | _ => none

/-- Table 18.6. -/
def regUpdate (o : Nat) : Option Reg :=
  if 0xC0100 ≤ o ∧ o < 0xC0180 then some (.laneFlags ((o - 0xC0100) / 8))
  else if 0xC0200 ≤ o ∧ o < 0xC0280 then some (.coreMask ((o - 0xC0200) / 8))
  else match o with
    | 0xC0000 => some .reduceMode
    | 0xC0008 => some .nonfiniteStat
    | 0xC0010 => some .pairedCtl
    | 0xC0018 => some .nonfiniteCnt
    | 0xC0020 => some .updateStat
    | 0xC0028 => some .collTimeout
    | 0xC0030 => some .collStat
    | 0xC0038 => some .collLast
    | _ => none

/-- Table 18.7. -/
def regTap (o : Nat) : Option Reg :=
  if 0x100100 ≤ o ∧ o < 0x100180 then some (.pfCtl ((o - 0x100100) / 8))
  else if 0x101000 ≤ o ∧ o < 0x101800 then some (.pubDir ((o - 0x101000) / 0x40) (o % 0x40 / 8))
  else match o with
    | 0x100000 => some .tapSlots
    | 0x100008 => some .lateLayer
    | 0x100010 => some .tapStat
    | 0x102000 => some .pageSel
    | 0x102008 => some .pageRec
    | 0x102010 => some .pageStat
    | 0x102018 => some .pageCtl
    | 0x103000 => some .expStat
    | 0x103008 => some .expProg
    | 0x103010 => some .expCopy
    | 0x103018 => some .expHead
    | 0x103020 => some .expTail
    | 0x103028 => some .expCtl
    | _ => none

/-- Table 18.8. -/
def regSram (o : Nat) : Option Reg :=
  if 0x180000 ≤ o ∧ o < 0x180100 then some (.viol ((o - 0x180000) / 8))
  else match o with
    | 0x140000 => some .scrubCtl
    | 0x140008 => some .scrubLap
    | 0x140010 => some .eccStat
    | 0x140018 => some .eccSplit
    | 0x140020 => some .sramCfg
    | 0x1C0000 => some .recCtl
    | 0x1C0008 => some .recBase
    | 0x1C0010 => some .recPbase
    | 0x1C0018 => some .recSize
    | 0x1C0020 => some .recPos
    | 0x1C0028 => some .recStat
    | _ => none

/-- Table 18.9, at an offset within the window of partition p. -/
def regPart (p o : Nat) : Option Reg :=
  if o < 0x20 then some (.psqdb p (o / 8))
  else if 0x40 ≤ o ∧ o < 0x60 then some (.pcqhd p ((o - 0x40) / 8))
  else if 0x180 ≤ o ∧ o < 0x1C0 then some (.psq p ((o - 0x180) / 16) (o % 16 / 8))
  else if 0x1C0 ≤ o ∧ o < 0x200 then some (.pcq p ((o - 0x1C0) / 16) (o % 16 / 8))
  else if 0x200 ≤ o ∧ o < 0x248 then some (.pacct p ((o - 0x200) / 8))
  else if 0x300 ≤ o ∧ o < 0x340 then some (.pmwin p ((o - 0x300) / 16) (o % 16 / 8))
  else if 0x400 ≤ o ∧ o < 0x800 then some (.ptimer p ((o - 0x400) / 16) (o % 16 / 8))
  else if 0x800 ≤ o ∧ o < 0x900 then some (.pedge p ((o - 0x800) / 8))
  else match o with
    | 0x100 => some (.pctl p)
    | 0x108 => some (.pstat p)
    | 0x110 => some (.pshare p)
    | 0x118 => some (.pprogress p)
    | 0x120 => some (.ppkey p)
    | 0x128 => some (.pimage p)
    | 0x130 => some (.pimageId p)
    | 0x138 => some (.pstagedId p)
    | 0x140 => some (.pseq p)
    | _ => none

/-- The register at an offset that is a multiple of 8 (R464). -/
def regAt (o : Nat) : Option Reg :=
  if o % 8 ≠ 0 then none
  else if o < 0x20000 then regGlobal o
  else if o < 0x40000 then regKeep o
  else if o < 0x80000 then regFabric o
  else if o < 0xC0000 then regCoding o
  else if o < 0x100000 then regUpdate o
  else if o < 0x140000 then regTap o
  else if o < 0x200000 then regSram o
  else if 0x400000 ≤ o ∧ o < 0x500000 then regPart ((o - 0x400000) / 0x10000) (o % 0x10000)
  else if 0x800000 ≤ o ∧ o < 0x840000 then some (.tally ((o - 0x800000) / 16) (o % 16 / 8))
  else none

/-! ### Reading -/

def portStateCode : PortState → Nat
  | .off => 0
  | .seek => 1
  | .lock => 2
  | .align => 3
  | .train => 4
  | .up => 5
  | .hold => 6
  | .lowrate => 7
  | .down => 8

def laneCode : LaneState → Nat
  | .off => 0
  | .seek => 1
  | .lock => 2
  | .active => 3
  | .cal => 4
  | .spare => 5
  | .failed => 6
  | .lowrate => 7

def laneOf (x : PortSt) (l : Nat) : LaneState := SMap.look .off x.lane l

/-- Lanes that carry traffic (Table 8.10). -/
def carrying (x : PortSt) : Nat := ((List.range 17).filter fun l => laneOf x l == .active || laneOf x l == .lowrate).length

def pwrStateCode : PwrState → Nat
  | .run => 0
  | .idle => 1
  | .sleep => 2
  | .deep => 3
  | .off => 4

def seqCode : SeqState → Nat
  | .dispatch => 0
  | .run => 1
  | .wait => 2
  | .long => 3
  | .handler => 4
  | .noImage => 5

/-- State shown by TKJ_P_SEQ: a sequencer that only retries its instruction reads RUN or HANDLER (Table 9.1). -/
def seqShown (x : PartSt) : Nat :=
  match x.wait with
  | some .stall => if x.inH then 4 else 1
  | _ => seqCode x.seq

/-- TKJ_PORT_CTL (Table 8.10); CAL_EN and REPLAY_NS read as last written (R467). -/
def portCtlWord (x : PortSt) : Word :=
  let d := deferRead x.ctl
  wordOf [(1, b2n x.en), (6, 0), (1, b2n (bit 7 d)), (8, 0), (16, fld 16 16 d), (20, 0), (1, b2n x.miswired), (1, b2n x.laserLow),
    (1, b2n x.spareUsed), (5, carrying x), (4, portStateCode x.state)]

/-- LIMIT of the tap share (R314); 128 where HOST_BW is tied to 0, for which the formula gives no value (DESIGN CHOICE, log 200). -/
def tapLimit (s : State) : Nat := min 128 (if s.fuse.hostBw = 0 then 128 else 1200 * 256 / s.fuse.hostBw)

def coefWord (w : Nat) : Word :=
  wordOf ((List.range 8).map fun k => (8, (coef (w / 2) (8 * (w % 2) + k)).toNat))

def reducedWord (s : State) : Word := wordOf [(1, b2n (bit 0 (deferRead s.upd.reduceMode))), (31, 0), (9, ordSeg s)]

def pubWord (e : Pub) (w : Nat) : Word :=
  match w with
  | 0 => wordOf [(40, e.elems), (8, e.format), (7, 0), (1, b2n e.bad), (2, e.hint), (1, b2n e.writing), (1, b2n e.pend), (1, b2n e.pubStep),
      (2, e.kind), (1, b2n e.valid)]
  | 1 => e.bayA
  | 2 => e.bayB
  | 3 => wordOf [(14, e.vtally), (34, 0), (4, e.owner)]
  | 4 => wordOf [(16, e.readersB), (16, 0), (16, e.readersA)]
  | 5 => wordOf [(32, e.epochB), (32, e.epochA)]
  | 6 => e.cnt
  | _ => 0

def timerWord (t : Timer) (w : Nat) : Word :=
  if w = 0 then BitVec.ofNat 64 t.deadline
  else wordOf [(40, t.period), (8, 0), (12, t.missed), (1, b2n t.expired), (1, b2n t.evt), (1, b2n t.periodic), (1, b2n t.en)]

def tallyWord (t : Tally) (w : Nat) : Word :=
  if w = 0 then wordOf [(32, t.count.toNat), (20, 0), (4, t.owner), (6, 0), (1, b2n t.owned), (1, b2n (reached t))]
  else wordOf [(32, t.target.toNat), (30, 0), (1, b2n t.evt), (1, b2n t.genWait)]

def edgeWord (s : State) (e : Edge) : Word :=
  wordOf [(14, e.sel), (10, 0), (3, e.src), (5, 0), (16, e.count), (11, 0), (1, b2n e.evt), (2, e.kind), (1, b2n (edgeLevel s e)), (1, b2n e.latched)]

/-- TKJ_P_STAT (Table 13.11). -/
def pstatWord (s : State) (p : Nat) : Word :=
  let x := partOf s p
  let cw := ((List.range 4).filter fun q => (sqOf x q).cqWait).foldl (fun a q => a + 2 ^ q) 0
  wordOf [(8, x.causes), (48, 0), (4, cw), (1, b2n (isStepPart s p)), (1, b2n x.fenced), (1, b2n x.resetting), (1, b2n x.flushing)]

/-- TKJ_P_PROGRESS (Table 9.13). -/
def progressWord (x : PartSt) : Word :=
  let g := x.progress
  wordOf [(40, g.count), (4, 0), (8, g.op), (4, g.cls), (6, 0), (1, b2n g.susp), (1, b2n g.valid)]

/-- Pages with a property, over the pool. -/
def pagesWith (s : State) (f : Page → Bool) : Nat := (s.page.recs.filter fun x => f x.2).length

/-- Free pages (R338): the pool less those whose record keeps them out. -/
def freePages (s : State) : Nat :=
  let n := min (pageTotal s) Config.maxPages
  n - ((s.page.recs.map (·.1) ++ cutPages s).eraseDups.filter fun k => decide (k < n) && !pageFree s k).length

/-- The current pass of a schedule: the lowest whose transfers have not all arrived, and the last one once they have (R344; DEDUCED, log 178). -/
def pfPass (f : Pf) : Nat :=
  let n := match f.entries.map (·.pass) with
    | [] => 0
    | q :: qs => qs.foldl min q
  if f.passes = 0 then n else min n (f.passes - 1)

/-- Nanoseconds of port transmission charged to partition p: a port sends 375 frame bytes in one (spec/08 R245, spec/13 R379; DEDUCED, log 26). -/
def portNs (s : State) (p : Nat) : Nat := ((s.port.map fun x => SMap.look 0 x.2.sent p).sum) / 375

/-- What a 64-bit read of a register returns (the field tables of the owning chapters). -/
def readReg (s : State) (r : Reg) : Word :=
  match r with
  | .gid => wordOf [(32, s.fuse.build.toNat), (8, gradeCode s), (8, 2), (16, 0x7C4A)]
  | .devid => s.fuse.identity
  | .gctl => 0
  | .gstat => wordOf [(8, s.clk.gstatCause), (52, 0), (3, s.clk.rstCause), (1, b2n s.clk.ready)]
  | .cfgDigest => cfgDigest s
  | .digestMis => wordOf [(32, s.dig.count), (24, 0), (8, s.dig.ports)]
  | .time => BitVec.ofNat 64 s.clk.time
  | .mode => wordOf [(1, b2n (pendLast s.mode.chervil s.mode.chervilNext)), (1, b2n s.mode.compat), (14, 0), (32, s.mode.tableCrc.toNat), (13, 0),
      (1, b2n s.mode.tableNext.isSome), (1, b2n s.mode.table.isSome), (1, b2n (!s.mode.chervilNext.isEmpty))]
  | .pwrCtl =>
    let d := deferRead s.pwr.ctl
    wordOf [(3, s.pwr.req), (5, 0), (1, b2n (bit 8 d)), (7, 0), (16, fld 16 16 d), (28, 0), (3, s.pwr.cause), (1, b2n s.pwr.refused)]
  | .pwrStat => wordOf [(32, idleUs s), (16, s.pwr.aborts), (8, 0), (1, b2n s.pwr.quiet), (3, s.pwr.step), (1, b2n s.pwr.entering.isSome),
      (3, pwrStateCode s.pwr.state)]
  | .wakeSrc => wordOf [(5, s.pwr.wakeSrc), (53, 0), (3, s.pwr.abortPt), (3, s.pwr.wakeFrom)]
  | .padHold => BitVec.ofNat 64 (s.pwr.padHold % 32)
  | .hbCtl =>
    let sus := ((List.range 8).filter fun p => (portOf s p).suspect).foldl (fun a p => a + 2 ^ p) 0
    let lost := ((List.range 8).filter fun p => (portOf s p).lockLoss).foldl (fun a p => a + 2 ^ p) 0
    wordOf [(8, s.tar.hbEn), (24, 0), (8, lost), (8, sus), (16, s.tar.hbMissed)]
  | .svcCtl => wordOf [(63, 0), (1, b2n s.side.full)]
  | .svcStat => s.side.svcStat
  | .svcWake => 0
  | .mgtCtl => s.side.mgtCtl
  | .mgtStat => wordOf [(48, fld 0 48 s.side.mgtStat), (7, 0), (1, b2n s.side.driving), (1, b2n s.side.stuck), (7, mgtAddr s)]
  | .alertStat => BitVec.ofNat 64 (s.side.alert % 1024)
  | .keepWord n => keepWord s n
  | .keepWear n =>
    let c := SMap.look 0 s.keep.count n
    wordOf [(32, c), (30, 0), (1, b2n (SMap.look false s.keep.verifyFail n)), (1, b2n (decide (1000000 ≤ c)))]
  | .keepLock => s.keep.lock
  | .keepStat =>
    let w := match s.keep.busy with
      | some x => x.1
      | none => s.keep.last
    wordOf [(32, s.keep.drop), (6, w), (24, 0), (1, b2n s.keep.snap), (1, b2n s.keep.busy.isSome)]
  | .vecMap n => wordOf [(11, (vecOf s n).entry), (50, 0), (1, b2n (vecOf s n).pend), (1, b2n (vecOf s n).mask)]
  | .vecCause => BitVec.ofNat 64 (s.msg.cause % 1024)
  | .portCtl p => portCtlWord (portOf s p)
  | .portLanes p => wordOf ((List.range 17).map (fun l => (3, laneCode (laneOf (portOf s p) l))) ++ [(5, (portOf s p).spareFor)])
  | .portFec p => (portOf s p).fec
  | .portLink p => (portOf s p).link
  | .portShare p w => match w with
    | 0 => deferRead (portOf s p).share0
    | 1 => deferRead (portOf s p).share1
    | _ => deferRead (portOf s p).share2
  | .rankSelf => wordOf [(17, selfRank s), (17, s.fab.coord), (17, (aliasNow s).getD 0), (12, 0), (1, b2n (aliasNow s).isSome)]
  | .torus => s.fab.torus
  | .xlatSel => BitVec.ofNat 64 s.fab.xlatIndex
  | .xlatEnt => s.fab.xlatEnt
  | .xlatStat => wordOf [(13, Config.xlatEntries - xlatFree s), (19, 0), (16, s.fab.unmapped), (14, 0), (1, b2n (decide (xlatFree s < 128)))]
  | .fabricStat => s.fab.stat
  | .memopCtl => s.fab.memopCtl
  | .memopStat => s.fab.memopStat
  | .jobtag p => wordOf [(16, (partOf s p).tag), (4, (partOf s p).gen), (43, 0), (1, b2n (partOf s p).bound)]
  | .codeCoef w => coefWord w
  | .group g w => groupWord (grpOf s g) w
  | .epoch => epochWord s
  | .trainWin => deferRead s.cod.trainWin
  | .outboxBase => s.cod.outboxBase
  | .outboxLevel => wordOf [(20, cdiv (outboxLevel s) 1048576), (20, s.cod.peak), (22, 0), (1, b2n (pathHolds s)), (1, b2n !s.cod.stalls.isEmpty)]
  | .stormCnt => s.tar.storm
  | .silentFix => s.aud.silent
  | .epochStat => s.ep.stat
  | .regionSel => BitVec.ofNat 64 s.reg.index
  | .regionEnt w => SMap.look 0 s.reg.ent w
  | .regionStat => wordOf [(32, s.reg.refuseCnt), (26, 0), (4, s.reg.cause), (1, b2n s.reg.refused)]
  | .fidelity => wordOf [(14, s.fid.region), (17, s.fid.rank), (1, b2n s.fid.valid), (32, s.fid.epoch)]
  | .unitCheck => s.cod.unitCheck
  | .outboxSize => s.cod.outboxSize
  | .trainStat => s.cod.trainStat
  | .noticeStat => s.cod.noticeStat
  | .codeStat => setFld 56 8 s.ep.attempt s.cod.codeStat
  | .outboxStall => s.cod.outboxStall
  | .verdictLast => s.tar.verdict
  | .straggle => setFld 20 22 (s.tar.slow.foldl (fun m x => m ||| 2 ^ x.2) 0) (deferRead s.tar.straggle)
  | .rebuildCtl =>
    let d := deferRead s.reb.ctl
    wordOf [(17, s.reb.failedRank), (34, 0), (7, fld 51 7 d), (2, fld 58 2 d), (2, s.reb.role), (1, b2n (bit 62 d)), (1, b2n s.reb.active)]
  | .rebuildProg => wordOf [(32, s.reb.total), (32, s.reb.doneCnt)]
  | .rebuildStat => s.reb.stat
  | .spreadBase => s.reb.spreadBase
  | .spreadSize => s.reb.spreadSize
  | .takeBase => s.reb.takeBase
  | .takeSize => s.reb.takeSize
  | .auditCtl =>
    let d := deferRead s.aud.ctl
    wordOf [(7, fld 0 7 d), (55, 0), (1, b2n (s.aud.running && !auditPaused s)), (1, b2n (bit 63 d))]
  | .auditLap => s.aud.lap
  | .repairCnt => s.aud.repairCnt
  | .reduceMode => reducedWord s
  | .nonfiniteStat => s.upd.nonfiniteStat
  | .pairedCtl => setFld 0 16 (fld 0 16 (deferRead s.upd.pairedEn)) s.upd.pairedCnt
  | .nonfiniteCnt => s.upd.nonfiniteCnt
  | .updateStat => s.upd.updateStat
  | .collTimeout => deferRead s.coll.timeout
  | .collStat => s.coll.stat
  | .collLast => s.coll.last
  | .laneFlags p => BitVec.ofNat 64 ((partOf s p).laneFlags % 64)
  | .coreMask p => BitVec.ofNat 64 (coreMaskOf s p)
  | .tapSlots => wordOf [(8, fld 0 8 (deferRead s.tap.slots)), (8, tapLimit s), (32, 0), (16, s.fuse.hostBw)]
  | .lateLayer => s.tap.late
  | .tapStat => s.tap.stat
  | .pfCtl p =>
    let f := (partOf s p).pf
    wordOf [(32, pfPass f), (29, 0), (1, b2n f.fault), (1, b2n f.stopping), (1, b2n f.armed)]
  | .pubDir e w => pubWord (pubOf s e) w
  | .pageSel => BitVec.ofNat 64 s.page.sel
  | .pageRec => s.page.recReg
  | .pageStat => wordOf [(16, s.page.noroom), (24, pagesWith s (·.lost)), (24, freePages s)]
  | .pageCtl => wordOf [(32, s.page.copies), (16, s.page.ignored)]
  | .expStat => wordOf [(32, s.exp.epoch), (25, 0), (4, s.exp.cause), (3, s.exp.state)]
  | .expProg => wordOf [(32, min s.exp.totalU 0xFFFFFFFF), (32, min s.exp.doneU 0xFFFFFFFF)]
  | .expCopy => wordOf [(16, cdiv s.exp.store.length 256), (16, s.exp.peak), (32, s.exp.copies)]
  | .expHead => BitVec.ofNat 64 s.exp.head
  | .expTail => BitVec.ofNat 64 s.exp.tail
  | .expCtl => BitVec.ofNat 64 s.exp.mbps
  | .scrubCtl => wordOf [(16, s.sram.limitS), (45, 0), (1, b2n s.sram.slow), (1, b2n (s.sram.running && s.sram.en && coreUp s && !splitOn s && maintSlot s 0)), (1, b2n s.sram.en)]
  | .scrubLap => s.sram.lap
  | .eccStat => s.sram.ecc
  | .eccSplit => setFld 0 43 0 s.sram.split
  | .sramCfg => wordOf [(31, 0), (1, b2n s.sram.conflict), (16, 96), (16, 160)]
  | .viol c => BitVec.ofNat 64 (SMap.look 0 s.viol c)
  | .recCtl => wordOf [(2, s.rcd.op), (1, b2n s.rcd.atCommit), (1, b2n s.rcd.wrap), (1, b2n s.rcd.payload), (55, 0), (1, b2n s.rcd.done),
      (1, b2n s.rcd.refused), (1, b2n s.rcd.full), (1, b2n s.rcd.active)]
  | .recBase => s.rcd.base
  | .recPbase => s.rcd.pbase
  | .recSize => s.rcd.size
  | .recPos => wordOf [(48, min s.rcd.pos (2 ^ 48 - 1))]
  | .recStat => s.rcd.stat
  | .psqdb p q => wordOf [(16, (sqOf (partOf s p) q).tail), (32, 0), (16, (sqOf (partOf s p) q).head)]
  | .pcqhd p q =>
    let k := cqOf (partOf s p) q
    wordOf [(16, k.head), (31, 0), (1, b2n k.phase), (16, k.tail)]
  | .pctl p => wordOf [(60, 0), (1, b2n (partOf s p).admin), (2, 0), (1, b2n (partOf s p).resetting)]
  | .pstat p => pstatWord s p
  | .pshare p => deferRead (partOf s p).share
  | .pprogress p => progressWord (partOf s p)
  | .ppkey p => BitVec.ofNat 64 (partOf s p).progress.key.toNat
  | .pimage p =>
    let x := partOf s p
    let n := match x.image with
      | some m => m.words.length - 1
      | none => 0
    wordOf [(14, n), (43, 0), (4, x.imgCause), (1, b2n x.imgRefused), (1, 0), (1, b2n x.staged.isSome)]
  | .pimageId p => activeId s p
  | .pstagedId p => match (partOf s p).staged with
    | some m => m.id
    | none => 0
  | .pseq p =>
    let x := partOf s p
    wordOf [(14, x.pc), (2, 0), (16, x.emask), (16, x.epend), (12, 0), (1, b2n x.eie), (3, seqShown x)]
  | .psq p q w =>
    let k := sqOf (partOf s p) q
    if w = 0 then k.base else wordOf [(16, k.sizeM1), (47, 0), (1, b2n k.en)]
  | .pcq p q w =>
    let k := cqOf (partOf s p) q
    if w = 0 then k.base else wordOf [(16, k.sizeM1), (24, 0), (8, k.coalCnt), (10, k.coalUs), (5, 0), (1, b2n k.en)]
  | .pacct p e => BitVec.ofNat 64 (if e = 8 then portNs s p else SMap.look 0 (partOf s p).acct e)
  | .pmwin p k w =>
    let m := SMap.look {} (partOf s p).mwin k
    if w = 0 then m.w0 else m.w1
  | .ptimer p t w => timerWord (timerOf (partOf s p) t) w
  | .pedge p e => edgeWord s (edgeOf (partOf s p) e)
  | .tally n w => tallyWord (tallyOf s n) w

/-! ### RC fields (R10, spec/17 R451) -/

/-- The RC fields of a register: place and width. -/
def rcFields (r : Reg) : List (Nat × Nat) :=
  match r with
  | .digestMis => [(0, 32)]
  | .pwrStat => [(32, 16), (0, 32)]
  | .hbCtl => [(48, 16)]
  | .svcStat => [(48, 16), (32, 16), (16, 16), (0, 16)]
  | .mgtStat => [(32, 16), (16, 16), (8, 8), (0, 8)]
  | .keepStat => [(0, 32)]
  | .portFec _ => [(32, 32), (16, 16), (0, 16)]
  | .portLink _ => [(48, 16), (32, 16), (16, 16), (0, 16)]
  | .xlatStat => [(32, 16)]
  | .fabricStat => [(48, 16), (32, 16), (16, 16), (8, 8), (0, 8)]
  | .memopStat => [(48, 16), (32, 16), (16, 16), (0, 16)]
  | .stormCnt => [(32, 32), (0, 32)]
  | .silentFix => [(32, 32), (0, 32)]
  | .epochStat => [(32, 32), (0, 32)]
  | .regionStat => [(0, 32)]
  | .unitCheck => [(48, 16), (32, 16), (16, 16), (0, 16)]
  | .trainStat => [(48, 16), (32, 16), (16, 16), (0, 16)]
  | .noticeStat => [(48, 16), (32, 16), (16, 16), (0, 16)]
  | .codeStat => [(32, 16), (16, 16), (0, 16)]
  | .outboxStall => [(32, 32), (0, 32)]
  | .verdictLast => [(32, 12)]
  | .rebuildStat => [(48, 16), (32, 16)]
  | .auditLap => [(32, 32)]
  | .repairCnt => [(32, 32), (0, 32)]
  | .nonfiniteStat => [(0, 16)]
  | .pairedCtl => [(32, 16), (16, 16)]
  | .nonfiniteCnt => [(48, 16), (32, 16), (0, 32)]
  | .updateStat => [(32, 32), (0, 32)]
  | .collStat => [(48, 16), (32, 16), (16, 16), (0, 16)]
  | .lateLayer => [(0, 32)]
  | .tapStat => [(48, 16), (32, 16), (0, 32)]
  | .pubDir _ w => if w = 6 then [(32, 32), (16, 16), (0, 16)] else []
  | .pageStat => [(0, 16)]
  | .pageCtl => [(32, 16), (0, 32)]
  | .expCopy => [(32, 32)]
  | .scrubLap => [(32, 32)]
  | .eccStat => [(48, 16), (32, 16)]
  | .viol _ => [(0, 32)]
  | .recStat => [(32, 32), (16, 16), (0, 16)]
  | .ptimer _ _ w => if w = 1 then [(48, 12)] else []
  | _ => []

/-- A counter word less the counts that a read returned. -/
def lessRead (fs : List (Nat × Nat)) (v : Word) (w : Word) : Word :=
  fs.foldl (fun w f => setFld f.1 f.2 (fld f.1 f.2 w - fld f.1 f.2 v) w) w

/-- Takes from the RC fields of a register the counts that a read returned; with the value just read they become 0 (R10, R451). -/
def rcTake (r : Reg) (v : Word) (s : State) : State :=
  let fs := rcFields r
  let z := lessRead fs v
  match r with
  | .digestMis => { s with dig := { s.dig with count := s.dig.count - fld 0 32 v } }
  | .pwrStat => { s with pwr := { s.pwr with aborts := s.pwr.aborts - fld 32 16 v, idleNs := idleTime s - 1000 * fld 0 32 v, idleSince := s.clk.wall } }
  | .hbCtl => { s with tar := { s.tar with hbMissed := s.tar.hbMissed - fld 48 16 v } }
  | .svcStat => { s with side := { s.side with svcStat := z s.side.svcStat } }
  | .mgtStat => { s with side := { s.side with mgtStat := z s.side.mgtStat } }
  | .keepStat => { s with keep := { s.keep with drop := s.keep.drop - fld 0 32 v } }
  | .portFec p => modPort p (fun x => { x with fec := z x.fec }) s
  | .portLink p => modPort p (fun x => { x with link := z x.link }) s
  | .xlatStat => { s with fab := { s.fab with unmapped := s.fab.unmapped - fld 32 16 v } }
  | .fabricStat => { s with fab := { s.fab with stat := z s.fab.stat } }
  | .memopStat => { s with fab := { s.fab with memopStat := z s.fab.memopStat } }
  | .stormCnt => { s with tar := { s.tar with storm := z s.tar.storm } }
  | .silentFix => { s with aud := { s.aud with silent := z s.aud.silent } }
  | .epochStat => { s with ep := { s.ep with stat := z s.ep.stat } }
  | .regionStat => { s with reg := { s.reg with refuseCnt := s.reg.refuseCnt - fld 0 32 v } }
  | .unitCheck => { s with cod := { s.cod with unitCheck := z s.cod.unitCheck } }
  | .trainStat => { s with cod := { s.cod with trainStat := z s.cod.trainStat } }
  | .noticeStat => { s with cod := { s.cod with noticeStat := z s.cod.noticeStat } }
  | .codeStat => { s with cod := { s.cod with codeStat := z s.cod.codeStat } }
  | .outboxStall => { s with cod := { s.cod with outboxStall := z s.cod.outboxStall } }
  | .verdictLast => { s with tar := { s.tar with verdict := z s.tar.verdict } }
  | .rebuildStat => { s with reb := { s.reb with stat := z s.reb.stat } }
  | .auditLap => { s with aud := { s.aud with lap := z s.aud.lap } }
  | .repairCnt => { s with aud := { s.aud with repairCnt := z s.aud.repairCnt } }
  | .nonfiniteStat => { s with upd := { s.upd with nonfiniteStat := z s.upd.nonfiniteStat } }
  | .pairedCtl => { s with upd := { s.upd with pairedCnt := z s.upd.pairedCnt } }
  | .nonfiniteCnt => { s with upd := { s.upd with nonfiniteCnt := z s.upd.nonfiniteCnt } }
  | .updateStat => { s with upd := { s.upd with updateStat := z s.upd.updateStat } }
  | .collStat => { s with coll := { s.coll with stat := z s.coll.stat } }
  | .lateLayer => { s with tap := { s.tap with late := z s.tap.late } }
  | .tapStat => { s with tap := { s.tap with stat := z s.tap.stat } }
  | .pubDir e w => if w = 6 then modPub e (fun x => { x with cnt := z x.cnt }) s else s
  | .pageStat => { s with page := { s.page with noroom := s.page.noroom - fld 0 16 v } }
  | .pageCtl => { s with page := { s.page with ignored := s.page.ignored - fld 32 16 v, copies := s.page.copies - fld 0 32 v } }
  | .expCopy => { s with exp := { s.exp with copies := s.exp.copies - fld 32 32 v } }
  | .scrubLap => { s with sram := { s.sram with lap := z s.sram.lap } }
  | .eccStat => { s with sram := { s.sram with ecc := z s.sram.ecc } }
  | .viol c => { s with viol := SMap.put s.viol c (SMap.look 0 s.viol c - fld 0 32 v) }
  | .recStat => { s with rcd := { s.rcd with stat := z s.rcd.stat } }
  | .ptimer p t w => if w = 1 then modTimer p t (fun x => { x with missed := x.missed - fld 48 12 v }) s else s
  | _ => s

/-- Whether the control window answers: before READY only TKJ_ID and TKJ_GSTAT read, and no write is taken (R440); the domains of the ports run (R439, R448, R456). -/
def portsUp (s : State) : Bool := s.clk.pwrGood && vigilUp s

/-- What a read returns at this moment (R440). -/
def readNow (s : State) (r : Reg) : Word := if s.clk.ready || r == .gid || r == .gstat then readReg s r else 0

end Sys2Proof.Machine
end

