-- ==== Sys2Proof/Machine/Link.lean ====
section
/-! DEFINITION. Ports and links: lane bring-up (spec/08 R247), calibration (R248), lane failures (R249), HOLD (R232), flits and replay (R244 to R246), laser light (R247), heartbeats (spec/07 R179, R180) and the digest comparison (spec/13 R388), WAKE frames (R226), frames held at their first hop (R231). -/

namespace Sys2Proof.Machine

/-- TKJ_TIME moves on, in its steps of 40 ns (spec/09 R276), to the first at or past a moment that has come, and the core by 80 cycles a step while it runs (DESIGN CHOICE, log 9). -/
def timeTo (t : Nat) (s : State) : State :=
  let n := cdiv (t - s.clk.time) 40
  coreOn (80 * n) { s with clk := { s.clk with time := s.clk.time + 40 * n, wall := s.clk.wall + 40 * n } }

/-- Time passes to the first step of 40 ns at or past a moment of the block's own clock, which no write of TKJ_TIME moves (DESIGN CHOICE, log 9). -/
def wallTo (t : Nat) (s : State) : State := timeTo (s.clk.time + (t - s.clk.wall)) s

/-- The core moves on by n cycles of 2.0 GHz, and TKJ_TIME by one step for every 80 of them (DESIGN CHOICE, log 9). -/
def cyclesOn (n : Nat) (s : State) : State :=
  let d := 40 * ((coreCount s + n) / 80 - coreCount s / 80)
  coreOn n { s with clk := { s.clk with time := s.clk.time + d, wall := s.clk.wall + d } }

/-! ### Lanes -/

def setLanes (ls : List Nat) (l : LaneState) (x : PortSt) : PortSt := { x with lane := ls.foldl (fun m n => SMap.put m n l) x.lane }

/-- Lanes that take part in bring-up or traffic: those that have not failed (R249). -/
def goodLanes (x : PortSt) : List Nat := (List.range 17).filter fun l => laneOf x l != .failed

/-- Lanes that carry traffic once the port is up: the first sixteen, with the spare for a failed one (R247, R249). -/
def portLanesUp (x : PortSt) : PortSt :=
  let active := (goodLanes x).filter (· < 16)
  let x := setLanes active .active x
  if laneOf x 16 == .failed then x
  else if x.spareFor < 16 then setLanes [16] .active x else setLanes [16] .spare x

/-- Bring-up starts from SEEK; lanes that had failed return (R249), link numbering starts at 0, and what the transmitter held is lost (DESIGN CHOICE, log 162). -/
def portSeek (x : PortSt) : PortSt :=
  { setLanes (List.range 17) .seek x with
    state := .seek, spareUsed := false, spareFor := 31, miswired := false, rxNext := 0, txNext := 0, txAck := 0, replays := 0
    retrain := false, cal := none, buf := [], ready := [], fixes := [], rxOpen := [], spent := [], before := none }

/-- All lanes dark. -/
def portDark (x : PortSt) : PortSt :=
  { setLanes (List.range 17) .off x with state := .off, cal := none, retrain := false, before := none }

/-- Whether a port is in service in some way. -/
def portInService (x : PortSt) : Bool := x.state == .up || x.state == .hold || x.state == .lowrate

/-- A suspect on the neighbour of a port, by the record of that port (R180). -/
def suspectPort (p cause : Nat) (s : State) : State :=
  match (portOf s p).record with
  | none => s
  | some r =>
    if (portOf s p).quietPeer || s.tar.quiet.contains r.rank || keyFailed s r.rank r.inc || s.ep.phase = 0 then s
    else raiseSuspect r.rank r.inc cause (modPort p (fun x => { x with suspect := true }) s)

/-- The port loses lock on every lane (R249, Table 7.2): none carries traffic any longer, and those that have not failed look for the grid again (Table 8.10; DEDUCED, log 196). -/
def portDown (p : Nat) (s : State) : State :=
  suspectPort p 1 (modPort p (fun x => { setLanes (goodLanes x) .seek x with state := .down, lockLoss := true, cal := none, retrain := false }) s)

/-- The operation to which a frame of this block belongs completes PORT_NOT_READY; a collective reports it to its root (spec/06 R173). -/
def frameFails (f : Frame) (s : State) : State :=
  match f.body with
  | .mem m =>
    let p := m.spart.val
    if f.hdr.typ ≠ 9 ∨ m.op = 13 then s
    else match (partOf s p).ops.find? (fun o => match o.kind with
        | .remote r q _ _ _ => translate s r == some f.hdr.destCoord && q == m.opseq || r == f.hdr.destRank && q == m.opseq
        | _ => false) with
      | some o => remoteEnd p o stPortNotReady [] s
      | none => s
  | .copy c => match findCopy s f.hdr.part f.hdr.destRank c.copyId with
      | some o => slotOutcome f.hdr.part o stPortNotReady 0 (dropOp f.hdr.part o s)
      | none => s
  | .chunk c => match findColl s c.part c.axes c.seq with
    | some c => collReport c stPortNotReady s
    | none => s
  | _ => s

/-- Frames that wait for a port leave by it; where nothing is in service their operations end (R231). -/
def releaseFirstHop (p : Nat) (s : State) : State :=
  let mine := s.fab.held.filter fun x => x.1 == p
  mine.foldl (fun s x => let (s', ok) := route none p x.2 s; if ok then s' else frameFails x.2 s')
    { s with fab := { s.fab with held := s.fab.held.filter fun x => x.1 != p } }

/-- Whether an entry to a power state took the port from HOLD. -/
def heldBefore (x : PortSt) : Bool := x.before.map (·.1) == some .hold

/-- The port at which a link of port p must end (R215). -/
def farPort (p : Nat) : Nat := if p % 2 = 0 then p + 1 else p - 1

/-- Whether a link ends where R215 has it: at the port opposite to port p, of the neighbour. -/
def wiredRight (s : State) (p : Nat) (peer : PeerInfo) : Bool := peer.port.val == farPort p && peer.coord == neighbour s p

/-- Whether the ports run lane 0 at low rate only: in SLEEP, until its exit begins (spec/16 Tables 16.1 and 16.3). -/
def lowRate (s : State) : Bool := s.pwr.state == .sleep && s.pwr.pendingWake == 0

/-- Whether the clocks of the ports run: not in DEEP, until its exit begins (spec/16 Table 16.1). -/
def portClocks (s : State) : Bool := !(s.pwr.state == .deep && s.pwr.pendingWake == 0)

/-- Whether the neighbour at a port may go by either of two ranks: an exception entry maps one of them to its coordinate, beside that of the other (R220). -/
def sameBlock (s : State) (p a b : Nat) : Bool :=
  let here (r : Nat) := translate s r == some (neighbour s p)
  here a && here b && (xlatFind s a).isSome != (xlatFind s b).isSome

/-- Lanes that a bring-up or a retrain drives: in SLEEP lane 0 alone (spec/16 Tables 16.1 and 16.2). -/
def drivenLanes (s : State) (x : PortSt) : List Nat := if lowRate s then [0] else goodLanes x

/-- A port begins its bring-up: with every lane, in SLEEP with lane 0 alone, and in DEEP not at all (spec/16 Tables 16.1 and 16.2). -/
def portBegin (s : State) (x : PortSt) : PortSt :=
  if !portClocks s then x else if lowRate s then { portSeek x with lane := SMap.put x.lane 0 .seek } else portSeek x

/-- TRAIN ends: R215, and the identity and incarnation checks of R180 and R444; a port that a closure marked, or that was in HOLD before a retrain or a power state, goes to HOLD, and one that R444 holds stays there until an admission (R232; spec/16 R434, R444); in SLEEP it runs lane 0 at low rate, and the other lanes stay as they were (R436). -/
def portTrained (p : Nat) (peer : PeerInfo) (s : State) : State :=
  let s := modPort p (fun x => { x with peer := some peer }) s
  if (wiredPorts s).contains p && !wiredRight s p peer then
    let s := modPort p (fun x => { x with miswired := true }) s
    { s with fab := { s.fab with stat := bump 0 8 s.fab.stat } }
  else
    let up (st : PortState) (s : State) : State :=
      let low := lowRate s
      let s := updEdges (modPort p (fun x =>
        { (if low then setLanes [0] .lowrate x else portLanesUp x) with
            state := if low then .lowrate else st, miswired := false, lockLoss := false, retrain := false, replays := 0, before := if low then x.before else none
            holdJob := x.holdJob || peer.identity != (x.record.map (·.identity)).getD peer.identity
            holdTill := if st == .hold && !heldBefore x then s.clk.wall + 100000000 else x.holdTill }) s)
      pumpReady p (if st == .up && !low then releaseFirstHop p s else s)
    let x := portOf s p
    let still : PortState := if x.linkFault || x.holdJob || heldBefore x || (x.retrain && decide (x.holdTill > s.clk.wall)) then .hold else .up
    match x.record with
    | none => up still s
    | some r =>
      if peer.identity ≠ r.identity then suspectPort p 2 (up .hold s)
      else if peer.inc ≠ r.inc ∨ (peer.rank ≠ r.rank ∧ !sameBlock s p peer.rank r.rank) then suspectPort p 3 (up still s)
      else up still s

/-- PHOTONIC is released as bring-up begins in a power-on reset (spec/16 R438, Table 16.7). -/
def photonicStart (s : State) : State :=
  if s.clk.reset == .powerOn || s.clk.reset == .fromOff then { s with pwr := { s.pwr with padHold := s.pwr.padHold &&& 0x1D } } else s

/-- The training flit that a port sends at TRAIN: identity, incarnation, rank, coordinate and port number of this block; it has no place among the numbered flits (Table 8.8; DESIGN CHOICE, log 161). -/
def sendTraining (p : Nat) (s : State) : State :=
  let x : OutFlit := { kind := 5, info := some { identity := s.fuse.identity, inc := s.job.inc, rank := servedRank s, coord := s.fab.coord, port := Fin.ofNat 8 p } }
  { s with fab := { s.fab with line := (p, x) :: s.fab.line } }

/-- A step of bring-up ends (R247): without laser light a port stays in SEEK, in SLEEP only lane 0 takes part, and in DEEP the ports stay dark (spec/16 Tables 16.1 and 16.2). -/
def bringupStep (p : Nat) (peer : PeerInfo) (s : State) : State :=
  if !portClocks s then s else
  let s := photonicStart s
  let x := portOf s p
  let lanes (l : LaneState) (st : PortState) : State := modPort p (fun x => { setLanes (drivenLanes s x) l x with state := st }) s
  match x.state with
  | .seek => if x.laserLow then s else lanes .lock .lock
  | .lock => lanes .lock .align
  | .align => sendTraining p (lanes .lock .train)
  | .train => portTrained p peer s
  | .off => if x.en then modPort p (portBegin s) s else s
  | _ => s

/-- The port retrains (R246, R247), in SLEEP on lane 0 alone. -/
def retrainPort (p : Nat) (s : State) : State :=
  updEdges (modPort p (fun x => { setLanes (drivenLanes s x) .lock x with
    state := .lock, retrain := true, replays := 0, cal := none, link := bump 0 16 x.link }) s)

/-- Lanes that carry traffic, one bit each. -/
def activeMask (x : PortSt) : Nat := ((List.range 17).filter fun l => laneOf x l == .active).foldl (fun m l => m + 2 ^ l) 0

/-- The transmitter switches to a lane map and announces it in a lane-map flit (R248, R249). -/
def switchLanes (p : Nat) (f : PortSt → PortSt) (s : State) : State :=
  let t := modPort p f s
  let m := activeMask (portOf t p)
  if m = activeMask (portOf s p) then t else putFlits p [{ kind := 4, lanes := m }] t

/-- Lanes whose 20 µs of calibration have passed return (R248). -/
def calEnds (s : State) : State :=
  forAll (s.port.map (·.1)) (fun p s => match (portOf s p).cal with
    | some (l, back, t) => if t ≤ s.clk.wall then switchLanes p (fun x => { setLanes [l] back x with cal := none }) s else s
    | none => s) s

/-- The next moment at which lane l of port p begins its calibration (R248). -/
def calMoment (s : State) (p l : Nat) : Nat :=
  let pos := (50 * l + 2 * p) * 1000000
  let base := s.clk.time / 1000000000 * 1000000000
  if s.clk.time ≤ base + pos then base + pos else base + 1000000000 + pos

/-- A lane's calibration time arrives; the new lane map is announced in the same event, and the 1 µs of notice is timing (R248; DESIGN CHOICE, log 161). -/
def laneCal (p l : Nat) (s : State) : State :=
  let s := calEnds (timeTo (calMoment s p l) s)
  let x := portOf s p
  let st := laneOf x l
  if bit 7 x.ctl.now && (x.state == .up || x.state == .hold) && (st == .active || st == .spare) then
    switchLanes p (fun x => { setLanes [l] .cal x with cal := some (l, st, s.clk.wall + 20000) }) s
  else s

/-- A lane fails (R249). -/
def laneFail (p l : Nat) (s : State) : State :=
  let x := portOf s p
  let st := laneOf x l
  if !portInService x || st == .failed || st == .off then s
  else
    let spare := l ≠ 16 ∧ (laneOf x 16 == .spare ∨ ∃ c ∈ x.cal, c.1 = 16 ∧ c.2.1 = .spare)
    let s := switchLanes p (fun x =>
      let x := { setLanes [l] .failed x with fec := bump 0 16 x.fec, cal := x.cal.filter fun c => c.1 != l }
      if spare then { setLanes [16] .active x with spareUsed := true, spareFor := l, cal := x.cal.filter fun c => c.1 != 16 } else x) s
    let s := raiseGlobal vCal (bumpLife 6 s)
    if ((goodLanes (portOf s p)).filter fun i => decide (i < 16) || (portOf s p).spareUsed).length < 4 then updEdges (portDown p s) else s

/-- Laser light falls below its threshold, or returns (R247, Table 8.11). -/
def laserEvent (p : Nat) (low : Bool) (s : State) : State :=
  let x := portOf s p
  let s := modPort p (fun x => { x with laserLow := low }) s
  if low then
    let s := if x.laserLow then s else raiseGlobal vCal s
    match x.state with
    | .off => s
    | .seek => s
    | .down => s
    | .lock => modPort p (portBegin s) s
    | .align => modPort p (portBegin s) s
    | .train => modPort p (portBegin s) s
    | _ => updEdges (portDown p s)
  else if x.laserLow && x.state == .down then modPort p (portBegin s) s
  else if x.laserLow && x.before.map (·.1) == some .down then modPort p (fun x => { x with before := some (.seek, []) }) s
  else s

/-- A port in HOLD has had its 100 ms (R232); a port held by R444 stays. -/
def holdExitOp (p : Nat) (s : State) : State :=
  let x := portOf s p
  if x.state == .hold && !x.holdJob then
    let s := wallTo x.holdTill s
    pumpReady p (releaseFirstHop p (updEdges (modPort p (fun x => { x with state := .up, linkFault := false }) s)))
  else s

/-! ### Flits (R244 to R246) -/

/-- Replay from the oldest flit without an acknowledgement; after 8 with no advance the port retrains (R246). -/
def replayPort (p : Nat) (s : State) : State :=
  let x := portOf s p
  if !portInService x || x.txNext == x.txAck then s
  else
    let again := x.buf.map fun f => { f with ack := x.rxNext }
    let s := modPort p (fun x => { x with replays := x.replays + 1, link := bump 48 16 x.link, buf := again
                                          holdTill := if x.state == .hold then s.clk.wall + 100000000 else x.holdTill }) s
    let s := { s with fab := { s.fab with line := (again.map fun f => (p, f)).reverse ++ s.fab.line } }
    if 8 ≤ x.replays + 1 then retrainPort p s else s

/-- An acknowledgement frees the replay buffer up to it (R246; DEDUCED, log 10). -/
def takeAck (a : Nat) (x : PortSt) : PortSt :=
  let d := (a + 4096 - x.txAck % 4096) % 4096
  if d ≠ 0 ∧ d ≤ (x.txNext + 4096 - x.txAck % 4096) % 4096 then { x with txAck := a % 4096, replays := 0, buf := x.buf.drop d } else x

/-- Notes the corrected symbols of a codeword, by lane (R249, Table 8.13). -/
def noteFixes (now : Nat) (f : Flit) (x : PortSt) : PortSt :=
  if f.fixes.isEmpty then x
  else { x with fec := bump 32 32 x.fec
                fixes := (f.fixes.map fun y => (y.1.val, now, y.2)) ++ x.fixes.filter fun y => decide (now < y.2.1 + 1000000000) }

/-- Lanes with more than 2^20 corrected symbols within one second (R249). -/
def wornLanes (x : PortSt) : List Nat :=
  (List.range 17).filter fun l => decide (1048576 < ((x.fixes.filter fun y => y.1 == l).map (·.2.2)).sum)

/-- A data flit that is taken opens or closes a frame in its virtual channel (R244). -/
def noteFlit (f : Flit) (x : PortSt) : PortSt :=
  if f.lkind ≠ 0 then x
  else { x with rxOpen := (if f.eof then [] else if f.sof || x.rxOpen.contains f.vc then [f.vc] else []) ++ x.rxOpen.filter (· != f.vc) }

/-- What answers a flit that was taken, and carries its acknowledgement: a credit flit of its channel for data, whose buffer is free again, an idle flit for a lane map or training; no answer is answered (R227, R244; DESIGN CHOICE, log 161). -/
def answerFlit (p : Nat) (f : Flit) (s : State) : State :=
  let room := decide ((portOf s p).buf.length < flitWindow)
  if room && f.lkind = 0 then putFlits p [{ kind := 2, vc := f.vc }] s
  else if room && (f.lkind = 4 || f.lkind = 5) then putFlits p [{ kind := 1 }] s
  else s

/-- A flit that is no duplicate and lies in no uncorrectable codeword: the next one is taken, one beyond it is answered with a NACK that names the next (R245). -/
def takeInOrder (p : Nat) (f : Flit) (s : State) : State :=
  let x := portOf s p
  let d := (x.rxNext + 4096 - f.lseq % 4096) % 4096
  if d = 0 then
    let s := modPort p (fun x => noteFlit f { x with rxNext := (x.rxNext + 1) % 4096, laneMap := if f.lkind = 4 then f.lanes else x.laneMap }) s
    if f.lkind = 3 then replayPort p s else answerFlit p f s
  else if d < 2048 then modPort p (fun x => { x with link := bump 16 16 x.link }) s
  else putFlits p [{ kind := 3 }] (modPort p (fun x => { x with link := bump 32 16 x.link }) s)

/-- A flit arrives (R245, R246, R249). -/
def takeFlit (p : Nat) (f : Flit) (s : State) : State :=
  let x := portOf s p
  if !portInService x then s
  else if f.uncorrectable then modPort p (fun x => { x with fec := bump 16 16 x.fec }) s
  else
    let s := takeInOrder p f (pumpReady p (modPort p (fun x => takeAck f.ack (noteFixes s.clk.wall f x)) s))
    (wornLanes (portOf s p)).foldl (fun s l => laneFail p l s) s

/-! ### Heartbeats (R179, R180, R388) -/

def hbOn (s : State) (p : Nat) : Bool := s.tar.hbEn.testBit p && (portOf s p).en

/-- The heartbeat that the block sends (Table 7.1). -/
def beatNow (s : State) : Beat :=
  sealBeat { identity := s.fuse.identity, inc := s.job.inc, rank := servedRank s, quiet := s.pwr.quiet, digest := cfgDigest s
             epoch := if s.ep.phase = 0 then 0 else s.ep.epoch, crc := 0 }

/-- A tag-0 frame to the neighbour at a port. -/
def neighbourFrame (s : State) (p typ : Nat) (b : Payload) : Frame :=
  let c := neighbour s p
  formFrame s { tag := 0, part := 0, typ := typ, rank := rankOf s c, body := b, epoch := if s.ep.phase = 0 then 0 else s.ep.epoch } c

def sendBeats (s : State) : State :=
  ((List.range 8).filter fun p => hbOn s p && portInService (portOf s p)).foldl (fun s p => transmit none p (neighbourFrame s p 8 (.beat (beatNow s))) s) s

/-- The digest of a valid heartbeat is compared within one epoch (R388). -/
def compareDigest (p : Nat) (b : Beat) (s : State) : State :=
  if s.ep.phase = 0 ∨ b.epoch ≠ s.ep.epoch then s
  else
    let g := s.dig
    if b.digest = cfgDigest s then
      let n := min 3 (SMap.look 0 g.same p + 1)
      { s with dig := { g with same := SMap.put g.same p n, diff := SMap.put g.diff p 0
                               ports := if n = 3 then g.ports &&& (255 - 2 ^ p) else g.ports } }
    else
      let n := min 3 (SMap.look 0 g.diff p + 1)
      let enter := n = 3 ∧ ¬ g.ports.testBit p
      let s := { s with dig := { g with
        diff := SMap.put g.diff p n, same := SMap.put g.same p 0
        ports := if enter then g.ports ||| 2 ^ p else g.ports, count := if enter then min (g.count + 1) 0xFFFFFFFF else g.count } }
      if enter then raiseGlobal vDigest s else s

/-- A heartbeat arrives on a port (R180); under another rank that the neighbour serves it is no suspect, and the record follows it (R220). -/
def takeBeat (p : Nat) (b : Beat) (s : State) : State :=
  let x := portOf s p
  if !hbOn s p || !beatOk b then s
  else match x.record with
    | none => modPort p (fun x => { x with gotHb := true }) s
    | some r =>
      if b.identity ≠ r.identity then suspectPort p 2 (modPort p (fun x => { x with clearRun := 0 }) s)
      else if b.inc ≠ r.inc ∨ (b.rank ≠ r.rank ∧ !sameBlock s p b.rank r.rank) then suspectPort p 3 (modPort p (fun x => { x with clearRun := 0 }) s)
      else
        let n := if b.quiet then 0 else min 3 (x.clearRun + 1)
        let s := modPort p (fun x => { x with gotHb := true, clearRun := n, record := some { r with rank := b.rank }
                                              quietPeer := if b.quiet then true else x.quietPeer && decide (n < 3) }) s
        let s := if n = 3 then { s with tar := { s.tar with quiet := s.tar.quiet.filter (· != r.rank) } } else s
        compareDigest p b s

/-- A heartbeat interval of one port ends (R180, R232). -/
def intervalEnd (p : Nat) (s : State) : State :=
  if !hbOn s p then s
  else if (portOf s p).gotHb then modPort p (fun x => { x with gotHb := false, missed := 0 }) s
  else
    let s := modPort p (fun x => { x with missed := min 3 (x.missed + 1), clearRun := 0
                                          holdTill := if x.state == .hold then s.clk.wall + 100000000 else x.holdTill })
      { s with tar := { s.tar with hbMissed := min 0xFFFF (s.tar.hbMissed + 1) } }
    if (portOf s p).missed = 3 then suspectPort p 0 s else s

/-- A WAKE frame to the neighbour (R226). -/
def wakeNbOp (p : Nat) (s : State) : State :=
  let x := portOf s p
  if portInService x then
    let w : WakeMsg := { identity := (x.peer.map (·.identity)).getD 0, rank := servedRank s, crc := 0 }
    transmit none p (neighbourFrame s p 14 (.wake (sealWake w))) s
  else s

/-! ### Frames held at their first hop (R231) -/

/-- A held frame has waited 2 ms: it is rerouted, or its operation ends. -/
def frameHoldEnd (n : Nat) (s : State) : State :=
  match s.fab.held[n]? with
  | none => s
  | some (p, f) =>
    let s := { s with fab := { s.fab with held := s.fab.held.eraseIdx n } }
    match (alternatives s f.hdr p).find? fun x => portServes s f.hdr.typ x.1 with
    | some x => countReroute (transmit none x.1 ⟨x.2, f.body⟩ s)
    | none => frameFails f s

end Sys2Proof.Machine
end

