-- ==== Sys2Proof/Machine/Arrive.lean ====
section
/-! DEFINITION. Frames that arrive: the header checks of a hop (spec/08 R223), forwarding (R229 to R233, spec/07 R182), acceptance at the destination (R219, R237, R238), the epoch rules (spec/02 R53, R54) and the attempt (spec/04 R111), delivery to the engines, and what the block goes on to do by itself once something has changed. -/

namespace Sys2Proof.Machine

/-! ### Delivery to the engines -/

def countAttempt (s : State) : State := { s with cod := { s.cod with codeStat := bump 32 16 s.cod.codeStat } }
def countNoticeBad (s : State) : State := { s with cod := { s.cod with codeStat := bump 16 16 s.cod.codeStat } }

/-- Whether the attempt of an arrival of the open epoch is stale (R111). -/
def staleAttempt (s : State) (epoch attempt : Nat) : Bool := epoch == s.ep.epoch && attempt != s.ep.attempt

def contribHere (x : Contrib) (s : State) : State := if staleAttempt s x.epoch x.attempt then countAttempt s else holdContrib x s

/-- The PLAN entries of a frame, stripe by stripe (spec/07 R471). -/
def plansHere (src : Nat) (n : NoticeFrame) (s : State) : State :=
  ((n.entries.map fun e => (e.slot.val, e.stripe)).eraseDups).foldl (fun s k =>
    takePlan src n.epoch n.attempt k.1 k.2
      ((n.entries.filter fun e => e.slot.val == k.1 && e.stripe == k.2).map fun e => (e.column.val, e.row.val)) s) s

/-- A notice frame (R101 to R104, R471). -/
def noticeHere (h : FrameHdr) (n : NoticeFrame) (s : State) : State :=
  if !noticeOk n then countNoticeBad s
  else if staleAttempt s n.epoch n.attempt then countAttempt s
  else
    let each (f : NoticeEntry → State → State) : State := n.entries.foldl (fun s e => f e s) s
    match n.typ with
    | 0 => each (takeNotice n.epoch)
    | 1 => each (takeNeed n.epoch)
    | 2 => each (answerQuery n.epoch n.attempt)
    | _ => match n.sub with
      | 0 => each (takeState h.srcRank n.epoch)
      | 1 => plansHere h.srcRank n s
      | _ => s

/-- A frame of an older epoch: dropped, and an owed landing notice goes out again (Table 2.7). -/
def behindHere (f : Frame) (s : State) : State :=
  let s := { s with ep := { s.ep with stat := bump 32 32 s.ep.stat } }
  match f.body with
  | .contrib c => answerBehind c s
  | .notice n => if n.typ = 2 ∧ noticeOk n then n.entries.foldl (fun s e => answerQuery n.epoch n.attempt e s) s else s
  | _ => s

/-- Sequence, status, axes and partition of a COLL_ message. -/
def collFields (t : Tarra) : Nat × Nat × Nat × Nat := (bitsOf 0 32 t.data, bitsOf 32 8 t.data, bitsOf 40 4 t.data, bitsOf 44 4 t.data)

/-- A tarragon message at this block (Table 8.4). -/
def tarraHere (t : Tarra) (r : Option AdmitRec) (s : State) : State :=
  let c := collFields t
  match t.kind with
  | 0 => takeReport t s
  | 1 => takeClosure t s
  | 2 => takeVerdict t s
  | 3 => takeProbe t s
  | 4 => takeAnswer t s
  | 5 => takeVote t s
  | 6 => takeVoteResult t s
  | 7 => takeGuarded t s
  | 8 => takeGroupGuarded t s
  | 9 => takeGuardWave t s
  | 10 => takeLanded t s
  | 11 => takeUp (takeCommitWave t s)
  | 12 => takeUp (takeAbortWave t s)
  | 13 => takeRestored t s
  | 14 => takeRerunWave t s
  | 15 => takeQuiet t s
  | 16 => takeCollReport c.2.2.2 c.2.2.1 c.1 c.2.1 t.origin t.epoch s
  | 17 => rootDone c.2.2.2 c.2.2.1 c.1 t.origin t.epoch s
  | 18 => collOutcome c.2.2.2 c.2.2.1 c.1 c.2.1 t.rank s
  | 19 => takeGroupLost t s
  | 20 => match r with
    | some r => takeAdmit t r s
    | none => s
  | 21 => takeReady t.rank t.origin s
  | 22 => takeHandover t s
  | _ => s

/-- Whether a message travels by flooding: the waves, and a verdict that the wave issuer forwards job-wide, decided or still to be decided (R238, R184, R470). -/
def isWave (t : Tarra) : Bool := [6, 9, 11, 12, 14, 19].contains t.kind || (t.kind == 2 && (t.data.testBit 0 || t.data.testBit 2))

/-- A tarragon message at the tarragon front end (R225, R237, R238); the waves of a job torn down here are ignored (spec/13 R377). -/
def tarraArrives (inPort : Option Nat) (tag : Nat) (t : Tarra) (r : Option AdmitRec) (s : State) : State :=
  if !tarraOk t || (isWave t && s.pwr.torndown.contains tag) then s
  else if isWave t && inPort.isSome then
    if s.fab.floods.contains (floodKey t) then s
    else tarraHere t r (floodOut tag t inPort { s with fab := { s.fab with floods := floodKey t :: s.fab.floods } })
  else tarraHere t r s

/-- A frame that passed every check goes to its engine. -/
def deliver (inPort : Option Nat) (f : Frame) (s : State) : State :=
  let h := f.hdr
  match f.body with
  | .contrib c => contribHere c s
  | .notice n => noticeHere h n s
  | .chain x =>
    if staleAttempt s x.epoch x.attempt then countAttempt s
    else if h.typ = 4 then chainTarget x h.destRank s
    else if fixHeld x s then markHold 16 { s with cod := { s.cod with heldFrames := s.cod.heldFrames ++ [f] } }
    else auditHere x s
  | .chunk c => collChunk c s
  | .tarra t r => tarraArrives inPort h.tag t r s
  | .mem m => if h.typ = 10 then
      (if respBlocked h m s then markHold 16 { s with cod := { s.cod with heldFrames := s.cod.heldFrames ++ [f] } } else takeMemrsp h m s)
    else if m.op = 13 then takeCancel h m s else takeMemreq h m s
  | .copy c =>
    let (s, wait) := takeCopyUnit h c s
    if wait then { s with cod := { s.cod with heldFrames := s.cod.heldFrames ++ [f] } } else s
  | .copyRsp c => takeCopyrsp h c s
  | .bulk ms => takeBulk h ms s
  | .beat _ => s
  | .wake _ => s

/-- Bytes that the ahead area holds: each frame takes its header of 32 bytes and its payload (DESIGN CHOICE, log 145). -/
def aheadLevel (s : State) : Nat := (s.ep.ahead.map fun x => frameLen x.2).foldl (· + ·) 0

/-- Whether a frame serves a restoration under way here, whose epoch may lie below the open one: a STATE, PLAN or chain frame carries the restoration epoch (spec/07 R471), and is no duplicate (DEDUCED, log 68). -/
def restoring (s : State) (f : Frame) : Bool :=
  let open? := s.reb.runs.any fun r => !r.closed && (!r.decided || r.epoch == f.hdr.epoch)
  match f.body with
  | .notice n => n.typ == 3 && open?
  | .chain _ => f.hdr.typ == 4 && open?
  | _ => false

/-- The epoch rules for an epoch-bound frame (Table 2.7); what does not fit the ahead area stays with the sending hop. -/
def byEpoch (inPort : Option Nat) (f : Frame) (s : State) : State :=
  let e := s.ep.epoch
  if !f.hdr.ebound || f.hdr.epoch = e then deliver inPort f s
  else if f.hdr.epoch < e then (if restoring s f then deliver inPort f s else behindHere f s)
  else if f.hdr.epoch = e + 1 then
    if aheadLevel s + frameLen f ≤ Config.aheadBytes then
      { s with ep := { s.ep with ahead := s.ep.ahead ++ [(inPort.getD 8, f)], stat := bump 0 32 s.ep.stat } }
    else s
  else violate 4 s

/-- Whether the binding that a frame names is the one in force (R237); TARRAGON needs only its TAG bound (R238). -/
def tagOk (s : State) (h : FrameHdr) : Bool :=
  if h.typ = 7 then tagBound s h.tag
  else
    let x := partOf s h.part
    x.bound && x.tag == h.tag && x.gen == h.gen

/-- Whether a frame from a port is a wave on its flood, which goes to whatever block stands at the other end of the link and is addressed to no rank (R238; DEDUCED, log 67). -/
def floodFrame (inPort : Option Nat) (f : Frame) : Bool := match f.body with
  | .tarra t _ => inPort.isSome && isWave t
  | _ => false

/-- A frame whose DEST_COORD is this block's: the rank, the tag and the epoch are checked (R219, R237, R241, R54). -/
def takeLocal (inPort : Option Nat) (f : Frame) (s : State) : State :=
  let h := f.hdr
  if h.tag = 0 then s
  else if !servesRank s h.destRank && !floodFrame inPort f then
    match f.body with
    | .mem m =>
      if h.typ = 9 ∧ (translate s h.destRank).isSome ∧ translate s h.destRank ≠ some s.fab.coord then gwTake h m s else violate 3 s
    | _ => violate 3 s
  else if !tagOk s h then violate 1 s
  else byEpoch inPort f s

/-! ### What follows by itself -/

/-- Frames of the ahead area whose epoch has opened (R54). -/
def aheadDue (s : State) : List (Nat × Frame) := s.ep.ahead.filter fun x => decide (x.2.hdr.epoch ≤ s.ep.epoch)

/-- Copy units that waited for the coded-store path are tried again (spec/04 R110). -/
def retryHeld (s : State) : State :=
  s.cod.heldFrames.foldl (fun s f => deliver none f s) { s with cod := { s.cod with heldFrames := [] } }

/-- A block with no job open activates every staged image at once (spec/09 R280). -/
def stagedStart (s : State) : State :=
  if s.ep.phase = 0 then forAll ((s.part.filter fun x => x.2.staged.isSome).map (·.1)) activateImage s else s

/-- An engine meets an uncorrectable byte in a block area that it reads (spec/15 Table 15.2): the frame or chunk that waited longest is discarded, or the block is lost to its group (DESIGN CHOICE, log 180). -/
def areaRead (k : Nat) (s : State) : State :=
  if !areaHit k s then s
  else
    let (s, bad) := areaTouch k s
    if !bad then s
    else match k with
      | 0 => { s with cod := { s.cod with store := s.cod.store.tail } }
      | 1 => { s with ep := { s.ep with ahead := s.ep.ahead.tail } }
      | 2 => { s with coll := { s.coll with openC := match s.coll.openC.find? fun c => !c.pieces.isEmpty with
          | some c => s.coll.openC.replace c { c with pieces := c.pieces.tail }
          | none => s.coll.openC } }
      | 4 => { s with fab := { s.fab with gw := match s.fab.gw with
          | x :: xs => if x.2.length ≤ 1 then xs else (x.1, x.2.tail) :: xs
          | [] => [] } }
      | _ => blockFatal s

/-- Every block area in use is read as the block works; the record buffer is read by the record unit. -/
def areaReads (s : State) : State :=
  if s.sram.check.isEmpty then s
  else [(0, !s.cod.store.isEmpty), (1, !s.ep.ahead.isEmpty), (2, s.coll.openC.any fun c => !c.pieces.isEmpty), (3, !s.fab.peerGen.isEmpty),
    (4, !s.fab.gw.isEmpty), (6, !s.page.recs.isEmpty), (7, !s.reb.runs.isEmpty), (8, !s.fab.pairs.isEmpty || !s.upd.stepRec.isEmpty)].foldl
      (fun s x => if x.2 then areaRead x.1 s else s) s

/-- One round of the work that the block takes up by itself. -/
def settleRound (s : State) : State :=
  let s := retryHeld (releaseHeld (tiesDue (unmark 16 s)))
  let s := releaseWaves s
  let s := startWaiting (collRetry (settlePages (pumpAll s)))
  let s := phaseSteps s
  let s := (s.reb.runs.map fun r => r.failed).foldl (fun s f => sendReady f s) s
  let s := repairsAgain (auditsEnd (auditGo s))
  engineStarts false (closeHolds (stagedStart (teardownStep (flushEnds (retryAll (wakeAll s))))))

/-- Frames that the block sends to itself, and frames of the ahead area, are taken in order; then the block goes on with what they allow. -/
def settleN : Nat → State → State
  | 0, s => s
  | n + 1, s =>
    match s.fab.loop with
    | f :: fs => settleN n (takeLocal none f { s with fab := { s.fab with loop := fs } })
    | [] => match aheadDue s with
      | x :: _ => settleN n (byEpoch (if x.1 < 8 then some x.1 else none) x.2 { s with ep := { s.ep with ahead := s.ep.ahead.erase x } })
      | [] =>
        let t := settleRound s
        if t.fab.loop.isEmpty && (aheadDue t).isEmpty then t else settleN n t

/-- Bound on the rounds of one command; no run of the rules reaches it. -/
def settleFuel : Nat := 65536

/-- What follows a command by itself, after one look at the block areas in use. -/
def settle (s : State) : State := if coreUp s then settleN settleFuel (areaReads s) else s

/-! ### Arrival -/

def countHdrBad (s : State) : State := { s with fab := { s.fab with stat := bump 16 16 s.fab.stat } }
def countHopLimit (s : State) : State := { s with fab := { s.fab with stat := bump 8 8 s.fab.stat } }

/-- Whether a port takes a frame of a TYPE (Table 8.11). -/
def portTakes (s : State) (typ p : Nat) : Bool :=
  match (portOf s p).state with
  | .up => true
  | .hold => true
  | .lowrate => typ == 7 || typ == 8 || typ == 14
  | _ => false

/-- Whether a frame with ACCUM concerns the group that this block serves in a slot: its destination holds a position there. A block of another ring that only a detour crosses owes it nothing (R230, R233; DEDUCED, log 139). -/
def ofOwnGroup (s : State) (sl : Nat) (h : FrameHdr) : Bool :=
  (grpOf s sl).en && (posOfRank s (grpOf s sl) h.destRank).isSome

/-- A frame for another block (R229 to R233); a block on the way adds its terms only for a TAG bound on it, and merges every report that it forwards (spec/07 R182). -/
def frameOn (p : Nat) (f : Frame) (s : State) : State :=
  let h := f.hdr
  match f.body, tagBound s h.tag with
  | .tarra t r, _ =>
    if t.kind = 0 ∧ tarraOk t then
      match mergeReport t (leaveIdle s) with
      | (s, some t') => forward (some p) ⟨h, .tarra t' r⟩ s
      | (s, none) => s
    else if t.kind = 1 ∧ tarraOk t then
      let (s, t') := closureCount t (leaveIdle s)
      forward (some p) ⟨h, .tarra t' r⟩ s
    else forward (some p) f s
  | _, false => forward (some p) f s
  | b, true => match b with
    | .contrib c => if h.typ = 1 ∧ h.accum ∧ ofOwnGroup s c.slot.val h then trainHop p f c (leaveIdle s) else forward (some p) f s
    | .chain x =>
      if !h.accum || !ofOwnGroup s x.slot.val h then forward (some p) f s
      else if h.typ = 4 then chainHop p h x (leaveIdle s) else auditHop p h x (leaveIdle s)
    | _ => forward (some p) f s

/-- Header checks at every hop (R223). -/
def hopOk (f : Frame) : Bool := hdrOk f.hdr && typeKnown f.hdr.typ && typeFits f.hdr.typ f.body

/-- DATA0 of the log entry of a frame: header bytes 0 to 7 (Table 12.5). -/
def frameData0 (f : Frame) : Nat := hdrNat f.hdr % 2 ^ 64

/-- A frame other than a heartbeat or WAKE frame arrives at a port. -/
def arriveFrame (p : Nat) (f : Frame) (s : State) : State :=
  let h := f.hdr
  if !portsUp s || !portTakes s h.typ p then s
  else if !hopOk f then countHdrBad s
  else if 63 ≤ h.hops then countHopLimit s
  else if !coreUp s then s
  else if h.destCoord ≠ s.fab.coord then settle (frameOn p f s)
  else external 1 p (frameData0 f) 0 (frameBytes f) (fun s => settle (takeLocal (some p) f (leaveIdle s))) s

/-- A heartbeat arrives; it is of tag 0 and goes to the vigil domain. -/
def arriveBeat (p : Nat) (f : Frame) (b : Beat) (s : State) : State :=
  if !portsUp s || !portTakes s f.hdr.typ p then s
  else if !hopOk f || f.hdr.tag ≠ 0 then countHdrBad s
  else if 63 ≤ f.hdr.hops then countHopLimit s
  else external 1 p (frameData0 f) 0 (frameBytes f) (takeBeat p b) s

end Sys2Proof.Machine
end

