-- ==== Sys2Proof/Machine/Power.lean ====
section
/-! DEFINITION. Power states: IDLE (spec/16 R431), entry to SLEEP, DEEP and OFF (R432 to R435), wakes and exits (R436), the pad hold (R437, R438); the resets (R439 to R442) with spare rows (spec/15 R420); pins that act on them (spec/17 R447, R448), and the WAKE frame at its receiver (spec/08 R226). -/

namespace Sys2Proof.Machine

/-! ### IDLE -/

/-- No engine, transfer or store but the export holds work: open instructions, collectives, transfers, the train store, the outbox (R431, Table 16.3). -/
def enginesIdle (s : State) : Bool :=
  (s.part.all fun x => x.2.ops.isEmpty && x.2.long.isNone && !x.2.pf.entries.any (·.flying)) && s.coll.openC.isEmpty &&
  s.cod.store.isEmpty && s.cod.held.isEmpty && s.cod.heldFrames.isEmpty && (s.cod.out.all fun o => o.2.ready.isNone && o.2.flight.isNone && o.2.pend.isNone) &&
  s.page.cow.isEmpty && s.page.seals.isEmpty && s.aud.syn.isEmpty && s.aud.repairs.isEmpty && s.exp.restoring.isNone &&
  (s.reb.runs.all fun r => r.restored) && s.fab.gw.all (fun x => x.2.isEmpty) && s.fab.held.isEmpty

/-- No engine job at all (R431). -/
def enginesEmpty (s : State) : Bool := enginesIdle s && s.exp.state != 2

/-- A lap that ended at a time is due again after MAINT_GAP_MS (R431). -/
def lapDue (s : State) (ended : Nat) : Bool := decide (ended + fld 16 16 s.pwr.ctl.now * 1000000 ≤ s.clk.wall)

def sageDue (s : State) : Bool := s.sram.en && !splitOn s && (s.sram.running || lapDue s s.sram.lapEnd)
def auditDue (s : State) : Bool := bit 63 s.aud.ctl.now && codingOn s && (s.aud.running || lapDue s s.aud.lapEnd)

/-- The conditions of R431. -/
def idleOk (s : State) : Bool :=
  bit 8 s.pwr.ctl.now && !s.mode.chervil &&
  (s.part.all fun x => x.2.wait == some .idle || ((x.2.seq == .dispatch || x.2.seq == .noImage) && !cmdReady x.2)) &&
  enginesEmpty s && !sageDue s && !auditDue s

def idleEntryOp (s : State) : State :=
  if coreUp s && s.pwr.state == .run && s.pwr.entering.isNone && idleOk s then
    { s with pwr := { s.pwr with state := .idle, idleSince := s.clk.wall } }
  else s

def idleExitOp (s : State) : State := if idleOk s then s else leaveIdle s

/-! ### Entry (R432 to R435) -/

/-- Codes of REQ and of TKJ_WAKE_SRC.FROM. -/
def stateCode : PwrState → Nat
  | .run => 0
  | .idle => 1
  | .sleep => 2
  | .deep => 3
  | .off => 4

/-- A bound tag with coded regions on the block whose TEARDOWN has not been commanded (R432). -/
def jobDepends (s : State) : Bool :=
  s.part.any fun x => x.2.bound && !s.pwr.torndown.contains x.2.tag && !(s.job.teardown.isSome && s.job.tag == x.2.tag) &&
    s.reg.table.any fun r => r.2.valid && codedClass r.2.cls && (partOf s r.2.owner).bound && (partOf s r.2.owner).tag == x.2.tag

/-- A request is refused with a cause, and the power vector is raised. -/
def refusePower (cause : Nat) (s : State) : State :=
  raiseGlobal vPower { s with pwr := { s.pwr with refused := true, cause := cause } }

/-- A write of REQ for a state (R432, R435). -/
def reqState (t : PwrState) (s : State) : State :=
  if s.pwr.entering.isSome || !coreUp s then s
  else
    let s := { s with pwr := { s.pwr with req := stateCode t } }
    if jobDepends s then refusePower 1 s
    else
      let s := leaveIdle s
      settle { s with pwr := { s.pwr with entering := some t, step := 1 } }

/-- A request is accepted, once its quiesce step has finished and nothing can refuse it any more: the recording ends, the export fails, and QUIET is announced (R432, R433; DEDUCED, log 182). -/
def acceptPower (s : State) : State :=
  let s := exportStop 7 true (endRecord 2 s)
  if s.pwr.quiet then s else sendQuiet s

/-- Whether a wake source acts for a state (Table 16.5). -/
def wakeAllowed (t : PwrState) (i : Nat) : Bool :=
  match t with
  | .sleep => decide (i < 5)
  | .deep => decide (i < 4)
  | .off => i == 0
  | _ => false

/-- A port in step 2 of an entry: lane 0 to LOWRATE for SLEEP, where the port is lit, and all lanes dark otherwise; where it stood is kept (Table 16.3, R434). -/
def portStop (t : PwrState) (x : PortSt) : PortSt :=
  let was := some (x.state, x.lane)
  if t ≠ .sleep then { portDark x with before := was, retrain := x.retrain }
  else if x.state == .off || x.state == .down || x.laserLow then x
  else { setLanes [0] .lowrate (setLanes (List.range 17) .off x) with state := .lowrate, cal := none, before := was }

/-- A port begins to come back after SLEEP, DEEP or an abort: it relocks from SEEK with the lanes that had not failed, and one that was out of service stays so (R434, R436, spec/08 Table 8.8; DEDUCED, log 100). -/
def portRelock (x : PortSt) : PortSt :=
  if x.state != .lowrate && x.state != .off then x
  else match x.before with
  | none => if x.state == .lowrate then portSeek x else x
  | some (st, lanes) =>
    let y := { x with lane := lanes }
    if st == .off || st == .down then { y with state := st, before := none }
    else { setLanes (goodLanes y) .seek y with state := .seek }

/-- Every port, changed. -/
def portsAll (f : PortSt → PortSt) (s : State) : State := updEdges ((List.range 8).foldl (fun s p => modPort p f s) s)

/-- Pad groups held in a state (Table 16.4). -/
def padsFor : PwrState → Nat
  | .sleep => 0x05
  | .deep => 0x07
  | .off => 0x1F
  | _ => 0

/-- Wakes pending at an abort point: WAKE_N is a level (spec/17 R447). -/
def wakesPending (s : State) : Nat := s.pwr.pendingWake ||| b2n s.pin.wakeLow

/-- An entry stops at abort point k and is undone (R434). -/
def abortEntry (k : Nat) (t : PwrState) (s : State) : State :=
  let s := if 2 ≤ k then portsAll portRelock s else s
  settle (raiseGlobal vPower { s with pwr := { s.pwr with
    entering := none, step := 0, wakeSrc := s.pwr.wakeSrc ||| wakesPending s, wakeFrom := stateCode t, abortPt := k
    aborts := min (s.pwr.aborts + 1) 0xFFFF, pendingWake := 0 } })

/-- Whether step 1 has finished (Table 16.3); the export is no bar, since acceptance ends it (R433, spec/14 Table 14.5). -/
def quiesced (s : State) : Bool := (s.part.all fun x => x.2.seq == .dispatch || x.2.seq == .noImage) && enginesIdle s

/-- The sideband outputs are let go: nothing of this block pulls GRP_ALERT_N (spec/17 R446). -/
def sideRelease (s : State) : State :=
  { s with pin := { s.pin with alertN := !s.pin.alertHeld }, side := { s.side with driving := false } }

/-- The state is entered: its pad groups are held (R437). -/
def powerEntered (t : PwrState) (s : State) : State :=
  let s := { s with pwr := { s.pwr with entering := none, step := 0, state := t, padHold := s.pwr.padHold ||| padsFor t } }
  if t == .off then sideRelease s else s

/-- The step of an entry in progress completes, and its abort point is sampled (Table 16.3, R434). -/
def entryStep (s : State) : State :=
  match s.pwr.entering with
  | none => s
  | some t =>
    let k := s.pwr.step
    if k = 1 ∧ !quiesced s then s
    else
      let s := if k = 1 then acceptPower s else if k = 2 then portsAll (portStop t) s else s
      if wakesPending s ≠ 0 then abortEntry k t s
      else if k < 4 then { s with pwr := { s.pwr with step := k + 1 } }
      else powerEntered t s

/-- The quiesce step has not finished within 10 ms: the request is refused and fetch resumes; a wake that came meanwhile keeps its bit (R432, R436). -/
def quiesceTimeoutOp (s : State) : State :=
  if s.pwr.entering.isSome && s.pwr.step == 1 then
    settle (refusePower 2 { s with pwr := { s.pwr with entering := none, step := 0, wakeSrc := s.pwr.wakeSrc ||| s.pwr.pendingWake, pendingWake := 0 } })
  else s

/-! ### Resets (R440 to R442) -/

/-- The field spare entries of keep words 3 to 18, in entry order (spec/15 R419). -/
def spareEntries (s : State) : List (Nat × Nat × Nat) :=
  (List.range 32).filterMap fun e =>
    let w := fld (32 * (e % 2)) 32 (keepWord s (3 + e / 2))
    if bitOf 31 w then some (bitsOf 25 6 w, bitsOf 12 13 w, bitsOf 10 2 w) else none

/-- Entries in force, and whether one was ignored (R420). -/
def spareRows (es : List (Nat × Nat × Nat)) : List (Nat × Nat × Nat) × Bool :=
  es.foldl (fun a e =>
    if a.1.any fun x => x.1 == e.1 && x.2.2 == e.2.2 then (a.1, true) else (a.1 ++ [e], a.2)) ([], false)

/-- What both resets leave: every register at its reset value but those of the keep store, K and M from keep word 1, TKJ_TAP_SLOTS.SLOTS at LIMIT (spec/11 Table 11.8), spare rows applied, with field entries before factory mappings of the same row (spec/15 R420), valid bits clear (R440, R441). -/
def resetCommon (s : State) : State :=
  let w := keepWord s 1
  let k := fld 8 5 w
  let m := fld 0 3 w
  let sp := spareRows (spareEntries s)
  { State.reset with
    pending := s.pending, mem := s.mem.filter fun c => tierOf c.1 != 0, poison := s.poison, badRead := s.badRead, badWrite := s.badWrite
    fuse := s.fuse, pin := s.pin, freeCtr := s.freeCtr
    keep := { s.keep with drop := 0 }
    grp := if k = 8 ∧ m = 2 then [] else (List.range 16).map fun g => (g, { k := k, m := m })
    sram := { spare := sp.1, conflict := sp.2, factory := s.fuse.factorySpare.filter fun f => !sp.1.any fun x => x.1 == f.1 && x.2.1 == f.2.1 }
    tap := { slots := ⟨BitVec.ofNat 64 (tapLimit s), []⟩ }
    job := { inc := (keepWord s 0).toNat % 2 ^ 32 } }

/-- Power-on reset begins (R440, Table 16.7). -/
def powerOnStart (kind : ResetKind) (s : State) : State :=
  let t := sideRelease (resetCommon s)
  { t with
    clk := { time := 0, refclk := true, pwrGood := true, ready := false, reset := kind, rstCause := if kind == .fromOff then 3 else 1 }
    pwr := { padHold := 0x1F }
    keep := { t.keep with verifyFail := [], last := 0, base := 0, life := (List.range 8).map fun i => (i, (keepWord s (19 + i)).toNat) }
    port := ((List.range 8).filter fun p => (portOf s p).laserLow).map fun p => (p, { laserLow := true }) }

/-- A port at warm reset: its control register with what waits for a commit, its record, what TKJ_HB_CTL shows of it and the tarragon frames that wait on it stay, one in UP retrains, keeping lane lock, and one in HOLD stays held (R441, R444). -/
def portWarm (x : PortSt) : PortSt :=
  let y : PortSt := { ready := x.ready.filter fun r => r.frame.hdr.typ == 7, suspect := x.suspect, holdJob := x.holdJob, holdTill := x.holdTill
                      before := x.before, retrain := x.retrain, en := x.en, ctl := x.ctl, record := x.record, state := x.state, spareUsed := x.spareUsed, laserLow := x.laserLow
                      miswired := x.miswired, lane := x.lane, cal := x.cal, spareFor := x.spareFor, peer := x.peer, rxNext := x.rxNext
                      txNext := x.txNext, txAck := x.txAck, buf := x.buf, fixes := x.fixes, linkFault := x.linkFault, laneMap := x.laneMap, lockLoss := x.lockLoss }
  if x.state == .up then { y with state := .lock, retrain := true } else y

/-- WARM (R441): a coded member of a job reports itself first, and what it has put on its ports for that leaves them. -/
def warmStart (s : State) : State :=
  let coded := s.part.find? fun x => x.2.bound && codedJob s x.2.tag
  let s := match coded with
    | some x => selfReport x.1 s
    | none => s
  let t := resetCommon s
  { t with
    clk := { s.clk with ready := false, reset := .warm, rstCause := 2, gstatCause := 0, cycle := 0, gated := 0 }
    pwr := { ctl := s.pwr.ctl, req := s.pwr.req, refused := s.pwr.refused, cause := s.pwr.cause, wakeSrc := s.pwr.wakeSrc
             wakeFrom := s.pwr.wakeFrom, abortPt := s.pwr.abortPt, padHold := s.pwr.padHold }
    side := { s.side with svcStat := lessRead (rcFields .svcStat) s.side.svcStat s.side.svcStat
                          mgtStat := lessRead (rcFields .mgtStat) s.side.mgtStat s.side.mgtStat }
    tar := { t.tar with hbEn := s.tar.hbEn, reports := s.tar.reports.filter fun r => r.cause == 5 }
    fab := { t.fab with tx := s.fab.tx, line := s.fab.line }
    port := s.port.map fun x => (x.1, portWarm (portRelock x.2)) }

/-- Reset work ends and READY is set (R440, R441); after a power-on reset PHOTONIC is released and the power vector is pending (Table 16.7). -/
def resetFinish (s : State) : State :=
  let done (cause : Nat) (s : State) : State := { s with clk := { s.clk with ready := true, rstCause := cause, reset := .none } }
  match s.clk.reset with
  | .none => s
  | .powerOn => raiseGlobal vPower (done 1 { s with pwr := { s.pwr with padHold := 0x1D } })
  | .fromOff => raiseGlobal vPower (done 3 { s with pwr := { s.pwr with padHold := 0x1D } })
  | .warm => done 2 s

/-! ### Wakes and exits (R436) -/

/-- A wake source acts (Table 16.5): the exit from SLEEP or DEEP begins, PHOTONIC is released, and the lanes relock (R436, R438). -/
def wake (i : Nat) (s : State) : State :=
  let pend (s : State) : State := { s with pwr := { s.pwr with pendingWake := s.pwr.pendingWake ||| 2 ^ i } }
  let leave (from_ : Nat) (s : State) : State :=
    let t := pend s
    let t := { t with pwr := { t.pwr with wakeSrc := t.pwr.wakeSrc ||| 2 ^ i, wakeFrom := from_, abortPt := 0, padHold := t.pwr.padHold &&& 0x1D } }
    if s.pwr.pendingWake = 0 then portsAll portRelock t else t
  match s.pwr.entering with
  | some t => if wakeAllowed t i || i == 1 then pend s else s
  | none => match s.pwr.state with
    | .sleep => leave 2 s
    | .deep => if wakeAllowed .deep i then leave 3 s else s
    | .off => if i = 0 then
        let t := powerOnStart .fromOff s
        { t with pwr := { t.pwr with wakeSrc := 1, wakeFrom := 4 } }
      else s
    | _ => s

/-- REQ 0 (R435, Table 16.5). -/
def reqRunOp (s : State) : State := wake 1 { s with pwr := { s.pwr with req := 0 } }

/-- The exit from SLEEP or DEEP completes, and the power vector is raised (R436); a port whose relock has not ended goes on with it. -/
def powerExitOp (s : State) : State :=
  if (s.pwr.state == .sleep || s.pwr.state == .deep) && s.pwr.pendingWake != 0 then
    raiseGlobal vPower (settle { s with pwr := { s.pwr with state := .run, pendingWake := 0 } })
  else s

/-- PAD_RELEASE (R438): a group's domain must have power and clock. -/
def padReleaseOp (v : Nat) (s : State) : State :=
  let up := if s.pwr.state == .run || s.pwr.state == .idle then 0x1F else if s.pwr.state == .sleep then 0x1A else 0x18
  let rel := v &&& s.pwr.padHold &&& up
  let s := { s with pwr := { s.pwr with padHold := s.pwr.padHold - rel } }
  let s := payAll (owedPulse (if rel.testBit 3 then forAll (List.range 96) releaseVec (logFlush s) else s))
  settle (if s.rcd.waits then replayOp s else s)

/-! ### Pins -/

/-- WAKE_N (spec/17 R447): a low level of at least 2 cycles is wake source 0, and stays pending as long as it lasts. -/
def wakeNOp (low : Bool) (cycles : Nat) (s : State) : State :=
  let long := low && (s.pin.wakeLow || (decide (2 ≤ cycles) && s.clk.refclk))
  let s := { s with pin := { s.pin with wakeN := !low, wakeLow := long } }
  let s := if coreUp s then wakeAll (updEdges s) else s
  if s.clk.pwrGood && long then wake 0 s else s

/-- PWR_GOOD rises (R440, R448, spec/17 Table 17.1). -/
def pwrRise (straps : Fin 4) (s : State) : State :=
  if s.clk.pwrGood then s
  else
    let s := { s with fuse := { s.fuse with straps := straps }, clk := { s.clk with pwrGood := true } }
    if s.clk.refclk then powerOnStart .powerOn s else s

/-- PWR_GOOD falls (R439): every other domain stops, every pad group is held, and a keep write ends (spec/15 R424). -/
def pwrFall (s : State) : State :=
  if s.clk.pwrGood then
    let s := keepPowerLoss s
    sideRelease { s with clk := { s.clk with pwrGood := false, ready := false, reset := .none }
                         pwr := { s.pwr with padHold := 0x1F, entering := none, step := 0, pendingWake := 0 } }
  else s

/-- A WAKE frame at its receiver (spec/08 R226). -/
def takeWake (w : WakeMsg) (s : State) : State :=
  if wakeOk w && w.identity == s.fuse.identity && s.pwr.state == .sleep then wake 4 s else countHdrBad s

/-- A WAKE frame arrives at a port. -/
def arriveWake (p : Nat) (f : Frame) (w : WakeMsg) (s : State) : State :=
  if !portsUp s || !portTakes s f.hdr.typ p then s
  else if !hopOk f || f.hdr.tag ≠ 0 then countHdrBad s
  else if 63 ≤ f.hdr.hops then countHopLimit s
  else external 1 p (frameData0 f) 0 (frameBytes f) (takeWake w) s

/-- A frame of any kind arrives at a port. -/
def arriveAny (p : Nat) (f : Frame) (s : State) : State :=
  match f.body with
  | .beat b => arriveBeat p f b s
  | .wake w => arriveWake p f w s
  | _ => arriveFrame p f s

end Sys2Proof.Machine
end

