-- ==== Sys2Proof/Machine/RecOps.lean ====
section
/-! DEFINITION. The record and replay unit as its registers drive it (spec/12 R358, R359, R362). -/

namespace Sys2Proof.Machine

/-- OP 1 (R358): a recording starts at the next cycle, or is armed for the next commit or frame boundary. -/
def recordOp (s : State) : State :=
  if s.rcd.active || !logAreaOk s then s
  else
    let s := { s with rcd := { s.rcd with op := 1, passed := false, waits := false } }
    if s.rcd.atCommit || s.mode.chervil then { s with rcd := { s.rcd with armed := true } } else startRecord 1 s

/-- OP 0 (R362): a recording stops with its END entry, a replay without DONE. -/
def recordStopOp (s : State) : State :=
  let s := endRecord 0 s
  { s with rcd := { s.rcd with active := false, armed := false, waits := false, op := 0 } }

/-- A write of TKJ_REC_CTL (Table 12.9, R362). -/
def recCtlWrite (mask v : Word) (s : State) : State :=
  let w := v &&& mask
  let s := { s with rcd := { s.rcd with refused := s.rcd.refused && !bit 61 w, done := s.rcd.done && !bit 60 w } }
  if !bit 0 mask then s
  else
    let s := if s.rcd.active then s
      else { s with rcd := { s.rcd with payload := bit 4 w, wrap := bit 3 w, atCommit := bit 2 w } }
    let s := { s with rcd := { s.rcd with full := false } }
    match fld 0 2 w with
    | 0 => recordStopOp s
    | 1 => recordOp s
    | 2 => replayOp s
    | _ => s

end Sys2Proof.Machine
end

