-- ==== Sys2Proof/Machine/RegOps.lean ====
section
/-! DEFINITION. Registers whose write does more than keep a value: the region table (spec/02 R26, R27), group slots (spec/03 R63, R81), the exception table (spec/08 R220), page records (spec/11 R338), the split-write test mode (spec/15 R421), the mode register (spec/12 R345, spec/13 R376), TKJ_TIME and the power control (spec/16 R445), timers, edges and tallies (spec/09 R273, R276, R277). -/

namespace Sys2Proof.Machine

/-! ### Accesses (R9) -/

/-- Bits that an access writes. -/
def accMask : Acc → Word
  | .full => BitVec.allOnes 64
  | .low => 0xFFFFFFFF
  | .high => 0xFFFFFFFF00000000

/-- The data of an access in its place; the data of a half stand in bits [31:0] of the operand. -/
def accVal (a : Acc) (v : Word) : Word :=
  match a with
  | .full => v
  | .low => v &&& 0xFFFFFFFF
  | .high => v <<< 32

/-- The word after a write of some of its bits. -/
def merge (old mask v : Word) : Word := (old &&& ~~~ mask) ||| (v &&& mask)

/-- Whether a write reaches the field [lo + w - 1 : lo]. -/
def touches (lo w : Nat) (mask : Word) : Bool := maskOf lo w &&& mask != 0

/-- A RW field: it takes the value written if the write reaches it and the value is in range (R467). -/
def putField (lo w : Nat) (ok : Nat → Bool) (mask v old : Word) : Word :=
  let x := fld lo w (merge old mask v)
  if touches lo w mask && ok x then setFld lo w x old else old

/-- Any value is in range. -/
def anyVal (_ : Nat) : Bool := true

def inRange (lo hi : Nat) (x : Nat) : Bool := decide (lo ≤ x ∧ x ≤ hi)

/-! ### Region table -/

/-- Whether a slot's MODE allows a region (Table 3.1, R61). -/
def modeAllows (g : Group) (r : Region) : Bool :=
  g.en && decide (g.self < gSize g) &&
  (r.cls == cReplicated ||
   (match g.mode with
    | 0 => (r.cls == cExact && !r.fresh) || r.cls == cNarrow16 || r.cls == cNarrow24
    | 1 => (r.cls == cExact && r.fresh) || r.cls == cScalar
    | 2 => r.cls == cExperience
    | _ => false))

/-- Formats of Table 2.3. -/
def regionFormat (f : Nat) : Bool := decide (f ≤ 5) || decide (0x10 ≤ f ∧ f ≤ 0x14)

/-- The format and FRESH conditions of Table 2.2. -/
def formatAllowed (r : Region) : Bool :=
  let f := r.format
  regionFormat f &&
  (match r.cls with
   | 2 => f == 1 && !r.fresh
   | 3 => f == 1 && !r.fresh
   | 4 => decide (1 ≤ f ∧ f ≤ 3) || decide (0x10 ≤ f)
   | 5 => f == 0 || f == 4 || f == 5
   | 6 => f == 0 && r.fresh
   | _ => true)

/-- The tier conditions of Table 2.2. A T0 region that would reach a block area, which nothing addresses (spec/15 R412), meets none (DESIGN CHOICE, log 164). -/
def tierAllowed (r : Region) : Bool :=
  r.tier == 1 || (r.tier == 0 && (r.cls == cExact || r.cls == cDerived || r.cls == cScalar) && decide (regionAddr r + 4096 * r.units ≤ Config.t0Bytes))

/-- Bytes that a region covers. -/
def regionsMeet (a b : Region) : Bool :=
  decide (regionAddr a < regionAddr b + 4096 * b.units ∧ regionAddr b < regionAddr a + 4096 * a.units)

/-- The source of a DERIVED region (Table 2.2). An entry that names its own INDEX as SOURCE is checked against the entry that stands there before the write (DESIGN CHOICE, log 142). -/
def sourceOk (s : State) (r : Region) : Bool :=
  let x := regionOf s r.source
  x.valid && (x.cls == cExact || x.cls == cNarrow16 || x.cls == cNarrow24) && x.owner == r.owner &&
  elemCount x.format x.units == elemCount r.format r.units

/-- Whether a written entry breaks the condition of a CAUSE of Table 2.13 (R27, spec/03 R65); i is its index. -/
def regionBreaks (s : State) (i : Nat) (r : Region) (cause : Nat) : Bool :=
  let old := regionOf s i
  let s' := modRegion i (fun _ => r) s
  match cause with
  | 1 => (old.valid && (partOf s old.owner).bound) || (r.valid && (partOf s r.owner).bound)
  | 2 => r.valid && s.reg.table.any fun x => x.1 != i && x.2.valid && regionsMeet x.2 r
  | 3 => r.valid && (r.cls == 0 || decide (8 ≤ r.cls))
  | 4 => r.valid && !formatAllowed r
  | 5 => r.valid && !tierAllowed r
  | 6 => r.valid && r.cls != cDerived && !modeAllows (grpOf s r.group) r
  | 7 => r.valid && (r.units == 0 || (codedClass r.cls && decide ((grpOf s r.group).dataUnits < unitsIn (tableRegions s'.reg.table r.group))) ||
      (r.cls == cScalar && (r.units != 1 || decide (64 < (s'.reg.table.filter fun x => x.2.valid && x.2.cls == cScalar).length))) ||
      (r.cls == cExperience && (r.units % 16 != 0 || decide (Config.maxPages < pagesIn (pagedRegions s'.reg.table)))))
  | 8 => r.valid && r.cls == cReplicated && (!s.mode.compat || decide (r.replicas < (grpOf s r.group).m + 1))
  | 9 => r.valid && r.cls == cDerived && !sourceOk s r
  | 10 => old.valid && old.exportPend
  | _ => false

/-- The lowest CAUSE that refuses a written entry (R27). -/
def regionCause (s : State) (i : Nat) (r : Region) : Option Nat :=
  (List.range 11).find? fun c => c != 0 && regionBreaks s i r c

/-- The entry that TKJ_REGION_ENT spells (Table 2.1); the fields that the block sets are clear. -/
def writtenRegion (s : State) : Region :=
  let w (n : Nat) : Word := SMap.look 0 s.reg.ent n
  regionOfWords (w 0) (w 1) (w 2) (w 3)

/-- TKJ_REGION_SEL.WRITE (R27). It is done within the write, so that BUSY never reads 1 (R57; DESIGN CHOICE, log 140). While a job is open the entry in force for it is kept (R28). -/
def regionWriteOp (i : Nat) (s : State) : State :=
  let r := writtenRegion s
  let s := { s with reg := { s.reg with index := i } }
  match regionCause s i r with
  | some c => { s with reg := { s.reg with refused := true, cause := c, refuseCnt := min (s.reg.refuseCnt + 1) 0xFFFFFFFF } }
  | none =>
    let late := if s.ep.phase = 0 ∨ (SMap.find s.reg.late i).isSome then s.reg.late else SMap.put s.reg.late i (regionOf s i)
    modRegion i (fun _ => r) { s with reg := { s.reg with late := late } }

/-- TKJ_REGION_SEL.READ (R26), done at once as a WRITE is (R57; DESIGN CHOICE, log 140). -/
def regionReadOp (i : Nat) (s : State) : State :=
  let w := regionWords (regionOf s i)
  { s with reg := { s.reg with index := i, ent := (List.range 4).map fun n => (n, w.getD n 0) } }

/-! ### Group slots -/

/-- The slot that word +0x00 spells (Table 3.10). -/
def groupOfWord (g : Group) (w : Word) : Group :=
  { g with en := bit 63 w, mode := fld 54 2 w, axis := fld 52 2 w, standbys := fld 50 2 w, self := fld 40 5 w, k := fld 8 5 w, m := fld 0 3 w }

/-- Whether a slot breaks the check of a CAUSE (Table 3.10, R58, R59). -/
def groupBreaks (s : State) (g : Group) (cause : Nat) : Bool :=
  match cause with
  | 1 => !inRange 2 16 g.k
  | 2 => !inRange 1 4 g.m
  | 3 => decide (20 < gSize g)
  | 4 => decide (2 < g.standbys)
  | 5 => decide (gTotal g ≤ g.self)
  | 6 => decide (torusDim s g.axis < gTotal g)
  | 7 => g.mode == 3
  | 9 => g.parTier != 1 || g.hdrTier != 1
  | _ => false

def groupCause (s : State) (g : Group) : Option Nat := (List.range 10).find? fun c => groupBreaks s g c

/-- A write of word +0x00 (R63, R81). -/
def groupWriteOp (i : Nat) (mask v : Word) (s : State) : State :=
  let g := grpOf s i
  let bad (c : Nat) (s : State) : State := modGrp i (fun g => { g with badGeom := true, cause := c }) s
  if anyBound s then bad 8 (frozen s)
  else
    let n := groupOfWord g (merge (groupWord g 0) mask v)
    if !n.en then modGrp i (fun _ => n) s
    else match groupCause s n with
      | some c => bad c s
      | none => modGrp i (fun _ => n) s

/-- A write of words +0x08 to +0x20 (R63, R81). -/
def groupFieldWrite (i w : Nat) (mask v : Word) (s : State) : State :=
  let g := grpOf s i
  if anyBound s then frozen s
  else if g.en then s
  else
    let x := merge (groupWord g w) mask v
    modGrp i (fun g => match w with
      | 1 => { g with rank0 := fld 0 17 x }
      | 2 => { g with dataUnits := fld 0 32 x }
      | 3 => { g with parTier := fld 62 2 x, parBase := fld 0 52 x }
      | _ => { g with hdrTier := fld 62 2 x, hdrBase := fld 0 52 x }) s

/-! ### Exception table and page records -/

def xlatOfWord (w : Word) : XlatEnt := { valid := bit 63 w, retired := bit 62 w, coord := fld 17 17 w, rank := fld 0 17 w }
def xlatWord (e : XlatEnt) : Word := wordOf [(17, e.rank), (17, e.coord), (28, 0), (1, b2n e.retired), (1, b2n e.valid)]

/-- TKJ_XLAT_SEL.WRITE (R220, Table 8.18), done within the register write, so that TKJ_XLAT_STAT.BUSY never reads 1 (DESIGN CHOICE, log 140). -/
def xlatWriteOp (i : Nat) (s : State) : State :=
  let s := { s with fab := { s.fab with xlatIndex := i } }
  if anyBound s then frozen s
  else putXlat i (xlatOfWord s.fab.xlatEnt) s

/-- TKJ_XLAT_SEL.READ. -/
def xlatReadOp (i : Nat) (s : State) : State :=
  { s with fab := { s.fab with xlatIndex := i, xlatEnt := xlatWord (SMap.look {} s.fab.xlat i) } }

/-- TKJ_PAGE_SEL.READ (R338). -/
def pageReadOp (n : Nat) (s : State) : State := { s with page := { s.page with sel := n, recReg := pageWord (pageOf s n) } }

/-! ### TKJ_ECC_SPLIT (R421) -/

/-- A write of TKJ_ECC_SPLIT; arm says that the control-port write just before was KEY 0x5E, unlock that the port may unlock. -/
def eccSplitWrite (arm unlock : Bool) (mask v : Word) (s : State) : State :=
  let w := putField 62 1 anyVal mask v (putField 61 1 anyVal mask v (putField 48 5 anyVal mask v s.sram.split))
  let s := { s with sram := { s.sram with split := w } }
  if !touches 0 8 mask then s
  else match fld 0 8 v with
    | 0x00 => { s with sram := { s.sram with split := setFld 63 1 0 w } }
    | 0x5E => if unlock then { s with sram := { s.sram with splitArm := true } } else s
    | 0xE5 => if unlock && arm && !anyBound s then { s with sram := { s.sram with split := setFld 63 1 1 w } } else s
    | _ => s

/-! ### Mode, time, power -/

/-- Whether COMPAT may be cleared: no REPLICATED region, and no image of compatibility mode on the block (R376). -/
def compatNeeded (s : State) : Bool :=
  (s.reg.table.any fun x => x.2.valid && x.2.cls == cReplicated) ||
  s.part.any fun x => (x.2.image.any fun m => m.version == 1) || x.2.staged.any fun m => m.version == 1

/-- A write of TKJ_MODE (R345, R376). -/
def modeWrite (mask v : Word) (s : State) : State :=
  if !bit 0 mask then s
  else
    let s := if anyBound s then frozen s
      else if bit 1 v then { s with mode := { s.mode with compat := true } }
      else if compatNeeded s then s
      else { s with mode := { s.mode with compat := false } }
    let c := bit 0 v
    if c && (s.mode.table.isNone || replaying s) then s
    else if anyBound s then { s with mode := { s.mode with chervilNext := pendPut (instant s) c s.mode.chervilNext } }
    else { s with mode := { s.mode with chervil := c, chervilNext := [] } }

/-- A write of TKJ_TIME, rounded down to a vigil cycle (R445); the seconds powered go on (R426). -/
def timeWrite (mask v : Word) (s : State) : State :=
  if anyBound s then frozen s
  else
    let n := (merge (BitVec.ofNat 64 s.clk.time) mask v).toNat / 40 * 40
    { s with
      clk := { s.clk with time := n }
      keep := { s.keep with life := SMap.put s.keep.life 0 (lifeNow s 0), base := n } }

/-- A write of TKJ_PWR_CTL (R432, R445). -/
def pwrCtlWrite (mask v : Word) (s : State) : State :=
  let s := if bit 63 (v &&& mask) then { s with pwr := { s.pwr with refused := false } } else s
  if !bit 0 mask then s
  else
    let d := putField 16 16 anyVal mask v (putField 8 1 anyVal mask v (deferRead s.pwr.ctl))
    let s := { s with pwr := { s.pwr with ctl := deferWrite (anyBound s) (instant s) s.pwr.ctl d } }
    match fld 0 3 v with
    | 0 => reqRunOp s
    | 2 => reqState .sleep s
    | 3 => reqState .deep s
    | 4 => reqState .off s
    | _ => s

/-! ### Ports -/

/-- A write of TKJ_PORT_CTL (R247, R251). -/
def portCtlWrite (p : Nat) (mask v : Word) (s : State) : State :=
  if !bit 0 mask then s
  else
    let old := deferRead (portOf s p).ctl
    let d := putField 16 16 (inRange 250 16000) mask v (putField 7 1 anyVal mask v old)
    let s := modPort p (fun x => { x with ctl := deferWrite (anyBound s) (instant s) x.ctl d }) s
    let s := if anyBound s then frozen s
      else
        let was := (portOf s p).en
        let s := modPort p (fun x => { x with en := bit 0 v }) s
        if bit 0 v && !was then modPort p (portBegin s) s
        else if !bit 0 v && was then updEdges (modPort p portDark s)
        else s
    if bit 8 v then wakeNbOp p s else s

/-! ### Timers, edges, tallies -/

/-- A write of a timer word (Table 9.19, R276). -/
def timerWriteOp (p t : Nat) (hi : Bool) (mask v : Word) (s : State) : State :=
  let x := timerOf (partOf s p) t
  if !hi then modTimer p t (fun x => { x with deadline := (merge (BitVec.ofNat 64 x.deadline) mask v).toNat }) s
  else
    let w := merge (timerWord x 1) mask v
    let n : Timer := { x with
      en := bit 63 w, periodic := bit 62 w, evt := bit 61 w, period := fld 0 40 w, expired := x.expired && !bit 60 (v &&& mask) }
    modTimer p t (fun _ => timerValid n) s

/-- A write of an edge detector; its level is taken anew (Table 9.20, R277). -/
def edgeWriteOp (p e : Nat) (mask v : Word) (s : State) : State :=
  let x := edgeOf (partOf s p) e
  let w := merge (edgeWord s x) mask v
  let n : Edge := { x with
    kind := if fld 60 2 w = 3 then x.kind else fld 60 2 w
    evt := bit 59 w
    src := if fld 24 3 w ≥ 6 then x.src else fld 24 3 w
    sel := fld 0 14 w }
  modEdge p e (fun _ => { n with level := edgeLevel s n }) s

/-- A write of a tally word (R273). -/
def tallyWriteOp (n : Nat) (hi : Bool) (mask v : Word) (s : State) : State :=
  let t := tallyOf s n
  let w := merge (tallyWord t (b2n hi)) mask v
  let t' : Tally := if hi then { t with target := BitVec.ofNat 32 (fld 0 32 w), evt := bit 62 w, genWait := bit 63 w }
    else { t with count := BitVec.ofNat 32 (fld 0 32 w), owned := bit 62 w, owner := fld 52 4 w }
  afterTally n (reached t) (modTally n (fun _ => t') s)

end Sys2Proof.Machine
end

