-- ==== Sys2Proof/Machine/RegWrite.lean ====
section
/-! DEFINITION. What a write of each register does (spec/18 R465 to R467; the field tables of the owning chapters), and the control port's accesses (spec/00 R9 to R12, spec/12 Table 12.5, spec/13 R389). -/

namespace Sys2Proof.Machine

/-- A register of plain RW fields, each in range or left alone. -/
def putFields (fs : List (Nat × Nat)) (mask v old : Word) : Word := fs.foldl (fun w f => putField f.1 f.2 anyVal mask v w) old

/-- A field that a write reaches but that is frozen while a partition is bound (Table 18.10). -/
def unlessBound (hit : Bool) (f : State → State) (s : State) : State :=
  if !hit then s else if anyBound s then frozen s else f s

/-- A word of TKJ_P_SHARE: a byte written as 0 leaves its weight (R379). -/
def shareMerge (mask v old : Word) : Word :=
  (List.range 8).foldl (fun w e => putField (8 * e) 8 (· != 0) mask v w) old

/-- A write of word w of a publication entry (R331, Table 11.14). -/
def pubDirWriteOp (e w : Nat) (mask v : Word) (s : State) : State :=
  let x := pubOf s e
  let y := merge (pubWord x w) mask v
  let keep (f : Pub → Pub) : State := if pubFrozen x then s else modPub e f s
  match w with
  | 0 => pubWrite e (setFld 55 1 (b2n (bit 55 (v &&& mask))) y) s
  | 1 => keep fun x => { x with bayA := y }
  | 2 => keep fun x => { x with bayB := y }
  | 3 => keep fun x => { x with owner := fld 48 4 y, vtally := fld 0 14 y }
  | 7 => if bit 0 (v &&& mask) then modPub e (fun x => { x with readersA := 0, readersB := 0 }) s else s
  | _ => s

/-- A write of TKJ_P_CTL (Table 13.10); a reset ends what a flush would. -/
def pctlWrite (p : Nat) (mask v : Word) (s : State) : State :=
  let w := v &&& mask
  let s := if bit 60 mask then modPart p (fun x => { x with admin := bit 60 w }) s else s
  let s := if bit 61 w then unfenceOp p s else s
  let s := if bit 62 w then flushPart p s else s
  let s := if bit 63 w then resetPart p s else s
  if bit 61 w || bit 62 w || bit 63 w then settle s else s

/-- A write of TKJ_MGT_CTL (Table 17.10). A standing CAUSE bit whose mask bit it sets rises in CAUSE AND ALERT_MASK, and alerts (R460; DEDUCED, log 124). -/
def mgtCtlWrite (mask v : Word) (s : State) : State :=
  let w := putField 32 12 (inRange 100 5000) mask v (putField 54 2 (· != 3) mask v (putFields [(63, 1), (56, 7), (0, 10)] mask v s.side.mgtCtl))
  settle (alertRose (alerting s) { s with side := { s.side with mgtCtl := w } })

/-- A write of a message vector; clearing MASK sends one pending message (R386). -/
def vecMapWrite (n : Nat) (mask v : Word) (s : State) : State :=
  let x := vecOf s n
  let w := merge (wordOf [(11, x.entry), (51, 0), (1, b2n x.mask)]) mask v
  releaseVec n { s with msg := { s.msg with vec := SMap.put s.msg.vec n { x with mask := bit 62 w, entry := fld 0 11 w } } }

/-- A write of register r through a mask of bits; arm is what R421 asks of the write just before, port says that the control port writes. One write of TKJ_REGION_SEL or TKJ_XLAT_SEL with WRITE and READ set does the WRITE first (DESIGN CHOICE, log 141). TIER of TKJ_SPREAD_BASE and TKJ_TAKEOVER_BASE and AUX of a group take any value (DESIGN CHOICE, log 183). -/
def writeReg (port arm : Bool) (r : Reg) (mask v : Word) (s : State) : State :=
  let old := readReg s r
  let w := v &&& mask
  let b := anyBound s
  match r with
  | .gctl => if bit 63 w then warmStart s else s
  | .time => timeWrite mask v s
  | .mode => modeWrite mask v s
  | .pwrCtl => pwrCtlWrite mask v s
  | .wakeSrc => { s with pwr := { s.pwr with wakeSrc := s.pwr.wakeSrc &&& (31 - fld 0 5 w) } }
  | .padHold => padReleaseOp (fld 0 5 w) s
  | .hbCtl => unlessBound (touches 0 8 mask) (fun s => { s with tar := { s.tar with hbEn := fld 0 8 v } }) s
  | .svcCtl => if port && bit 63 mask then { s with side := { s.side with full := bit 63 v } } else s
  | .svcWake => if port then s else wake 3 s
  | .mgtCtl => mgtCtlWrite mask v s
  | .alertStat => { s with side := { s.side with alert := s.side.alert &&& (1023 - fld 0 10 w) } }
  | .keepWord n => keepWriteOp n (mask == BitVec.allOnes 64) v s
  | .keepWear n => if bit 62 w then { s with keep := { s.keep with verifyFail := SMap.del s.keep.verifyFail n } } else s
  | .keepStat => if bit 62 w then snapshotOp s else s
  | .vecMap n => vecMapWrite n mask v s
  | .vecCause => { s with msg := { s.msg with cause := s.msg.cause &&& (1023 - fld 0 10 w) } }
  | .portCtl p => portCtlWrite p mask v s
  | .portShare p k =>
    modPort p (fun x => match k with
      | 0 => { x with share0 := deferWrite b (instant s) x.share0 (merge old mask v) }
      | 1 => { x with share1 := deferWrite b (instant s) x.share1 (merge old mask v) }
      | _ => { x with share2 := deferWrite b (instant s) x.share2 (putField 0 8 anyVal mask v old) }) s
  | .rankSelf => unlessBound (touches 17 17 mask) (fun s => { s with fab := { s.fab with coord := fld 17 17 (merge old mask v) } }) s
  | .torus => unlessBound (touches 0 27 mask) (fun s =>
      { s with fab := { s.fab with torus := putFields [(0, 5), (8, 5), (16, 4), (24, 3)] mask v s.fab.torus } }) s
  | .xlatSel =>
    let i := fld 0 12 (merge old mask v)
    let s := { s with fab := { s.fab with xlatIndex := i } }
    let s := if bit 63 w then xlatWriteOp i s else s
    if bit 62 w then xlatReadOp i s else s
  | .xlatEnt => { s with fab := { s.fab with xlatEnt := putFields [(0, 17), (17, 17), (62, 1), (63, 1)] mask v s.fab.xlatEnt } }
  | .memopCtl => { s with fab := { s.fab with
      memopCtl := putField 32 20 (inRange 100 100000) mask v (putField 0 16 (inRange 100 50000) mask v s.fab.memopCtl) } }
  | .group g k =>
    if k = 0 then groupWriteOp g mask v s
    else if k ≤ 4 then groupFieldWrite g k mask v s
    else if k = 7 ∧ bit 63 w then modGrp g (fun g => { g with badGeom := false }) s
    else s
  | .epoch =>
    if !bit 0 mask then s
    else if s.ep.phase ≠ 0 then (if b then frozen s else s)
    else wakeAll { s with ep := { s.ep with epoch := fld 0 32 v } }
  | .trainWin => { s with cod := { s.cod with trainWin := deferWrite b (instant s) s.cod.trainWin (putField 0 24 (inRange 20 10000) mask v old) } }
  | .outboxBase => unlessBound true (fun s => { s with cod := { s.cod with outboxBase := putFields [(0, 52), (62, 2)] mask v old } }) s
  | .outboxSize => unlessBound (touches 0 20 mask && decide (256 ≤ fld 0 20 (merge old mask v))) (fun s =>
      { s with cod := { s.cod with outboxSize := putField 0 20 (fun x => decide (256 ≤ x)) mask v old } }) s
  | .regionSel =>
    let i := fld 0 14 (merge old mask v)
    let s := { s with reg := { s.reg with index := i } }
    let s := if bit 63 w then regionWriteOp i s else s
    if bit 62 w then regionReadOp i s else s
  | .regionEnt k => { s with reg := { s.reg with ent := SMap.put s.reg.ent k (merge old mask v) } }
  | .regionStat => if bit 62 w then { s with reg := { s.reg with refused := false } } else s
  | .straggle =>
    let x := putField 0 8 (inRange 5 200) mask v (putField 16 4 (inRange 1 15) mask v (deferRead s.tar.straggle))
    { s with tar := { s.tar with straggle := deferWrite b (instant s) s.tar.straggle x } }
  | .rebuildCtl =>
    let x := putField 51 7 (inRange 5 100) mask v (putFields [(62, 1), (58, 2)] mask v (deferRead s.reb.ctl))
    { s with reb := { s.reb with ctl := deferWrite b (instant s) s.reb.ctl x } }
  | .rebuildStat => { s with reb := { s.reb with stat := s.reb.stat &&& ~~~ (w &&& maskOf 28 4) } }
  | .spreadBase => unlessBound true (fun s => { s with reb := { s.reb with spreadBase := putFields [(0, 52), (62, 2)] mask v old } }) s
  | .spreadSize => unlessBound (touches 0 24 mask) (fun s => { s with reb := { s.reb with spreadSize := putField 0 24 anyVal mask v old } }) s
  | .takeBase => unlessBound true (fun s => { s with reb := { s.reb with takeBase := putFields [(0, 52), (62, 2)] mask v old } }) s
  | .takeSize => unlessBound (touches 0 24 mask) (fun s => { s with reb := { s.reb with takeSize := putField 0 24 anyVal mask v old } }) s
  | .auditCtl =>
    let x := putField 0 7 (inRange 1 50) mask v (putField 63 1 anyVal mask v (deferRead s.aud.ctl))
    { s with aud := { s.aud with ctl := deferWrite b (instant s) s.aud.ctl x } }
  | .reduceMode =>
    { s with upd := { s.upd with reduceMode := deferWrite b (instant s) s.upd.reduceMode (putField 0 1 anyVal mask v (deferRead s.upd.reduceMode)) } }
  | .pairedCtl =>
    { s with upd := { s.upd with
        pairedEn := deferWrite (b && s.mode.chervil) (instant s) s.upd.pairedEn (putField 0 16 anyVal mask v (deferRead s.upd.pairedEn)) } }
  | .collTimeout =>
    { s with coll := { s.coll with timeout := deferWrite b (instant s) s.coll.timeout (putField 0 24 (inRange 1000 10000000) mask v old) } }
  | .laneFlags p => modPart p (fun x => { x with laneFlags := x.laneFlags &&& (63 - fld 0 6 w) }) s
  | .tapSlots =>
    { s with tap := { s.tap with
        slots := deferWrite b (instant s) s.tap.slots (putField 0 8 (fun x => decide (x ≤ tapLimit s)) mask v (deferRead s.tap.slots)) } }
  | .pfCtl p =>
    let s := if bit 61 w then modPart p (fun x => { x with pf := { x.pf with fault := false } }) s else s
    if bit 62 w then disarmOp p s else s
  | .pubDir e k => pubDirWriteOp e k mask v s
  | .pageSel =>
    let n := fld 0 23 (merge old mask v)
    let s := { s with page := { s.page with sel := n } }
    if bit 63 w then pageReadOp n s else s
  | .pageCtl => if bit 63 w then clearLost s else s
  | .expHead =>
    let n := (merge old mask v).toNat
    if n < s.exp.head ∨ s.exp.tail < n then s else { s with exp := { s.exp with head := n } }
  | .expCtl => { s with exp := { s.exp with mbps := fld 0 16 (putField 0 16 (inRange 10 60000) mask v old) } }
  | .scrubCtl =>
    { s with sram := { s.sram with
        en := if bit 63 mask then bit 63 v else s.sram.en
        slow := s.sram.slow && !bit 61 w
        limitS := if bit 0 mask then fld 0 16 v else s.sram.limitS } }
  | .eccSplit => eccSplitWrite arm port mask v s
  | .recCtl => recCtlWrite mask v s
  | .recBase => if s.rcd.active then s else { s with rcd := { s.rcd with base := putFields [(0, 52), (62, 2)] mask v old } }
  | .recPbase => if s.rcd.active then s else { s with rcd := { s.rcd with pbase := putFields [(0, 52), (62, 2)] mask v old } }
  | .recSize => if s.rcd.active then s else { s with rcd := { s.rcd with size := merge old mask v } }
  | .psqdb p q => if bit 0 mask then wakeAll (sqDoorbellOp p q (fld 0 16 v) s) else s
  | .pcqhd p q => if bit 0 mask then cqHeadOp p q (fld 0 16 v) s else s
  | .pctl p => pctlWrite p mask v s
  | .pstat p => modPart p (fun x => { x with causes := x.causes &&& (255 - fld 0 8 w) }) s
  | .pshare p => modPart p (fun x => { x with share := deferWrite x.bound (instant s) x.share (shareMerge mask v old) }) s
  | .pimage p => if bit 61 w then modPart p (fun x => { x with imgRefused := false }) s else s
  | .psq p q k =>
    if k = 0 then (if (sqOf (partOf s p) q).en then s else modSq p q (fun y => { y with base := merge old mask v }) s)
    else wakeAll (sqEnableOp p q (merge old mask v) s)
  | .pcq p q k =>
    if k = 0 then (if (cqOf (partOf s p) q).en then s else modCq p q (fun y => { y with base := merge old mask v }) s)
    else cqEnableOp p q (merge old mask v) s
  | .pmwin p k j =>
    if (partOf s p).bound then frozen s
    else
      let m : MWin := SMap.look {} (partOf s p).mwin k
      let n := merge old mask v
      modPart p (fun x => { x with mwin := SMap.put x.mwin k (if j = 0 then { m with w0 := n } else { m with w1 := n }) }) s
  | .ptimer p t k => timerWriteOp p t (k == 1) mask v s
  | .pedge p e => edgeWriteOp p e mask v s
  | .tally n k => tallyWriteOp n (k == 1) mask v s
  | _ => s

/-! ### The control port -/

/-- Logs a control-port write as an external input and applies it (Table 12.5); the write before decides whether TKJ_ECC_SPLIT is armed (R421). -/
def ctlInput (off : Nat) (a : Acc) (v : Word) (f : Bool → State → State) (s : State) : State :=
  if portsUp s && s.clk.ready then
    let d0 := pack [(24, off), (1, b2n (a == .high)), (1, b2n (a != .full))]
    let run (s : State) : State := f s.sram.splitArm { s with sram := { s.sram with splitArm := false } }
    if off = 0x1C0000 then run (logIn 2 0 d0 v.toNat [] s) else external 2 0 d0 v.toNat [] run s
  else s

/-- A write of the register at an offset by a port (R464, R389). -/
def writeAt (port arm : Bool) (off : Nat) (a : Acc) (v : Word) (s : State) : State :=
  match regAt off with
  | some r => writeReg port arm r (accMask a) (accVal a v) s
  | none => violate 9 s

/-- A control-port write (R12). -/
def ctlWrite (off : Nat) (a : Acc) (v : Word) (s : State) : State := ctlInput off a v (fun arm => writeAt true arm off a v) s

/-- The half of a register that a 32-bit read returns (R9), or the whole of it. -/
def accPart (a : Acc) (v : Word) : Word :=
  match a with
  | .full => v
  | .low => v &&& 0xFFFFFFFF
  | .high => v >>> 32

/-- A read of a register: the value, and the state with its RC fields cleared where the read has 64 bits (R10). -/
def readAt (off : Nat) (a : Acc) (s : State) : Word × State :=
  match regAt off with
  | none => (0, violate 9 s)
  | some r =>
    let v := readNow s r
    (accPart a v, if s.clk.ready && a == .full then rcTake r v s else s)

/-- A control-port read; a 64-bit one of an RC register is an external input (Table 12.5). -/
def ctlRead (off : Nat) (a : Acc) (s : State) : State :=
  if portsUp s then
    let go (s : State) : State :=
      let (v, s) := readAt off a s
      outResp (.ctl v) s
    match regAt off with
    | some r => if a != .full || (rcFields r).isEmpty then go s else external 3 0 off 0 [] go s
    | none => go s
  else s

end Sys2Proof.Machine
end

