-- ==== Sys2Proof/Machine/Sideband.lean ====
section
/-! DEFINITION. The service port (spec/17 R449 to R456), the management bus as a target (R457 to R459) and as the controller of alert messages (R460, R461), the alert line (R462), and strobes and pins of edge detectors (spec/09 R277). -/

namespace Sys2Proof.Machine

/-! ### Register accesses of the sideband ports -/

/-- Counts a framing error of a sideband port (R453, R459). -/
def sideBad (s : State) : State := violate 5 s

/-- Whether a sideband port may write an offset (R454). -/
def sideMayWrite (s : State) (off : Nat) : Bool :=
  off / 8 * 8 != 0x010100 && (s.side.full || decide (0x010000 ≤ off ∧ off < 0x030000))

/-- A sideband write at an offset aligned to its width (R454). -/
def sideWrite (off : Nat) (size64 : Bool) (v : Word) (s : State) : State :=
  if !s.clk.ready then s
  else if !sideMayWrite s off then { s with side := { s.side with svcStat := bump 0 16 s.side.svcStat } }
  else if size64 then writeAt false false off .full v s
  else if off % 8 = 4 then writeAt false false (off - 4) .high v s
  else writeAt false false off .low v s

/-- What an access reads, and the state after it: no RC field clears yet (R451). -/
def sideRead (off : Nat) (size64 : Bool) (s : State) : Word × State :=
  match regAt (off / 8 * 8) with
  | none => (0, violate 9 s)
  | some r =>
    let v := readNow s r
    (if size64 then v else if off % 8 = 4 then v >>> 32 else v &&& 0xFFFFFFFF, s)

/-- The clear that a completed 64-bit read brings: RC counts fall by what was returned (R451, R458). -/
def sideTake (off : Nat) (size64 : Bool) (v : Word) (s : State) : State :=
  if !size64 || !s.clk.ready then s
  else match regAt off with
    | some r => rcTake r v s
    | none => s

/-- Whether the read at an offset has a side effect (R10). -/
def readClears (off : Nat) (size64 : Bool) : Bool := size64 && (match regAt off with
  | some r => !(rcFields r).isEmpty
  | none => false)

/-- DATA0 of a sideband access: command word and offset (R455). -/
def sideData0 (op : Nat) (size64 : Bool) (count off : Nat) : Nat :=
  pack [(32, off), (16, 0), (4, count), (7, 0), (1, b2n size64), (4, op)]

/-- A completed read access enters the log, or is a live input that replay discards; a read without side effects is exempt (R455, spec/12 R359). -/
def readDone (src count off : Nat) (size64 : Bool) (v : Word) (s : State) : State :=
  let d0 := sideData0 1 size64 count off
  if readClears off size64 then external 7 src d0 v.toNat [] (sideTake off size64 v) s else logIn 7 src d0 v.toNat [] s

/-! ### SPI frames -/

/-- Offset of access i of a frame (R450). -/
def svcOff (f : SvcFrame) (i : Nat) : Nat := f.offset + (if f.size64 then 8 else 4) * i

/-- A misaligned OFFSET, or a last access beyond the window (Table 17.4). -/
def svcMisplaced (f : SvcFrame) : Bool :=
  f.offset % (if f.size64 then 8 else 4) != 0 || decide (0x1000000 ≤ svcOff f f.count.val)

def countBadCmd (s : State) : State := sideBad { s with side := { s.side with frame := none, svcStat := bump 16 16 s.side.svcStat } }

/-- Every register of a frame is read, in ascending offset (R451). -/
def svcReadAll (f : SvcFrame) (s : State) : List Word × State :=
  (List.range (f.count.val + 1)).foldl (fun (acc : List Word × State) i =>
    let (v, s) := sideRead (svcOff f i) f.size64 acc.2
    (acc.1 ++ [v], s)) ([], s)

/-- SVC_ADDRESS_WORD: the address word of a READ frame completes (R451). -/
def svcAddressOp (f : SvcFrame) (s : State) : State :=
  if !portsUp s then s
  else if svcMisplaced f then countBadCmd s
  else
    let (vs, s) := svcReadAll f s
    { s with side := { s.side with frame := some (f, vs) } }

/-- The data words of values (R450). -/
def svcDataWords (f : SvcFrame) (vs : List Word) : List Half :=
  vs.flatMap fun (v : Word) => if f.size64 then [v.setWidth 32, (v >>> 32).setWidth 32] else [v.setWidth 32]

/-- Whether the sideband outputs are held at high impedance: nothing is sent then (R446, spec/16 R437). -/
def sideHeld (s : State) : Bool := s.pwr.padHold.testBit 4

/-- SVC_READ: a READ frame completes; its registers were read at the address word (R451). Values that did not leave clear nothing. -/
def svcReadOp (f : SvcFrame) (s : State) : State :=
  if !portsUp s then s
  else if sideHeld s then { s with side := { s.side with frame := none } }
  else if svcMisplaced f then countBadCmd s
  else
    let r : List Word × State := match s.side.frame with
      | some x => if x.1 = f then (x.2, s) else svcReadAll f s
      | none => svcReadAll f s
    let s := { r.2 with side := { r.2.side with frame := none } }
    let s := (r.1.zipIdx).foldl (fun s x => readDone 4 f.count.val (svcOff f x.2) f.size64 x.1 s) s
    outResp (.svcWords (svcDataWords f r.1)) s

/-- One access of a WRITE: a live input, which replay discards unless it writes TKJ_REC_CTL, as it does one of the control port (R454, spec/12 R359). -/
def sideWriteIn (src count off : Nat) (size64 : Bool) (v : Word) (s : State) : State :=
  let d0 := sideData0 2 size64 count off
  if off / 8 * 8 = 0x1C0000 then sideWrite off size64 v (logIn 7 src d0 v.toNat [] s) else external 7 src d0 v.toNat [] (sideWrite off size64 v) s

/-- The value of access i of a WRITE frame, low half first (R450). -/
def svcValue (f : SvcFrame) (data : List Half) (i : Nat) : Word :=
  if f.size64 then (data.getD (2 * i) 0).setWidth 64 ||| ((data.getD (2 * i + 1) 0).setWidth 64 <<< 32) else (data.getD i 0).setWidth 64

/-- SVC_WRITE: the last data word of a WRITE frame completes (R452). -/
def svcWriteOp (f : SvcFrame) (data : List Half) (s : State) : State :=
  if !portsUp s then s
  else if svcMisplaced f then countBadCmd s
  else (List.range (f.count.val + 1)).foldl (fun s i => sideWriteIn 4 f.count.val (svcOff f i) f.size64 (svcValue f data i) s) s

/-- SVC_FRAME_ERROR (Table 17.4). -/
def svcErrorOp (e : SvcError) (s : State) : State :=
  if !portsUp s then s
  else match e with
    | .short => sideBad { s with side := { s.side with frame := none, svcStat := bump 48 16 s.side.svcStat } }
    | .badCmd => countBadCmd s
    | .extra => sideBad { s with side := { s.side with svcStat := bump 32 16 s.side.svcStat } }

/-! ### The management bus as a target -/

/-- The three pointer bytes: the target takes them as its pointer, or answers the first with a NACK where its bits [2:0] are not 0 (R457). -/
def i2cPoint (off : Nat) (s : State) : Option Nat × State :=
  if !portsUp s || sideHeld s then (none, s)
  else
    let s := { s with side := { s.side with target := false } }
    if off % 8 ≠ 0 then (none, outResp .i2cNack s)
    else (some (off % 2 ^ 24), { s with side := { s.side with ptr := off % 2 ^ 24 } })

/-- The pointer advances by 8, within its 24 bits (R457). -/
def i2cNext (s : State) : State := { s with side := { s.side with ptr := (s.side.ptr + 8) % 2 ^ 24 } }

/-- I2C_WRITE: the eighth data byte for the pointer is acknowledged (R457). -/
def i2cWriteOp (off : Nat) (v : Word) (s : State) : State :=
  match i2cPoint off s with
  | (none, s) => s
  | (some a, s) => i2cNext (sideWriteIn 5 0 a true v s)

/-- I2C_READ: a register is read, sent and its eighth byte answered, in one command: nothing stands between the read and the clear (R458; DESIGN CHOICE, log 197). -/
def i2cReadOp (off : Nat) (s : State) : State :=
  match i2cPoint off s with
  | (none, s) => s
  | (some a, s) =>
    let (v, s) := sideRead a true s
    i2cNext (outResp (.i2c v) (readDone 5 0 a true v s))

/-- I2C_BUS_ERROR (R459). -/
def i2cErrorOp (s : State) : State :=
  if portsUp s && !sideHeld s then sideBad { s with side := { s.side with target := false, mgtStat := bump 0 8 s.side.mgtStat } } else s

/-- SVC_WAKE: a sideband write of TKJ_SVC_WAKE (R456). -/
def svcWakeOp (i2c : Bool) (s : State) : State :=
  if portsUp s && !(i2c && sideHeld s) then sideWriteIn (if i2c then 5 else 4) 0 0x010110 true 0 s else s

/-! ### Alerts -/

/-- PULSE_US passes (R460). -/
def pulseEndOp (s : State) : State :=
  if portsUp s && s.side.driving then
    updEdges { s with side := { s.side with driving := false, holdoff := true }, pin := { s.pin with alertN := !s.pin.alertHeld } }
  else s

/-- 1 ms after a pulse: what rose meanwhile gives one further pulse and message (R460). -/
def holdoffEndOp (s : State) : State :=
  if portsUp s && s.side.holdoff then
    let r := s.side.rose
    let s := { s with side := { s.side with holdoff := false, rose := 0 } }
    if r = 0 then s else alertPulse r s
  else s

/-- ALERT: a raise of global vector 80 + i reaches TKJ_ALERT_STAT (R460). -/
def alertOp (i : Nat) (s : State) : State := if portsUp s then alertRise i s else s

/-- The message at the head of the queue gets through, with the settings of TKJ_MGT_CTL as they stand at its sending (R460, R463). -/
def alertSend (s : State) : State :=
  match s.side.queue with
  | m :: ms => if s.side.lost || !portsUp s || sideHeld s then s
    else
      let c := s.side.mgtCtl
      { s with side := { s.side with queue := ms, attempts := 0, sent := ⟨mgtAddr s, m.1, m.2, fld 56 7 c, fld 54 2 c⟩ :: s.side.sent } }
  | [] => s

/-- ARBITRATION_LOST: the attempt at the head of the queue fails (R461). -/
def arbLostOp (nack address : Bool) (winner : Nat) (s : State) : State :=
  if !portsUp s || sideHeld s || s.side.queue.isEmpty || s.side.lost then s
  else { s with side := { s.side with
    lost := true, attempts := s.side.attempts + 1
    target := s.side.target || (!nack && address && winner == mgtAddr s)
    mgtStat := if nack then s.side.mgtStat else bump 32 16 s.side.mgtStat } }

/-- ALERT_RETRY: the back-off has passed; after 8 attempts the message is dropped (R461). -/
def alertRetryOp (s : State) : State :=
  if !portsUp s || !s.side.lost then s
  else if 8 ≤ s.side.attempts then
    { s with side := { s.side with lost := false, attempts := 0, queue := s.side.queue.drop 1, mgtStat := bump 8 8 s.side.mgtStat } }
  else { s with side := { s.side with lost := false } }

/-- LINE_STUCK (R462). -/
def lineStuckOp (s : State) : State :=
  if !portsUp s || s.side.driving || s.side.stuck || s.pin.alertN then s
  else
    let s := { s with side := { s.side with stuck := true, mgtStat := bump 16 16 s.side.mgtStat } }
    queueAlert 2 0 (raiseGlobal vAlert s)

/-- LINE_OK (R462). -/
def lineOkOp (s : State) : State :=
  if portsUp s && s.side.stuck && s.pin.alertN then
    raiseGlobal vAlert (queueAlert 3 0 { s with side := { s.side with stuck := false } })
  else s

/-- GRP_ALERT_N is pulled low by another driver, or released by it (R277). -/
def alertLineOp (low : Bool) (s : State) : State :=
  let s := { s with pin := { s.pin with alertHeld := low, alertN := !(low || s.side.driving) } }
  if coreUp s then wakeAll (updEdges s) else s

/-! ### Step strobes -/

/-- A strobe of gen_step[n]: a pulse that edge detectors of source 5 see rise and fall (R277); nothing while SURR is held (spec/16 R437). -/
def genStepOp (n : Nat) (s : State) : State :=
  if coreUp s && !s.pwr.padHold.testBit 2 then
    let s := updEdges { s with pin := { s.pin with genStep := 2 ^ n } }
    wakeAll (updEdges { s with pin := { s.pin with genStep := 0 } })
  else s

end Sys2Proof.Machine
end

