-- ==== Sys2Proof/Machine/Surround.lean ====
section
/-! DEFINITION. The state SRAM's write-back and sage (spec/15 R416 to R418), writes and requests of the surroundings (spec/04 R109, spec/11 R333, R339, R342, spec/07 R211, spec/09 R273, R275), and slot boundaries in chervil mode (spec/12 R349 to R351, R358). -/

namespace Sys2Proof.Machine

/-! ### Maintenance slots -/

/-! ### State SRAM -/

/-- Writes the corrected bytes of a line back that no write has reached since (R416). -/
def fixLine (l : Nat) (s : State) : State :=
  let mine := s.sram.fixBytes.filter fun b => b / 64 == l
  (s.sram.check.filter fun c => mine.contains c.1).foldl (fun t c =>
    match eccDecide (uget t.mem c.1) c.2 with
    | .fixed b => { t with mem := uset t.mem c.1 b, sram := { t.sram with check := SMap.del t.sram.check c.1 } }
    | _ => t) { s with sram := { s.sram with fixBytes := s.sram.fixBytes.filter fun b => b / 64 != l } }

/-- WRITE_BACK: the line leaves the queue (R416). -/
def writeBackOp (l : Nat) (s : State) : State :=
  if coreUp s && s.sram.wbq.contains l then
    fixLine l { s with sram := { s.sram with wbq := s.sram.wbq.filter (· != l) } }
  else s

/-- The first valid line of a bank at or past its position in the lap. -/
def sageNext (s : State) (b : Nat) : Option Nat :=
  (s.sram.valid.find? fun x => x.2 && x.1 % 64 == b && decide (SMap.look 0 s.sram.pos b ≤ x.1 / 64)).map (·.1)

/-- The lap ends once no bank has a line left (R418). -/
def sageLapEnd (s : State) : State :=
  if (List.range 64).all fun b => (sageNext s b).isNone then
    let us := (s.clk.wall - s.sram.lapStart) / 1000
    bumpLife 3 { s with sram := { s.sram with
      running := false, pos := [], lapEnd := s.clk.wall
      lap := bump 32 32 (setFld 0 32 (min us 0xFFFFFFFF) s.sram.lap)
      slow := s.sram.slow || (s.sram.limitS != 0 && decide (s.sram.limitS * 1000000 < us)) } }
  else s

/-- SAGE_SCRUB: sage reads one line of a bank (R418); a lap in progress keeps the block in RUN (spec/16 R431). -/
def sageOp (b : Nat) (s : State) : State :=
  if !coreUp s || !s.sram.en || splitOn s || !maintSlot s 0 then s
  else
    let s := leaveIdle <| if s.sram.running then s else { s with sram := { s.sram with running := true, pos := [], lapStart := s.clk.wall } }
    match sageNext s b with
    | some l => sageLapEnd (memTouch (64 * l) 64 { s with sram := { s.sram with pos := SMap.put s.sram.pos b (l / 64 + 1) } }).1
    | none => sageLapEnd s

/-! ### Writes of the surroundings -/

/-- A write on the coded-store path (spec/02 R45, spec/04 R109, R110): refused into a shared page (spec/11 R342), held while the path holds writes, else taken. -/
def codedStoreIn (a : Nat) (bs : List Byte) (s : State) : State :=
  if !pageWriteOk s a bs.length then violate 7 s
  else
    let clash := s.cod.held.any fun k => decide (k.addr.toNat < a + bs.length ∧ a < k.addr.toNat + k.data.length)
    if clash || writeBlocked a bs.length s then
      holdWrite (BitVec.ofNat 64 a) bs (if touchesCoded s a bs.length then countCsWrite s else s)
    else pathWrite a bs s

/-- A request of the surroundings reaches the block while its core runs or is in IDLE; it waits while TAP, for a write, or SURR is held (spec/16 R437). -/
def request (src d0 d1 : Nat) (pay : List Byte) (f : State → State) (s : State) : State :=
  if coreUp s && !s.pwr.padHold.testBit (if src = 0 then 0 else 2) then external 6 src d0 d1 pay (fun s => settle (f (leaveIdle s))) s else s

def codedStoreOp (a : Nat) (bs : List Byte) (s : State) : State := request 0 a 0 bs (codedStoreIn a bs) s

/-- A tap write into an EXPERIENCE page (R342); the data do not enter the log (spec/12 R355), and an export copies no unit for it (spec/14 R396, R397). -/
def tapWriteOp (a : Nat) (bs : List Byte) (s : State) : State :=
  if !tapFree s then s
  else if pageWriteOk s a bs.length then memWrite a bs s else violate 7 s

/-- A tap reports an uncorrectable line of T1: it is counted, poisoned and repaired. A tap reports with the data of a read, so none comes while the core is down or TAP is held (R315, R344, spec/07 R211, spec/16 R437; DESIGN CHOICE, log 198). -/
def tapPoisonOp (a : Nat) (s : State) : State :=
  let l := a / 64 * 64
  if tierOf a ≠ 1 || !coreUp s || !tapFree s then s
  else
    let s := { s with poison := if s.poison.contains l then s.poison else l :: s.poison, tap := { s.tap with stat := bump 48 16 s.tap.stat } }
    settle (repairLine l s)

/-! ### Page port, readers, tallies -/

/-- A reader operation by its operand in the log: 0 ACQUIRE, 1 release of bay A, 2 of bay B (R333; DESIGN CHOICE, log 57). -/
def readerRequest (k e : Nat) (s : State) : State :=
  match k with
  | 0 => pubAcquire e s
  | 1 => pubRelease e false s
  | _ => pubRelease e true s

/-- What the tally wait interface answers (spec/09 R275). -/
def tallyAnswer (n : Nat) (s : State) : State :=
  let t := tallyOf s n
  if t.genWait then outResp (.tally t.count (reached t)) s else s

/-! ### Chervil slots -/

/-- Core cycles until slot n of a frame begins (R349). -/
def slotDelay (s : State) (n : Nat) : Nat := (128 * n + 32768 - s.clk.cycle % 32768) % 32768

/-- CHERVIL_SLOT: slot n of the frame begins, and the granules and frames start that it names (R349, R351); at a frame boundary an armed recording or replay starts (R358, R360). -/
def chervilSlotOp (n : Nat) (s : State) : State :=
  if !s.mode.chervil || !coreUp s then s
  else
    let s := cyclesOn (slotDelay s n) s
    let s := if n = 0 && s.rcd.armed && (!s.rcd.atCommit || s.rcd.passed) then (if s.rcd.op = 1 then startRecord 0 s else frameReplay s) else s
    settle ((List.range 8).foldl (fun s p => pumpPort p true (portOf s p).ready.length s) (engineStarts true s))

end Sys2Proof.Machine
end

