-- ==== Sys2Proof/Machine/Arrivals.lean ====
section
/-! DEFINITION. Meanings of the arrivals of frames (spec/08 R219, R223, R229 to R238): each is checked at its port, and then forwarded or given to its engine, which the rule of its row governs. -/

namespace Sys2Proof.Machine

/-- TRAIN (R233). -/
def execTrain (port : Port) (h : FrameHdr) (c : Contrib) (s : State) : Result :=
  .next (arriveFrame port.val ⟨h, .contrib c⟩ s)

/-- CONTRIB (R99). -/
def execContrib (port : Port) (h : FrameHdr) (c : Contrib) (s : State) : Result :=
  .next (arriveFrame port.val ⟨h, .contrib c⟩ s)

/-- NOTICE (R102). -/
def execNotice (port : Port) (h : FrameHdr) (n : NoticeFrame) (s : State) : Result :=
  .next (arriveFrame port.val ⟨h, .notice n⟩ s)

/-- NEED (R103). -/
def execNeed (port : Port) (h : FrameHdr) (n : NoticeFrame) (s : State) : Result :=
  .next (arriveFrame port.val ⟨h, .notice n⟩ s)

/-- QUERY (R104). -/
def execQuery (port : Port) (h : FrameHdr) (n : NoticeFrame) (s : State) : Result :=
  .next (arriveFrame port.val ⟨h, .notice n⟩ s)

/-- STATE (R471). -/
def execStateEntry (port : Port) (h : FrameHdr) (n : NoticeFrame) (s : State) : Result :=
  .next (arriveFrame port.val ⟨h, .notice n⟩ s)

/-- PLAN (R471). -/
def execPlan (port : Port) (h : FrameHdr) (n : NoticeFrame) (s : State) : Result :=
  .next (arriveFrame port.val ⟨h, .notice n⟩ s)

/-- CHAIN (R196). -/
def execChain (port : Port) (h : FrameHdr) (c : ChainMsg) (s : State) : Result :=
  .next (arriveFrame port.val ⟨h, .chain c⟩ s)

/-- AUDIT_FRAME (R208). -/
def execAuditFrame (port : Port) (h : FrameHdr) (c : ChainMsg) (s : State) : Result :=
  .next (arriveFrame port.val ⟨h, .chain c⟩ s)

/-- CHUNK (R171). -/
def execChunk (port : Port) (h : FrameHdr) (c : ChunkMsg) (s : State) : Result :=
  .next (arriveFrame port.val ⟨h, .chunk c⟩ s)

/-- COLL_NEED (R171). -/
def execCollNeed (port : Port) (h : FrameHdr) (c : ChunkMsg) (s : State) : Result :=
  .next (arriveFrame port.val ⟨h, .chunk c⟩ s)

/-- CREDIT (R166). -/
def execCredit (port : Port) (h : FrameHdr) (c : ChunkMsg) (s : State) : Result :=
  .next (arriveFrame port.val ⟨h, .chunk c⟩ s)

/-- COLL_REPORT (R173). -/
def execCollReport (port : Port) (h : FrameHdr) (t : Tarra) (s : State) : Result :=
  .next (arriveFrame port.val ⟨h, .tarra t none⟩ s)

/-- COLL_DONE (R173). -/
def execCollDone (port : Port) (h : FrameHdr) (t : Tarra) (s : State) : Result :=
  .next (arriveFrame port.val ⟨h, .tarra t none⟩ s)

/-- COLL_OUTCOME (R173). -/
def execCollOutcome (port : Port) (h : FrameHdr) (t : Tarra) (s : State) : Result :=
  .next (arriveFrame port.val ⟨h, .tarra t none⟩ s)

/-- REPORT (R182). -/
def execReport (port : Port) (h : FrameHdr) (t : Tarra) (s : State) : Result :=
  .next (arriveFrame port.val ⟨h, .tarra t none⟩ s)

/-- PROBE (R183). -/
def execProbe (port : Port) (h : FrameHdr) (t : Tarra) (s : State) : Result :=
  .next (arriveFrame port.val ⟨h, .tarra t none⟩ s)

/-- PROBE_ANSWER (R183). -/
def execProbeAnswer (port : Port) (h : FrameHdr) (t : Tarra) (s : State) : Result :=
  .next (arriveFrame port.val ⟨h, .tarra t none⟩ s)

/-- CLOSURE (R183). -/
def execClosure (port : Port) (h : FrameHdr) (t : Tarra) (s : State) : Result :=
  .next (arriveFrame port.val ⟨h, .tarra t none⟩ s)

/-- VERDICT (R185). -/
def execVerdict (port : Port) (h : FrameHdr) (t : Tarra) (s : State) : Result :=
  .next (arriveFrame port.val ⟨h, .tarra t none⟩ s)

/-- VOTE (R42). -/
def execVote (port : Port) (h : FrameHdr) (t : Tarra) (s : State) : Result :=
  .next (arriveFrame port.val ⟨h, .tarra t none⟩ s)

/-- VOTE_RESULT (R42). -/
def execVoteResult (port : Port) (h : FrameHdr) (t : Tarra) (s : State) : Result :=
  .next (arriveFrame port.val ⟨h, .tarra t none⟩ s)

/-- GUARDED (R106). -/
def execGuarded (port : Port) (h : FrameHdr) (t : Tarra) (s : State) : Result :=
  .next (arriveFrame port.val ⟨h, .tarra t none⟩ s)

/-- GROUP_GUARDED (R40). -/
def execGroupGuarded (port : Port) (h : FrameHdr) (t : Tarra) (s : State) : Result :=
  .next (arriveFrame port.val ⟨h, .tarra t none⟩ s)

/-- GUARD_WAVE (R40). -/
def execGuardWave (port : Port) (h : FrameHdr) (t : Tarra) (s : State) : Result :=
  .next (arriveFrame port.val ⟨h, .tarra t none⟩ s)

/-- LANDED (R40). -/
def execLanded (port : Port) (h : FrameHdr) (t : Tarra) (s : State) : Result :=
  .next (arriveFrame port.val ⟨h, .tarra t none⟩ s)

/-- COMMIT_WAVE (R49). -/
def execCommitWave (port : Port) (h : FrameHdr) (t : Tarra) (s : State) : Result :=
  .next (arriveFrame port.val ⟨h, .tarra t none⟩ s)

/-- ABORT_WAVE (R111). -/
def execAbortWave (port : Port) (h : FrameHdr) (t : Tarra) (s : State) : Result :=
  .next (arriveFrame port.val ⟨h, .tarra t none⟩ s)

/-- RESTORED (R203). -/
def execRestored (port : Port) (h : FrameHdr) (t : Tarra) (s : State) : Result :=
  .next (arriveFrame port.val ⟨h, .tarra t none⟩ s)

/-- RERUN_WAVE (R203). -/
def execRerunWave (port : Port) (h : FrameHdr) (t : Tarra) (s : State) : Result :=
  .next (arriveFrame port.val ⟨h, .tarra t none⟩ s)

/-- QUIET (R185). -/
def execQuiet (port : Port) (h : FrameHdr) (t : Tarra) (s : State) : Result :=
  .next (arriveFrame port.val ⟨h, .tarra t none⟩ s)

/-- GROUP_LOST (R204). -/
def execGroupLost (port : Port) (h : FrameHdr) (t : Tarra) (s : State) : Result :=
  .next (arriveFrame port.val ⟨h, .tarra t none⟩ s)

/-- READY (R471). -/
def execReady (port : Port) (h : FrameHdr) (t : Tarra) (s : State) : Result :=
  .next (arriveFrame port.val ⟨h, .tarra t none⟩ s)

/-- HANDOVER (R470). -/
def execHandover (port : Port) (h : FrameHdr) (t : Tarra) (s : State) : Result :=
  .next (arriveFrame port.val ⟨h, .tarra t none⟩ s)

/-- ADMIT_RECORD (R375). -/
def execAdmitRecord (port : Port) (h : FrameHdr) (t : Tarra) (r : AdmitRec) (s : State) : Result :=
  .next (arriveFrame port.val ⟨h, .tarra t (some r)⟩ s)

/-- MEMREQ (R240). -/
def execMemreq (port : Port) (h : FrameHdr) (m : MemMsg) (s : State) : Result :=
  .next (arriveFrame port.val ⟨h, .mem m⟩ s)

/-- CANCEL (R240). -/
def execCancel (port : Port) (h : FrameHdr) (m : MemMsg) (s : State) : Result :=
  .next (arriveFrame port.val ⟨h, .mem m⟩ s)

/-- MEMRSP (R240). -/
def execMemrsp (port : Port) (h : FrameHdr) (m : MemMsg) (s : State) : Result :=
  .next (arriveFrame port.val ⟨h, .mem m⟩ s)

/-- GWBULK (R241). -/
def execGwbulk (port : Port) (h : FrameHdr) (ms : List MemMsg) (s : State) : Result :=
  .next (arriveFrame port.val ⟨h, .bulk ms⟩ s)

/-- COPY_UNIT (R243). -/
def execCopyUnit (port : Port) (h : FrameHdr) (c : CopyMsg) (s : State) : Result :=
  .next (arriveFrame port.val ⟨h, .copy c⟩ s)

/-- COPYRSP (R243). -/
def execCopyrsp (port : Port) (h : FrameHdr) (c : CopyMsg) (s : State) : Result :=
  .next (arriveFrame port.val ⟨h, .copyRsp c⟩ s)

/-- HEARTBEAT (R180). -/
def execHeartbeat (port : Port) (h : FrameHdr) (b : Beat) (s : State) : Result :=
  .next (arriveBeat port.val ⟨h, .beat b⟩ b s)

/-- WAKE (R226). -/
def execWake (port : Port) (h : FrameHdr) (w : WakeMsg) (s : State) : Result :=
  .next (arriveWake port.val ⟨h, .wake w⟩ w s)

/-- FRAME_FORWARD (R229). -/
def execFrameForward (port : Port) (f : Frame) (s : State) : Result :=
  .next (arriveAny port.val f s)

end Sys2Proof.Machine
end

