-- ==== Sys2Proof/Machine/Commands.lean ====
section
/-! DEFINITION. Meanings of the front-end commands (spec/13 R363 to R378, R385; spec/12 R350; spec/14 R390, R404, R405; spec/09 R254). -/

namespace Sys2Proof.Machine

/-- A command of queue q runs as the front end takes it; during a replay it is discarded (spec/12 Table 12.5, R359). -/
def front (p : Part) (q : Queue) (h : CmdHdr) (k : FrontCmd) (s : State) : State :=
  if !coreUp s then s
  else if replaying s then (if cmdGoes p.val q.val false h k s then countLive s else s)
  else takeCmd p q false h k (cmdBytes h k) (leaveIdle s)

/-- COMMAND_FETCH reads the entry at the head; an entry that is taken is an external input (spec/12 Table 12.5, R359). -/
def fetch (p : Part) (q : Queue) (s : State) : State :=
  if replaying s then (if fetchGoes p.val q.val s then countLive s else s)
  else commandFetchOp p q (leaveIdle s)

/-- NOP (R369). -/
def execNop (p : Part) (q : Queue) (h : CmdHdr) (s : State) : Result :=
  .next (front p q h (.nop) s)

/-- CALL (R254): the sequencer starts at the entry point with the arguments in g24 to g30. -/
def execCall (p : Part) (q : Queue) (h : CmdHdr) (entry : Nat) (args : Args) (s : State) : Result :=
  .next (front p q h (.call entry args) s)

/-- INSTR (R254): one instruction of classes 2 to 9 is carried out in place. -/
def execInstrCmd (p : Part) (q : Queue) (h : CmdHdr) (w1 : Word) (w2 : Word) (s : State) : Result :=
  .next (settle (front p q h (.instr w1 w2) s))

/-- BIND (R373). -/
def execBind (p : Part) (q : Queue) (h : CmdHdr) (tag : Nat) (s : State) : Result :=
  .next (front p q h (.bind tag) s)

/-- UNBIND (R373). -/
def execUnbind (p : Part) (q : Queue) (h : CmdHdr) (s : State) : Result :=
  .next (front p q h (.unbind) s)

/-- PCFG (R374). -/
def execPcfg (p : Part) (q : Queue) (h : CmdHdr) (mask : BitVec 16) (s : State) : Result :=
  .next (front p q h (.pcfg mask.toNat) s)

/-- LOAD (R378). -/
def execLoad (p : Part) (q : Queue) (h : CmdHdr) (addr : Word) (s : State) : Result :=
  .next (front p q h (.load addr) s)

/-- ADMIT (R375). -/
def execAdmit (p : Part) (q : Queue) (h : CmdHdr) (compat : Bool) (n0 : Nat) (bitmap : Word) (s : State) : Result :=
  .next (settle (front p q h (.admission compat n0 bitmap) s))

/-- TEARDOWN (R377). -/
def execTeardown (p : Part) (q : Queue) (h : CmdHdr) (s : State) : Result :=
  .next (settle (front p q h (.teardown) s))

/-- SLOTTAB (R350). -/
def execSlottab (p : Part) (q : Queue) (h : CmdHdr) (addr : Word) (s : State) : Result :=
  .next (front p q h (.slottab addr) s)

/-- EXPORT (R390). -/
def execExportCut (p : Part) (q : Queue) (h : CmdHdr) (b : ExportBody) (s : State) : Result :=
  .next (front p q h (.exportCut b) s)

/-- EXPORT_CANCEL (R404). -/
def execExportCancel (p : Part) (q : Queue) (h : CmdHdr) (s : State) : Result :=
  .next (front p q h (.exportCancel) s)

/-- RESTORE (R405). -/
def execRestore (p : Part) (q : Queue) (h : CmdHdr) (b : RestoreBody) (s : State) : Result :=
  .next (settle (front p q h (.restore b) s))

/-- ADMIT_TIMEOUT (R375). -/
def execAdmitTimeout (s : State) : Result :=
  .next (if coreUp s && s.job.admitting.isSome then settle (admitTimeoutOp s) else s)

/-- COMMAND_FETCH (R365): the entry at the head of the queue. -/
def execCommandFetch (p : Part) (q : Queue) (s : State) : Result :=
  .next (if coreUp s then settle (fetch p q s) else s)

/-- COAL_TIMER_EXPIRY (R385). -/
def execCoalTimerExpiry (p : Part) (q : Queue) (s : State) : Result :=
  .next (if coreUp s then coalExpiryOp p.val q.val s else s)

end Sys2Proof.Machine
end

