-- ==== Sys2Proof/Machine/ControlPort.lean ====
section
/-! DEFINITION. Meanings of the control-port commands: writes and reads of registers (spec/00 R9 to R12, spec/18 R464 to R467, and the owning chapters). -/

namespace Sys2Proof.Machine

/-- Base of a partition window (spec/18 Table 18.1). -/
def partWindow (p : Nat) : Nat := 0x400000 + 0x10000 * p

/-- SQ_DOORBELL (R364). -/
def execSqDoorbell (p : Part) (q : Queue) (tail : Nat) (s : State) : Result :=
  .next (ctlInput (partWindow p.val + 8 * q.val) .full (BitVec.ofNat 64 tail) (fun _ s => wakeAll (sqDoorbellOp p.val q.val tail s)) s)

/-- CQ_HEAD_DOORBELL (R366). -/
def execCqHeadDoorbell (p : Part) (q : Queue) (head : Nat) (s : State) : Result :=
  .next (ctlInput (partWindow p.val + 0x40 + 8 * q.val) .full (BitVec.ofNat 64 head) (fun _ => cqHeadOp p.val q.val head) s)

/-- QUEUE_ENABLE (R363). -/
def execQueueEnable (p : Part) (q : Queue) (cq : Bool) (a : Acc) (v : Word) (s : State) : Result :=
  .next (ctlInput (partWindow p.val + (if cq then 0x1C8 else 0x188) + 16 * q.val) a v (fun _ => writeReg true false (if cq then .pcq p.val q.val 1 else .psq p.val q.val 1) (accMask a) (accVal a v)) s)

/-- FLUSH (R380). -/
def execFlush (p : Part) (s : State) : Result :=
  .next (ctlInput (partWindow p.val + 0x100) .full (1 <<< 62) (fun _ s => settle (flushPart p.val s)) s)

/-- RESET (R381). -/
def execReset (p : Part) (s : State) : Result :=
  .next (ctlInput (partWindow p.val + 0x100) .full (1 <<< 63) (fun _ s => settle (resetPart p.val s)) s)

/-- UNFENCE (R383). -/
def execUnfence (p : Part) (s : State) : Result :=
  .next (ctlInput (partWindow p.val + 0x100) .full (1 <<< 61) (fun _ => unfenceOp p.val) s)

/-- VEC_UNMASK (R386). -/
def execVecUnmask (n : Fin 96) (a : Acc) (v : Word) (s : State) : Result :=
  .next (ctlInput (0x30000 + 8 * n.val) a v (fun _ => vecMapWrite n.val (accMask a) (accVal a v)) s)

/-- REGION_WRITE (R27). -/
def execRegionWrite (ix : Fin 16384) (s : State) : Result :=
  .next (ctlInput 0x82038 .full (BitVec.ofNat 64 (2 ^ 63 + ix.val)) (fun _ => regionWriteOp ix.val) s)

/-- REGION_READ (R26). -/
def execRegionRead (ix : Fin 16384) (s : State) : Result :=
  .next (ctlInput 0x82038 .full (BitVec.ofNat 64 (2 ^ 62 + ix.val)) (fun _ => regionReadOp ix.val) s)

/-- GROUP_WRITE (R81). -/
def execGroupWrite (g : Slot) (a : Acc) (v : Word) (s : State) : Result :=
  .next (ctlInput (0x81000 + 0x40 * g.val) a v (fun _ => groupWriteOp g.val (accMask a) (accVal a v)) s)

/-- XLAT_WRITE (R220). -/
def execXlatWrite (ix : Fin 4096) (s : State) : Result :=
  .next (ctlInput 0x41010 .full (BitVec.ofNat 64 (2 ^ 63 + ix.val)) (fun _ => xlatWriteOp ix.val) s)

/-- XLAT_READ (R218). -/
def execXlatRead (ix : Fin 4096) (s : State) : Result :=
  .next (ctlInput 0x41010 .full (BitVec.ofNat 64 (2 ^ 62 + ix.val)) (fun _ => xlatReadOp ix.val) s)

/-- PAGE_READ (R338). -/
def execPageRead (n : Nat) (s : State) : Result :=
  .next (ctlInput 0x102000 .full (BitVec.ofNat 64 (2 ^ 63 + n)) (fun _ => pageReadOp n) s)

/-- CLEAR_LOST (R343). -/
def execClearLost (s : State) : Result :=
  .next (ctlInput 0x102018 .full (1 <<< 63) (fun _ => clearLost) s)

/-- DISARM (R324). -/
def execDisarm (p : Part) (s : State) : Result :=
  .next (ctlInput (0x100100 + 8 * p.val) .full (1 <<< 62) (fun _ => disarmOp p.val) s)

/-- RESET_READERS (R331). -/
def execResetReaders (e : Fin 32) (s : State) : Result :=
  .next (ctlInput (0x101038 + 0x40 * e.val) .full 1 (fun _ => modPub e.val (fun x => { x with readersA := 0, readersB := 0 })) s)

/-- PUB_DIR_WRITE (R331). -/
def execPubDirWrite (e : Fin 32) (a : Acc) (v : Word) (s : State) : Result :=
  .next (ctlInput (0x101000 + 0x40 * e.val) a v (fun _ => pubDirWriteOp e.val 0 (accMask a) (accVal a v)) s)

/-- WARM (R441). -/
def execWarm (s : State) : Result :=
  .next (ctlInput 0x10 .full (1 <<< 63) (fun _ => warmStart) s)

/-- REQ_SLEEP (R432). -/
def execReqSleep (s : State) : Result :=
  .next (ctlInput 0x10000 .low 2 (fun _ => reqState .sleep) s)

/-- REQ_DEEP (R432). -/
def execReqDeep (s : State) : Result :=
  .next (ctlInput 0x10000 .low 3 (fun _ => reqState .deep) s)

/-- REQ_OFF (R432). -/
def execReqOff (s : State) : Result :=
  .next (ctlInput 0x10000 .low 4 (fun _ => reqState .off) s)

/-- REQ_RUN (R435). -/
def execReqRun (s : State) : Result :=
  .next (ctlInput 0x10000 .low 0 (fun _ => reqRunOp) s)

/-- KEEP_WRITE (R423). -/
def execKeepWrite (n : Fin 64) (a : Acc) (v : Word) (s : State) : Result :=
  .next (ctlInput (0x20000 + 8 * n.val) a v (fun _ => keepWriteOp n.val (a == .full) v) s)

/-- KEEP_PROGRAM_DONE (R424). -/
def execKeepProgramDone (readBack : Word) (s : State) : Result :=
  .next (if portsUp s then keepProgramDoneOp readBack s else s)

/-- SNAP (R426). -/
def execSnap (s : State) : Result :=
  .next (ctlInput 0x20408 .full (1 <<< 62) (fun _ => snapshotOp) s)

/-- KEEP_SNAPSHOT_TIMER (R426). -/
def execKeepSnapshotTimer (s : State) : Result :=
  .next (if portsUp s && s.clk.ready then snapshotOp s else s)

/-- ECC_SPLIT_KEY (R421). -/
def execEccSplitKey (a : Acc) (v : Word) (s : State) : Result :=
  .next (ctlInput 0x140018 a v (fun arm => eccSplitWrite arm true (accMask a) (accVal a v)) s)

/-- WAKE_NB (R226). -/
def execWakeNb (port : Port) (s : State) : Result :=
  .next (ctlInput (0x40000 + 0x100 * port.val) .low 0x100 (fun _ => wakeNbOp port.val) s)

/-- REC_RECORD (R358): a write of TKJ_REC_CTL with OP 1. -/
def execRecRecord (v : Word) (s : State) : Result :=
  .next (ctlInput 0x1C0000 .full (setFld 0 2 1 v) (fun _ => recCtlWrite (accMask .full) (setFld 0 2 1 v)) s)

/-- REC_REPLAY (R359): a write of TKJ_REC_CTL with OP 2. -/
def execRecReplay (v : Word) (s : State) : Result :=
  .next (ctlInput 0x1C0000 .full (setFld 0 2 2 v) (fun _ => recCtlWrite (accMask .full) (setFld 0 2 2 v)) s)

/-- REC_STOP (R362): a write of TKJ_REC_CTL with OP 0. -/
def execRecStop (v : Word) (s : State) : Result :=
  .next (ctlInput 0x1C0000 .full (setFld 0 2 0 v) (fun _ => recCtlWrite (accMask .full) (setFld 0 2 0 v)) s)

/-- TALLY_WRITE (R273). -/
def execTallyWrite (n : Fin 16384) (hi : Bool) (a : Acc) (v : Word) (s : State) : Result :=
  .next (ctlInput (0x800000 + 16 * n.val + 8 * b2n hi) a v (fun _ => tallyWriteOp n.val hi (accMask a) (accVal a v)) s)

/-- TIMER_WRITE (R276). -/
def execTimerWrite (p : Part) (t : Fin 64) (hi : Bool) (a : Acc) (v : Word) (s : State) : Result :=
  .next (ctlInput (partWindow p.val + 0x400 + 16 * t.val + 8 * b2n hi) a v (fun _ => timerWriteOp p.val t.val hi (accMask a) (accVal a v)) s)

/-- PAD_RELEASE (R438). -/
def execPadRelease (v : Fin 32) (s : State) : Result :=
  .next (ctlInput 0x10018 .low (BitVec.ofNat 64 v.val) (fun _ => padReleaseOp v.val) s)

/-- RC_READ (R10): a read of 64 bits clears the RC fields, one of a half clears nothing. -/
def execRcRead (r : CtlRd) (s : State) : Result :=
  .next (ctlRead r.off r.acc s)

/-- REGISTER_WRITE (R12). -/
def execRegisterWrite (off : Nat) (a : Acc) (v : Word) (s : State) : Result :=
  .next (ctlWrite off a v s)

end Sys2Proof.Machine
end

