-- ==== Sys2Proof/Machine/Replay.lean ====
section
/-! DEFINITION. REPLAY_ENTRY: a log entry is presented at its cycle as the input of its KIND (spec/12 R359). -/

namespace Sys2Proof.Machine

/-- The payload of an entry, from the payload stream (R357). -/
def logPayload (s : State) (e : LogEntry) : List Byte :=
  memBytes (logBase s.rcd.pbase + 32 * bitsOf 0 40 e.d1) e.len s

/-- A frame as it arrived (KIND 1). -/
def presentFrame (p : Nat) (bs : List Byte) (s : State) : State :=
  match parseFrame bs with
  | none => s
  | some f => match f.body with
    | .beat b => takeBeat p b s
    | .wake w => takeWake w s
    | _ => takeLocal (some p) f (leaveIdle s)

/-- A control-port write (KIND 2). -/
def presentWrite (e : LogEntry) (s : State) : State :=
  let a : Acc := if bitOf 25 e.d0 then (if bitOf 24 e.d0 then .high else .low) else .full
  let v : Word := BitVec.ofNat 64 e.d1
  writeAt true s.sram.splitArm (bitsOf 0 24 e.d0) a v { s with sram := { s.sram with splitArm := false } }

/-- A command as it was fetched (KIND 4). -/
def presentCommand (e : LogEntry) (bs : List Byte) (s : State) : State :=
  let p := fin 16 (e.src / 4)
  let q := fin 4 e.src
  let c := parseCmd bs
  takeCmd p q true c.1 c.2 bs (modSq p.val q.val (fun y => { y with head := bitsOf 0 16 e.d0 }) s)

/-- A sideband access (KIND 7, SRC 4 and 5). -/
def presentSide (e : LogEntry) (s : State) : State :=
  let off := bitsOf 0 24 e.d0
  let size64 := bitOf 59 e.d0
  if bitsOf 60 4 e.d0 = 2 then sideWrite off size64 (BitVec.ofNat 64 e.d1) s
  else sideTake off size64 (sideRead off size64 s).1 (sideRead off size64 s).2

/-- The input that an entry stands for; the data of a read (KIND 5) stand in memory from the first entry of its cycle on. -/
def present (e : LogEntry) (s : State) : State :=
  let pay := logPayload s e
  match e.kind with
  | 1 => presentFrame e.src pay s
  | 2 => presentWrite e s
  | 3 =>
    let r := readAt (bitsOf 0 24 e.d0) .full s
    outResp (.ctl r.1) r.2
  | 4 => presentCommand e pay s
  | 6 => let s := leaveIdle s; match e.src with
    | 0 => codedStoreIn e.d0 pay s
    | 1 => pagePort e.d1 e.d0 s
    | 2 => readerRequest e.d1 (e.d0 % 32) s
    | _ => if e.d1 = 0 then tallyAnswer (e.d0 % 16384) s else incTally (e.d0 % 16384) (BitVec.ofNat 32 e.d1) s
  | 7 => match e.src with
    | 0 => wakeNOp (e.d0 % 2 == 0) 2 s
    | 1 => alertLineOp (e.d0 % 2 == 0) s
    | 2 => if e.d0 % 2 = 1 then pwrRise s.fuse.straps s else pwrFall s
    | 3 => genStepOp (e.d0 % 16) s
    | _ => presentSide e s
  | _ => s

/-- Puts the data of the reads of T2 and T3 that the log shows in a cycle into memory, from entry n on, past its other entries; they stand there before the first input of the cycle acts (DEDUCED, log 58). -/
def presentReads (cycle : Nat) : Nat → Nat → State → State
  | 0, _, s => s
  | k + 1, n, s =>
    let (_, bad, e) := readLog n s
    if bad then presentReads cycle k (n + 1) s
    else if e.kind = 0 ∨ 8 ≤ e.kind ∨ e.cycle ≠ cycle then s
    else presentReads cycle k (n + 1) (if e.kind = 5 then memWrite e.d0 (logPayload s e) s else s)

/-- The reads of the cycle of entry n, where that is the first entry of its cycle. -/
def cycleReads (n : Nat) (e : LogEntry) (s : State) : State :=
  let before := parseLog (memBytes (logBase s.rcd.base + 32 * (n - 1)) 32 s)
  if 1 < n ∧ before.cycle = e.cycle then s else presentReads e.cycle (recEntries s) n s

/-- REPLAY_ENTRY: the next entry is presented; END ends the replay (R359). -/
def replayEntryOp (s : State) : State :=
  if !replaying s || !coreUp s || hostHeld s then s
  else
    let n := s.rcd.pos
    let (s, bad, e) := readLog n s
    let due := s.rcd.start + e.cycle
    let s := cyclesOn (due - coreCount s) s
    let s := { s with rcd := { s.rcd with pos := n + 1 } }
    if bad then s
    else if e.kind = 8 then
      raiseGlobal vReplay { s with rcd := { s.rcd with active := false, done := true } }
    else settle (present e (cycleReads n e s))

end Sys2Proof.Machine
end

