-- ==== Sys2Proof/Machine/Engines.lean ====
section
/-! DEFINITION. Meanings of the events of the block's engines: coding (spec/04 R96, R102 to R106), epochs (spec/02 R40), rebuild and audit (spec/07), collectives (spec/06 R172), reports (spec/07 R181 to R183), memory operations (spec/08 R231, R240, R241), prefetch and pages (spec/11 R322, R340, R341), the drain (spec/14 R399), replay and slots (spec/12 R351, R359). -/

namespace Sys2Proof.Machine

/-- Every rebuild of which this block is the target goes on where its survivors are ready (spec/07 R193). -/
def rebuildGoAll (s : State) : State := (s.reb.runs.map (·.failed)).foldl (fun s f => rebuildGo f s) s

/-- TRAIN_WINDOW_EXPIRY (R96). -/
def execTrainWindowExpiry (g : Slot) (stripe : Nat) (row : Fin 4) (s : State) : Result :=
  .next (if coreUp s then settle (windowExpiry g.val stripe row.val s) else s)

/-- RELAY_TRAIN (R96). -/
def execRelayTrain (g : Slot) (stripe : Nat) (row : Fin 4) (s : State) : Result :=
  .next (if coreUp s then settle (relay g.val stripe row.val s) else s)

/-- NOTICE_BATCH_TIMER (R102). -/
def execNoticeBatchTimer (rank : Nat) (s : State) : Result :=
  .next (if coreUp s then settle (flushBatch rank s) else s)

/-- NOTICE_TIMER_EXPIRY (R103). -/
def execNoticeTimerExpiry (g : Slot) (stripe : Nat) (row : Fin 4) (col : Fin 16) (s : State) : Result :=
  .next (if coreUp s then settle (noticeTimer g.val stripe row.val col.val s) else s)

/-- EPOCH_CLOSE (R105). -/
def execEpochClose (s : State) : Result :=
  .next (if coreUp s then settle (closeOp s) else s)

/-- REPORT_LANDED (R105). -/
def execReportLanded (s : State) : Result :=
  .next (if coreUp s then settle (reportLandedOp s) else s)

/-- REPORT_GUARDED (R106). -/
def execReportGuarded (s : State) : Result :=
  .next (if coreUp s then settle (reportGuardedOp s) else s)

/-- AUDIT_LAP_START (R208). -/
def execAuditLapStart (s : State) : Result :=
  .next (if coreUp s && maintSlot s 1 then settle (auditLap s) else s)

/-- REBUILD_START (R193). -/
def execRebuildStart (s : State) : Result :=
  .next (if coreUp s then settle (rebuildGoAll s) else s)

/-- ROLL_FORWARD (R199). -/
def execRollForward (s : State) : Result :=
  .next (if coreUp s then settle (rollForwardOp s) else s)

/-- RESTORE_COMPLETE (R203). -/
def execRestoreComplete (s : State) : Result :=
  .next (if coreUp s then settle (restoreCompleteOp s) else s)

/-- COLL_TIMER_EXPIRY (R172). -/
def execCollTimerExpiry (p : Part) (axes : Fin 16) (seq : Nat) (s : State) : Result :=
  .next (if coreUp s then settle (collTimer p.val axes.val seq s) else s)

/-- REPORT_RESEND (R181). -/
def execReportResend (rank : Nat) (inc : Nat) (s : State) : Result :=
  .next (if coreUp s then settle (resendReport rank inc s) else s)

/-- MERGE_KEY_EXPIRY (R182). -/
def execMergeKeyExpiry (rank : Nat) (inc : Nat) (s : State) : Result :=
  .next (if coreUp s then mergeExpiry rank inc s else s)

/-- PROBE_TIMEOUT (R183). -/
def execProbeTimeout (rank : Nat) (inc : Nat) (s : State) : Result :=
  .next (if coreUp s then settle (probeExpiry rank inc s) else s)

/-- RSP_TIMEOUT (R240). -/
def execRspTimeout (p : Part) (rank : Nat) (opseq : Nat) (s : State) : Result :=
  .next (if coreUp s then settle (rspExpiry p.val rank opseq s) else s)

/-- GW_FLUSH (R241). -/
def execGwFlush (rank : Nat) (s : State) : Result :=
  .next (if coreUp s then settle (gwFlushRank rank s) else s)

/-- FRAME_HOLD_EXPIRY (R231). -/
def execFrameHoldExpiry (n : Nat) (s : State) : Result :=
  .next (if coreUp s then settle (frameHoldEnd n s) else s)

/-- PREFETCH_START (R322). -/
def execPrefetchStart (p : Part) (n : Nat) (s : State) : Result :=
  .next (if coreUp s then pfStart p.val n s else s)

/-- PREFETCH_ARRIVAL (R322). -/
def execPrefetchArrival (p : Part) (n : Nat) (s : State) : Result :=
  .next (if coreUp s then pfArrive p.val n s else s)

/-- DRAIN_UNIT (R399). -/
def execDrainUnit (s : State) : Result :=
  .next (if coreUp s then drainUnitNow s else s)

/-- REPLAY_ENTRY (R359). -/
def execReplayEntry (s : State) : Result :=
  .next (replayEntryOp s)

/-- CHERVIL_SLOT (R351). -/
def execChervilSlot (n : Fin 256) (s : State) : Result :=
  .next (chervilSlotOp n.val s)

/-- COW_COPY_DONE (R340). -/
def execCowCopyDone (n : Nat) (s : State) : Result :=
  .next (if coreUp s then settle (cowDone n s) else s)

/-- SEAL_ACCEPT (R341). -/
def execSealAccept (n : Nat) (s : State) : Result :=
  .next (if coreUp s then settle (pageSealNow n s) else s)

end Sys2Proof.Machine
end

