-- ==== Sys2Proof/Machine/Links.lean ====
section
/-! DEFINITION. Meanings of the events of ports and links (spec/08 R226, R232, R244 to R249) and of the heartbeat watch (spec/07 R179, R180). -/

namespace Sys2Proof.Machine

/-- An event of a port while the vigil domain runs; the rest of the block goes on with what follows from it: edges, waits, frames to itself (spec/09 R277, spec/10 R306, R312). -/
def portEvent (s t : State) : State := if portsUp s then settle t else s

/-- HEARTBEAT_SEND (R179). -/
def execHeartbeatSend (s : State) : Result :=
  .next (portEvent s <| sendBeats s)

/-- HEARTBEAT_INTERVAL_END (R180). -/
def execHeartbeatIntervalEnd (s : State) : Result :=
  .next (portEvent s <| forAll (List.range 8) intervalEnd s)

/-- NACK (R246). -/
def execNack (port : Port) (_lseq : Nat) (s : State) : Result :=
  .next (portEvent s <| replayPort port.val s)

/-- REPLAY_TIMER (R246). -/
def execReplayTimer (port : Port) (s : State) : Result :=
  .next (portEvent s <| replayPort port.val s)

/-- PORT_BRINGUP_STEP (R247). -/
def execPortBringupStep (port : Port) (peer : PeerInfo) (s : State) : Result :=
  .next (portEvent s <| bringupStep port.val peer s)

/-- LANE_CALIBRATION (R248). -/
def execLaneCalibration (port : Port) (lane : Fin 17) (s : State) : Result :=
  .next (portEvent s <| laneCal port.val lane.val s)

/-- LOCK_LOSS (R249). -/
def execLockLoss (port : Port) (lane : Fin 17) (s : State) : Result :=
  .next (portEvent s <| laneFail port.val lane.val s)

/-- HOLD_EXIT (R232). -/
def execHoldExit (port : Port) (s : State) : Result :=
  .next (portEvent s <| holdExitOp port.val s)

/-- FLIT (R245). -/
def execFlit (port : Port) (f : Flit) (s : State) : Result :=
  .next (portEvent s <| takeFlit port.val f s)

/-- LASER_LOW (R247). -/
def execLaserLow (port : Port) (low : Bool) (s : State) : Result :=
  .next (portEvent s <| laserEvent port.val low s)

end Sys2Proof.Machine
end

