-- ==== Sys2Proof/Machine/Longs.lean ====
section
/-! DEFINITION. Meanings of the long and open instructions of classes 2 to 7 (spec/10 R289 to R304), issued at the PC of a program (spec/09 R255, R260). -/

namespace Sys2Proof.Machine

/-- TENSOR_MOV (R289). -/
def execTensorMov (p : Part) (f : FmtT) (x : Sec2) (s : State) : Result :=
  .next (issueT p.val 2 f (longIssue p.val 2 0x00 f (sec2Word x) false) s)

/-- CVT (R325). -/
def execCvt (p : Part) (f : FmtT) (x : Sec2) (s : State) : Result :=
  .next (issueT p.val 2 f (longIssue p.val 2 0x01 f (sec2Word x) false) s)

/-- FILL (R289). -/
def execFill (p : Part) (f : FmtT) (x : Sec2) (s : State) : Result :=
  .next (issueT p.val 2 f (longIssue p.val 2 0x02 f (sec2Word x) false) s)

/-- COMPRESS (R140). -/
def execCompress (p : Part) (f : FmtT) (x : Sec2) (s : State) : Result :=
  .next (issueT p.val 2 f (longIssue p.val 2 0x03 f (sec2Word x) false) s)

/-- EXPAND (R141). -/
def execExpand (p : Part) (f : FmtT) (x : Sec2) (s : State) : Result :=
  .next (issueT p.val 2 f (longIssue p.val 2 0x04 f (sec2Word x) false) s)

/-- PUBLISH (R334). -/
def execPublish (p : Part) (f : FmtT) (x : Sec2) (s : State) : Result :=
  .next (issueT p.val 2 f (longIssue p.val 2 0x08 f (sec2Word x) false) s)

/-- PAGE_SEAL (R291). -/
def execPageSeal (p : Part) (f : FmtT) (x : Sec2) (s : State) : Result :=
  .next (issueT p.val 2 f (longIssue p.val 2 0x0A f (sec2Word { x with pop := 0 }) false) s)

/-- PAGE_RETAIN (R291). -/
def execPageRetain (p : Part) (f : FmtT) (x : Sec2) (s : State) : Result :=
  .next (issueT p.val 2 f (longIssue p.val 2 0x0A f (sec2Word { x with pop := 1 }) false) s)

/-- PAGE_RELEASE (R291). -/
def execPageRelease (p : Part) (f : FmtT) (x : Sec2) (s : State) : Result :=
  .next (issueT p.val 2 f (longIssue p.val 2 0x0A f (sec2Word { x with pop := 2 }) false) s)

/-- PFARM (R321). -/
def execPfarm (p : Part) (f : FmtT) (_x : Sec2) (s : State) : Result :=
  .next (issueT p.val 2 f (pfarmOp p.val f) s)

/-- EW (R293). -/
def execEw (p : Part) (f : FmtT) (x : Sec34) (s : State) : Result :=
  .next (issueT p.val 3 f (longIssue p.val 3 0x00 f (sec34Word x) false) s)

/-- MAP (R293). -/
def execMap (p : Part) (f : FmtT) (x : Sec34) (s : State) : Result :=
  .next (issueT p.val 3 f (longIssue p.val 3 0x01 f (sec34Word x) false) s)

/-- ADAMW (R132). -/
def execAdamw (p : Part) (f : FmtT) (x : Sec34) (s : State) : Result :=
  .next (issueT p.val 4 f (longIssue p.val 4 0x00 f (sec34Word x) false) s)

/-- LION (R132). -/
def execLion (p : Part) (f : FmtT) (x : Sec34) (s : State) : Result :=
  .next (issueT p.val 4 f (longIssue p.val 4 0x01 f (sec34Word x) false) s)

/-- SGDM (R132). -/
def execSgdm (p : Part) (f : FmtT) (x : Sec34) (s : State) : Result :=
  .next (issueT p.val 4 f (longIssue p.val 4 0x02 f (sec34Word x) false) s)

/-- MSTEP (R294). -/
def execMstep (p : Part) (f : FmtT) (x : Sec34) (s : State) : Result :=
  .next (issueT p.val 4 f (longIssue p.val 4 0x03 f (sec34Word x) false) s)

/-- CODE_DELTA (R297). -/
def execCodeDelta (p : Part) (f : FmtT) (x : Sec5) (s : State) : Result :=
  .next (issueT p.val 5 f (longIssue p.val 5 0x00 f (sec5Word x) false) s)

/-- CODE_FRESH (R298). -/
def execCodeFresh (p : Part) (f : FmtT) (x : Sec5) (s : State) : Result :=
  .next (issueT p.val 5 f (longIssue p.val 5 0x01 f (sec5Word x) false) s)

/-- DECODE_UNIT (R301). -/
def execDecodeUnit (p : Part) (f : FmtT) (x : Sec5) (s : State) : Result :=
  .next (issueT p.val 5 f (longIssue p.val 5 0x04 f (sec5Word x) false) s)

/-- AUDIT (R299). -/
def execAudit (p : Part) (f : FmtT) (x : Sec5) (s : State) : Result :=
  .next (settle (issueT p.val 5 f (auditIssue p.val f x) s))

/-- REBUILD (R300). -/
def execRebuild (p : Part) (f : FmtT) (_x : Sec5) (s : State) : Result :=
  .next (settle (issueT p.val 5 f (rebuildIssue p.val f) s))

/-- RS (R302). -/
def execRs (p : Part) (f : FmtT) (x : Sec6) (s : State) : Result :=
  .next (settle (issueT p.val 6 f (collIssue p.val 0 f x) s))

/-- AG (R302). -/
def execAg (p : Part) (f : FmtT) (x : Sec6) (s : State) : Result :=
  .next (settle (issueT p.val 6 f (collIssue p.val 1 f x) s))

/-- AR (R302). -/
def execAr (p : Part) (f : FmtT) (x : Sec6) (s : State) : Result :=
  .next (settle (issueT p.val 6 f (collIssue p.val 2 f x) s))

/-- BC (R302). -/
def execBc (p : Part) (f : FmtT) (x : Sec6) (s : State) : Result :=
  .next (settle (issueT p.val 6 f (collIssue p.val 3 f x) s))

/-- RLOAD (R304). -/
def execRload (p : Part) (f : FmtT) (x : Sec7) (s : State) : Result :=
  .next (settle (issueT p.val 7 f (fabricOp p.val 0x00 f x) s))

/-- RSTORE (R304). -/
def execRstore (p : Part) (f : FmtT) (x : Sec7) (s : State) : Result :=
  .next (settle (issueT p.val 7 f (fabricOp p.val 0x01 f x) s))

/-- RADD32 (R304). -/
def execRadd32 (p : Part) (f : FmtT) (x : Sec7) (s : State) : Result :=
  .next (settle (issueT p.val 7 f (fabricOp p.val 0x02 f x) s))

/-- RADD64 (R304). -/
def execRadd64 (p : Part) (f : FmtT) (x : Sec7) (s : State) : Result :=
  .next (settle (issueT p.val 7 f (fabricOp p.val 0x03 f x) s))

/-- RSWAP (R304). -/
def execRswap (p : Part) (f : FmtT) (x : Sec7) (s : State) : Result :=
  .next (settle (issueT p.val 7 f (fabricOp p.val 0x04 f x) s))

/-- RCAS (R304). -/
def execRcas (p : Part) (f : FmtT) (x : Sec7) (s : State) : Result :=
  .next (settle (issueT p.val 7 f (fabricOp p.val 0x05 f x) s))

/-- RAND (R304). -/
def execRand (p : Part) (f : FmtT) (x : Sec7) (s : State) : Result :=
  .next (settle (issueT p.val 7 f (fabricOp p.val 0x06 f x) s))

/-- ROR (R304). -/
def execRor (p : Part) (f : FmtT) (x : Sec7) (s : State) : Result :=
  .next (settle (issueT p.val 7 f (fabricOp p.val 0x07 f x) s))

/-- RXOR (R304). -/
def execRxor (p : Part) (f : FmtT) (x : Sec7) (s : State) : Result :=
  .next (settle (issueT p.val 7 f (fabricOp p.val 0x08 f x) s))

/-- RUMIN (R304). -/
def execRumin (p : Part) (f : FmtT) (x : Sec7) (s : State) : Result :=
  .next (settle (issueT p.val 7 f (fabricOp p.val 0x09 f x) s))

/-- RUMAX (R304). -/
def execRumax (p : Part) (f : FmtT) (x : Sec7) (s : State) : Result :=
  .next (settle (issueT p.val 7 f (fabricOp p.val 0x0A f x) s))

/-- RGFMAC (R304). -/
def execRgfmac (p : Part) (f : FmtT) (x : Sec7) (s : State) : Result :=
  .next (settle (issueT p.val 7 f (fabricOp p.val 0x0B f x) s))

/-- RTADD (R304). -/
def execRtadd (p : Part) (f : FmtT) (x : Sec7) (s : State) : Result :=
  .next (settle (issueT p.val 7 f (fabricOp p.val 0x0C f x) s))

/-- COPY (R242). -/
def execCopy (p : Part) (f : FmtT) (x : Sec7) (s : State) : Result :=
  .next (settle (issueT p.val 7 f (fabricOp p.val 0x0D f x) s))

end Sys2Proof.Machine
end

