-- ==== Sys2Proof/Machine/Outside.lean ====
section
/-! DEFINITION. Meanings of the requests of the surroundings (spec/04 R109, spec/09 R273 to R277, spec/11 R333, R339, R342, spec/07 R211) and of the state SRAM (spec/15 R416, R418). -/

namespace Sys2Proof.Machine

/-- CODED_STORE_WRITE (R109). -/
def execCodedStoreWrite (addr : Word) (data : List Byte) (s : State) : Result :=
  if inBlockArea addr.toNat data.length then .fault .blockArea else .next (codedStoreOp addr.toNat data s)

/-- EXPERIENCE_TAP_WRITE (R342). -/
def execExperienceTapWrite (addr : Word) (data : List Byte) (s : State) : Result :=
  if inBlockArea addr.toNat data.length then .fault .blockArea else .next (tapWriteOp addr.toNat data s)

/-- TAP_POISON (R211). -/
def execTapPoison (addr : Word) (s : State) : Result :=
  .next (tapPoisonOp addr.toNat s)

/-- SURR_TALLY_INCREMENT (R273). -/
def execSurrTallyIncrement (n : Fin 16384) (inc : Half) (s : State) : Result :=
  .next (if coreUp s && !s.pwr.padHold.testBit 2 then external 6 3 n.val inc.toNat [] (fun s => incTally n.val inc (leaveIdle s)) s else s)

/-- TALLY_WAIT (R275). -/
def execTallyWait (n : Fin 16384) (s : State) : Result :=
  .next (if coreUp s && !s.pwr.padHold.testBit 2 then external 6 3 n.val 0 [] (tallyAnswer n.val) s else s)

/-- GEN_STEP (R277). -/
def execGenStep (n : Fin 16) (s : State) : Result :=
  .next (if coreUp s && !s.pwr.padHold.testBit 2 then external 7 3 n.val 0 [] (genStepOp n.val) s else s)

/-- ACQUIRE (R333). -/
def execAcquire (e : Fin 32) (s : State) : Result :=
  .next (request 2 e.val 0 [] (readerRequest 0 e.val) s)

/-- READER_RELEASE (R333). -/
def execReaderRelease (e : Fin 32) (bayB : Bool) (s : State) : Result :=
  .next (request 2 e.val (if bayB then 2 else 1) [] (readerRequest (if bayB then 2 else 1) e.val) s)

/-- ALLOC (R339). -/
def execAlloc (s : State) : Result :=
  .next (request 1 0 0 [] (pagePort 0 0) s)

/-- OPEN (R339). -/
def execOpenPage (n : Nat) (s : State) : Result :=
  .next (request 1 n 1 [] (pagePort 1 n) s)

/-- RETAIN (R339). -/
def execRetain (n : Nat) (s : State) : Result :=
  .next (request 1 n 2 [] (pagePort 2 n) s)

/-- RELEASE (R339). -/
def execRelease (n : Nat) (s : State) : Result :=
  .next (request 1 n 3 [] (pagePort 3 n) s)

/-- WRITE_BACK (R416). -/
def execWriteBack (line : Nat) (s : State) : Result :=
  if Config.sramLines ≤ line then .fault .noSuchLine else .next (writeBackOp line s)

/-- SAGE_SCRUB (R418). -/
def execSageScrub (bank : Fin 64) (s : State) : Result :=
  .next (sageOp bank.val s)

end Sys2Proof.Machine
end

