-- ==== Sys2Proof/Machine/Pins.lean ====
section
/-! DEFINITION. Meanings of the power, reset and pin events (spec/16 R431 to R442, spec/17 R446 to R448) and of the sideband ports and alerts (spec/17 R449 to R462). -/

namespace Sys2Proof.Machine

/-- REFCLK_AO runs again: the vigil domain goes on, and a rise of PWR_GOOD that came while it stood starts its reset now (spec/17 R448). -/
def refclkStartOp (s : State) : State :=
  let s := { s with clk := { s.clk with refclk := true } }
  if s.clk.pwrGood && !s.clk.ready && s.clk.reset == .none then powerOnStart .powerOn s else s

/-- QUIESCE (R432). -/
def execQuiesce (s : State) : Result :=
  .next (entryStep s)

/-- QUIESCE_TIMEOUT (R432). -/
def execQuiesceTimeout (s : State) : Result :=
  .next (quiesceTimeoutOp s)

/-- IDLE_ENTRY (R431). -/
def execIdleEntry (s : State) : Result :=
  .next (idleEntryOp s)

/-- IDLE_EXIT (R431). -/
def execIdleExit (s : State) : Result :=
  .next (idleExitOp s)

/-- POWER_EXIT (R436). -/
def execPowerExit (s : State) : Result :=
  .next (powerExitOp s)

/-- WAKE_N (R447). -/
def execWakeN (low : Bool) (cycles : Nat) (s : State) : Result :=
  .next (external 7 0 (b2n !low) 0 [] (wakeNOp low cycles) s)

/-- PWR_GOOD_RISE (R440). -/
def execPwrGoodRise (straps : Fin 4) (s : State) : Result :=
  .next (external 7 2 1 0 [] (pwrRise straps) s)

/-- PWR_GOOD_FALL (R439). -/
def execPwrGoodFall (s : State) : Result :=
  .next (external 7 2 0 0 [] pwrFall s)

/-- REFCLK_STOP (R448). -/
def execRefclkStop (s : State) : Result :=
  .next ({ s with clk := { s.clk with refclk := false } })

/-- REFCLK_START (R448). -/
def execRefclkStart (s : State) : Result :=
  .next (refclkStartOp s)

/-- RESET_FINISHED (R440). -/
def execResetFinished (s : State) : Result :=
  .next (if portsUp s then resetFinish s else s)

/-- SVC_READ (R451). -/
def execSvcRead (f : SvcFrame) (s : State) : Result :=
  .next (svcReadOp f s)

/-- SVC_ADDRESS_WORD (R451). -/
def execSvcAddressWord (f : SvcFrame) (s : State) : Result :=
  .next (svcAddressOp f s)

/-- SVC_WRITE (R452). -/
def execSvcWrite (f : SvcFrame) (data : List Half) (s : State) : Result :=
  .next (svcWriteOp f data s)

/-- SVC_FRAME_ERROR (R453). -/
def execSvcFrameError (e : SvcError) (s : State) : Result :=
  .next (svcErrorOp e s)

/-- SVC_WAKE (R456). -/
def execSvcWake (i2c : Bool) (s : State) : Result :=
  .next (svcWakeOp i2c s)

/-- I2C_WRITE (R457). -/
def execI2cWrite (off : Nat) (v : Word) (s : State) : Result :=
  .next (i2cWriteOp off v s)

/-- I2C_READ (R458). -/
def execI2cRead (off : Nat) (s : State) : Result :=
  .next (i2cReadOp off s)

/-- I2C_BUS_ERROR (R459). -/
def execI2cBusError (s : State) : Result :=
  .next (i2cErrorOp s)

/-- ALERT (R460). -/
def execAlert (n : Fin 10) (s : State) : Result :=
  .next (settle (alertOp n.val s))

/-- ALERT_PULSE_END (R460). -/
def execAlertPulseEnd (s : State) : Result :=
  .next (settle (pulseEndOp s))

/-- ALERT_HOLDOFF_END (R460). -/
def execAlertHoldoffEnd (s : State) : Result :=
  .next (settle (holdoffEndOp s))

/-- ALERT_RETRY (R461). -/
def execAlertRetry (s : State) : Result :=
  .next (alertRetryOp s)

/-- LINE_STUCK (R462). -/
def execLineStuck (s : State) : Result :=
  .next (lineStuckOp s)

/-- LINE_OK (R462). -/
def execLineOk (s : State) : Result :=
  .next (lineOkOp s)

/-- GRP_ALERT_N (R277). -/
def execGrpAlertN (low : Bool) (s : State) : Result :=
  .next (external 7 1 (b2n !low) 0 [] (alertLineOp low) s)

/-- ARBITRATION_LOST (R461). -/
def execArbitrationLost (nack : Bool) (address : Bool) (winner : Nat) (s : State) : Result :=
  .next (arbLostOp nack address winner s)

end Sys2Proof.Machine
end

