-- ==== Sys2Proof/Machine/Program.lean ====
section
/-! DEFINITION. Meanings of the control and scalar instructions (spec/10 R285 to R288), issued at the PC of a program (spec/09 R255, R260). -/

namespace Sys2Proof.Machine

/-- Whether the coding of the block has work that a write or a failed read may have started. -/
def codedWork (s : State) : Bool := !s.cod.deltas.isEmpty || !s.cod.out.isEmpty || !s.aud.repairs.isEmpty || !s.fab.loop.isEmpty

/-- The block goes on with the coding that an access started. -/
def settleCoded (s : State) : State := if codedWork s then settle s else s

/-- The block goes on with a flush, a reset or a teardown that waited for the command of a partition (spec/13 R377, R380, R381). -/
def settleDue (p : Nat) (s : State) : State :=
  if (partOf s p).flushing || (partOf s p).resetting || s.job.teardown.isSome then settle s else s

/-- NOP_INSTR (R285). -/
def execNopInstr (p : Part) (f : FmtR) (s : State) : Result :=
  .next (issueR p.val 0 f (controlOp p.val 0x00 f) s)

/-- BR (R285). -/
def execBr (p : Part) (f : FmtR) (s : State) : Result :=
  .next (issueR p.val 0 f (controlOp p.val 0x01 f) s)

/-- JAL (R285). -/
def execJal (p : Part) (f : FmtR) (s : State) : Result :=
  .next (issueR p.val 0 f (controlOp p.val 0x02 f) s)

/-- JR (R285). -/
def execJr (p : Part) (f : FmtR) (s : State) : Result :=
  .next (issueR p.val 0 f (controlOp p.val 0x03 f) s)

/-- DONE (R254). -/
def execDone (p : Part) (f : FmtR) (s : State) : Result :=
  .next (settleDue p.val (issueR p.val 0 f (controlOp p.val 0x04 f) s))

/-- ERETI (R271). -/
def execEreti (p : Part) (f : FmtR) (s : State) : Result :=
  .next (settleDue p.val (issueR p.val 0 f (controlOp p.val 0x05 f) s))

/-- MFS (R285). -/
def execMfs (p : Part) (f : FmtR) (s : State) : Result :=
  .next (issueR p.val 0 f (controlOp p.val 0x06 f) s)

/-- MTS (R286). -/
def execMts (p : Part) (f : FmtR) (s : State) : Result :=
  .next (issueR p.val 0 f (controlOp p.val 0x07 f) s)

/-- SLOTST (R285). -/
def execSlotst (p : Part) (f : FmtR) (s : State) : Result :=
  .next (issueR p.val 0 f (controlOp p.val 0x08 f) s)

/-- LI (R287). -/
def execLi (p : Part) (f : FmtR) (s : State) : Result :=
  .next (issueR p.val 1 f (scalarOp p.val 0x00 f) s)

/-- LIH (R287). -/
def execLih (p : Part) (f : FmtR) (s : State) : Result :=
  .next (issueR p.val 1 f (scalarOp p.val 0x01 f) s)

/-- MOV (R287). -/
def execMov (p : Part) (f : FmtR) (s : State) : Result :=
  .next (issueR p.val 1 f (scalarOp p.val 0x02 f) s)

/-- PAND (R287). -/
def execPand (p : Part) (f : FmtR) (s : State) : Result :=
  .next (issueR p.val 1 f (scalarOp p.val 0x20 f) s)

/-- POR (R287). -/
def execPor (p : Part) (f : FmtR) (s : State) : Result :=
  .next (issueR p.val 1 f (scalarOp p.val 0x21 f) s)

/-- PNOT (R287). -/
def execPnot (p : Part) (f : FmtR) (s : State) : Result :=
  .next (issueR p.val 1 f (scalarOp p.val 0x22 f) s)

/-- PSET (R287). -/
def execPset (p : Part) (f : FmtR) (s : State) : Result :=
  .next (issueR p.val 1 f (scalarOp p.val 0x23 f) s)

/-- DPUT (R288). -/
def execDput (p : Part) (f : FmtR) (s : State) : Result :=
  .next (issueR p.val 1 f (scalarOp p.val 0x2C f) s)

/-- DGET (R288). -/
def execDget (p : Part) (f : FmtR) (s : State) : Result :=
  .next (issueR p.val 1 f (scalarOp p.val 0x2D f) s)

/-- ADD (R287). -/
def execAdd (p : Part) (f : FmtR) (im : Bool) (s : State) : Result :=
  .next (issueR p.val 1 f (scalarOp p.val (0x03 + 128 * b2n im) f) s)

/-- SUB (R287). -/
def execSub (p : Part) (f : FmtR) (im : Bool) (s : State) : Result :=
  .next (issueR p.val 1 f (scalarOp p.val (0x04 + 128 * b2n im) f) s)

/-- MUL (R287). -/
def execMul (p : Part) (f : FmtR) (im : Bool) (s : State) : Result :=
  .next (issueR p.val 1 f (scalarOp p.val (0x05 + 128 * b2n im) f) s)

/-- MULHU (R287). -/
def execMulhu (p : Part) (f : FmtR) (im : Bool) (s : State) : Result :=
  .next (issueR p.val 1 f (scalarOp p.val (0x06 + 128 * b2n im) f) s)

/-- ADDS (R287). -/
def execAdds (p : Part) (f : FmtR) (im : Bool) (s : State) : Result :=
  .next (issueR p.val 1 f (scalarOp p.val (0x07 + 128 * b2n im) f) s)

/-- SUBS (R287). -/
def execSubs (p : Part) (f : FmtR) (im : Bool) (s : State) : Result :=
  .next (issueR p.val 1 f (scalarOp p.val (0x08 + 128 * b2n im) f) s)

/-- AND (R287). -/
def execAnd (p : Part) (f : FmtR) (im : Bool) (s : State) : Result :=
  .next (issueR p.val 1 f (scalarOp p.val (0x09 + 128 * b2n im) f) s)

/-- OR (R287). -/
def execOr (p : Part) (f : FmtR) (im : Bool) (s : State) : Result :=
  .next (issueR p.val 1 f (scalarOp p.val (0x0A + 128 * b2n im) f) s)

/-- XOR (R287). -/
def execXor (p : Part) (f : FmtR) (im : Bool) (s : State) : Result :=
  .next (issueR p.val 1 f (scalarOp p.val (0x0B + 128 * b2n im) f) s)

/-- SHL (R287). -/
def execShl (p : Part) (f : FmtR) (im : Bool) (s : State) : Result :=
  .next (issueR p.val 1 f (scalarOp p.val (0x0C + 128 * b2n im) f) s)

/-- SHR (R287). -/
def execShr (p : Part) (f : FmtR) (im : Bool) (s : State) : Result :=
  .next (issueR p.val 1 f (scalarOp p.val (0x0D + 128 * b2n im) f) s)

/-- SAR (R287). -/
def execSar (p : Part) (f : FmtR) (im : Bool) (s : State) : Result :=
  .next (issueR p.val 1 f (scalarOp p.val (0x0E + 128 * b2n im) f) s)

/-- MIN (R287). -/
def execMin (p : Part) (f : FmtR) (im : Bool) (s : State) : Result :=
  .next (issueR p.val 1 f (scalarOp p.val (0x0F + 128 * b2n im) f) s)

/-- MAX (R287). -/
def execMax (p : Part) (f : FmtR) (im : Bool) (s : State) : Result :=
  .next (issueR p.val 1 f (scalarOp p.val (0x10 + 128 * b2n im) f) s)

/-- MINU (R287). -/
def execMinu (p : Part) (f : FmtR) (im : Bool) (s : State) : Result :=
  .next (issueR p.val 1 f (scalarOp p.val (0x11 + 128 * b2n im) f) s)

/-- MAXU (R287). -/
def execMaxu (p : Part) (f : FmtR) (im : Bool) (s : State) : Result :=
  .next (issueR p.val 1 f (scalarOp p.val (0x12 + 128 * b2n im) f) s)

/-- CEQ (R287). -/
def execCeq (p : Part) (f : FmtR) (im : Bool) (s : State) : Result :=
  .next (issueR p.val 1 f (scalarOp p.val (0x18 + 128 * b2n im) f) s)

/-- CNE (R287). -/
def execCne (p : Part) (f : FmtR) (im : Bool) (s : State) : Result :=
  .next (issueR p.val 1 f (scalarOp p.val (0x19 + 128 * b2n im) f) s)

/-- CLT (R287). -/
def execClt (p : Part) (f : FmtR) (im : Bool) (s : State) : Result :=
  .next (issueR p.val 1 f (scalarOp p.val (0x1A + 128 * b2n im) f) s)

/-- CLTU (R287). -/
def execCltu (p : Part) (f : FmtR) (im : Bool) (s : State) : Result :=
  .next (issueR p.val 1 f (scalarOp p.val (0x1B + 128 * b2n im) f) s)

/-- CLE (R287). -/
def execCle (p : Part) (f : FmtR) (im : Bool) (s : State) : Result :=
  .next (issueR p.val 1 f (scalarOp p.val (0x1C + 128 * b2n im) f) s)

/-- CLEU (R287). -/
def execCleu (p : Part) (f : FmtR) (im : Bool) (s : State) : Result :=
  .next (issueR p.val 1 f (scalarOp p.val (0x1D + 128 * b2n im) f) s)

/-- LD (R288). -/
def execLd (p : Part) (f : FmtR) (s : State) : Result :=
  .next (settleCoded (issueR p.val 1 f (scalarOp p.val 0x28 f) s))

/-- STG (R288). -/
def execStg (p : Part) (f : FmtR) (s : State) : Result :=
  .next (settleCoded (issueR p.val 1 f (scalarOp p.val 0x29 f) s))

/-- LDD (R288). -/
def execLdd (p : Part) (f : FmtR) (s : State) : Result :=
  .next (settleCoded (issueR p.val 1 f (scalarOp p.val 0x2A f) s))

/-- STD (R288). -/
def execStd (p : Part) (f : FmtR) (s : State) : Result :=
  .next (settleCoded (issueR p.val 1 f (scalarOp p.val 0x2B f) s))

end Sys2Proof.Machine
end

