-- ==== Sys2Proof/Machine/Waits.lean ====
section
/-! DEFINITION. Meanings of the tally, timer, edge, wait, vote and power instructions (spec/10 R306 to R312), of granule ends and events (spec/09 R263, R270), and of timer expiry (R276). -/

namespace Sys2Proof.Machine

/-- A timer reaches its deadline (R276); an expiry with an event is wake source 2 (spec/16 Table 16.5). -/
def timerExpiryOp (p t : Nat) (s : State) : State :=
  let x := timerOf (partOf s p) t
  if !vigilUp s || !s.clk.pwrGood || !x.en then s
  else
    let s := timeTo x.deadline s
    let again := x.periodic && x.expired
    let s := modTimer p t (fun x => { x with
      expired := true
      missed := if again then min (x.missed + 1) 0xFFF else x.missed
      deadline := if x.periodic then (x.deadline + x.period) % 2 ^ 64 else x.deadline
      en := x.periodic }) s
    let s := if x.evt && !again then wakeAll (setEpend p evTimer s) else s
    if x.evt then wake 2 s else s

/-- TINC (R306). -/
def execTinc (p : Part) (f : FmtR) (s : State) : Result :=
  .next (issueR p.val 8 f (tallyOp p.val 0x00 f) s)

/-- TSET (R307). -/
def execTset (p : Part) (f : FmtR) (s : State) : Result :=
  .next (issueR p.val 8 f (tallyOp p.val 0x01 f) s)

/-- TTGT (R307). -/
def execTtgt (p : Part) (f : FmtR) (s : State) : Result :=
  .next (issueR p.val 8 f (tallyOp p.val 0x02 f) s)

/-- TADV (R306). -/
def execTadv (p : Part) (f : FmtR) (s : State) : Result :=
  .next (issueR p.val 8 f (tallyOp p.val 0x03 f) s)

/-- TRD (R306). -/
def execTrd (p : Part) (f : FmtR) (s : State) : Result :=
  .next (issueR p.val 8 f (tallyOp p.val 0x04 f) s)

/-- TWAIT (R306). -/
def execTwait (p : Part) (f : FmtR) (s : State) : Result :=
  .next (issueR p.val 8 f (tallyOp p.val 0x05 f) s)

/-- SWAIT (R306). -/
def execSwait (p : Part) (f : FmtR) (s : State) : Result :=
  .next (issueR p.val 8 f (tallyOp p.val 0x08 f) s)

/-- EWAIT (R306). -/
def execEwait (p : Part) (f : FmtR) (s : State) : Result :=
  .next (issueR p.val 8 f (tallyOp p.val 0x09 f) s)

/-- TMSET (R306). -/
def execTmset (p : Part) (f : FmtR) (s : State) : Result :=
  .next (issueR p.val 8 f (tallyOp p.val 0x0A f) s)

/-- TMSTOP (R306). -/
def execTmstop (p : Part) (f : FmtR) (s : State) : Result :=
  .next (issueR p.val 8 f (tallyOp p.val 0x0B f) s)

/-- TMTAKE (R308). -/
def execTmtake (p : Part) (f : FmtR) (s : State) : Result :=
  .next (issueR p.val 8 f (tallyOp p.val 0x0C f) s)

/-- EDGE (R277). -/
def execEdge (p : Part) (f : FmtR) (s : State) : Result :=
  .next (issueR p.val 8 f (tallyOp p.val 0x0D f) s)

/-- EDSET (R306). -/
def execEdset (p : Part) (f : FmtR) (s : State) : Result :=
  .next (issueR p.val 8 f (tallyOp p.val 0x0E f) s)

/-- FENCE (R310). -/
def execFence (p : Part) (f : FmtR) (s : State) : Result :=
  .next (issueR p.val 9 f (voteOp p.val 0x00 f) s)

/-- ENDUPD (R311). -/
def execEndupd (p : Part) (f : FmtR) (s : State) : Result :=
  .next (settle (issueR p.val 9 f (voteOp p.val 0x01 f) s))

/-- WAITEP (R310). -/
def execWaitep (p : Part) (f : FmtR) (s : State) : Result :=
  .next (issueR p.val 9 f (voteOp p.val 0x02 f) s)

/-- VOTERD (R310). -/
def execVoterd (p : Part) (f : FmtR) (s : State) : Result :=
  .next (issueR p.val 9 f (voteOp p.val 0x03 f) s)

/-- IDLE (R312). -/
def execIdle (p : Part) (f : FmtR) (s : State) : Result :=
  .next (issueR p.val 10 f (idleOp p.val) s)

/-- GRANULE_END (R263). -/
def execGranuleEnd (p : Part) (s : State) : Result :=
  .next (if coreUp s then settle (granuleEndOp p.val s) else s)

/-- EVENT_TAKE (R270). -/
def execEventTake (p : Part) (s : State) : Result :=
  .next (if coreUp s then takeEvent p.val s else s)

/-- TIMER_EXPIRY (R276). -/
def execTimerExpiry (p : Part) (t : Fin 64) (s : State) : Result :=
  .next (timerExpiryOp p.val t.val s)

end Sys2Proof.Machine
end

