-- ==== Sys2Proof/Machine/Dispatch.lean ====
section
/-! DEFINITION. The effect of a command on everything but the queue: one arm per constructor of Instr. -/

namespace Sys2Proof.Machine

/-- The effect of one command (its rules are named at the meanings). -/
def exec (i : Instr) (s : State) : Host.Outcome State Fault Refusal :=
  match i with
  | .nop p q h => Sys2Proof.Machine.execNop p q h s
  | .call p q h entry args => Sys2Proof.Machine.execCall p q h entry args s
  | .instrCmd p q h w1 w2 => Sys2Proof.Machine.execInstrCmd p q h w1 w2 s
  | .bind p q h tag => Sys2Proof.Machine.execBind p q h tag s
  | .unbind p q h => Sys2Proof.Machine.execUnbind p q h s
  | .pcfg p q h mask => Sys2Proof.Machine.execPcfg p q h mask s
  | .load p q h addr => Sys2Proof.Machine.execLoad p q h addr s
  | .admitJob p q h compat n0 bitmap => Sys2Proof.Machine.execAdmit p q h compat n0 bitmap s
  | .admitTimeout => Sys2Proof.Machine.execAdmitTimeout s
  | .teardown p q h => Sys2Proof.Machine.execTeardown p q h s
  | .slottab p q h addr => Sys2Proof.Machine.execSlottab p q h addr s
  | .exportCut p q h b => Sys2Proof.Machine.execExportCut p q h b s
  | .exportCancel p q h => Sys2Proof.Machine.execExportCancel p q h s
  | .restore p q h b => Sys2Proof.Machine.execRestore p q h b s
  | .commandFetch p q => Sys2Proof.Machine.execCommandFetch p q s
  | .sqDoorbell p q tail => Sys2Proof.Machine.execSqDoorbell p q tail s
  | .cqHeadDoorbell p q head => Sys2Proof.Machine.execCqHeadDoorbell p q head s
  | .queueEnable p q cq a v => Sys2Proof.Machine.execQueueEnable p q cq a v s
  | .flush p => Sys2Proof.Machine.execFlush p s
  | .reset p => Sys2Proof.Machine.execReset p s
  | .unfence p => Sys2Proof.Machine.execUnfence p s
  | .coalTimerExpiry p q => Sys2Proof.Machine.execCoalTimerExpiry p q s
  | .vecUnmask n a v => Sys2Proof.Machine.execVecUnmask n a v s
  | .regionWrite ix => Sys2Proof.Machine.execRegionWrite ix s
  | .regionRead ix => Sys2Proof.Machine.execRegionRead ix s
  | .groupWrite g a v => Sys2Proof.Machine.execGroupWrite g a v s
  | .xlatWrite ix => Sys2Proof.Machine.execXlatWrite ix s
  | .xlatRead ix => Sys2Proof.Machine.execXlatRead ix s
  | .pageRead n => Sys2Proof.Machine.execPageRead n s
  | .clearLost => Sys2Proof.Machine.execClearLost s
  | .disarm p => Sys2Proof.Machine.execDisarm p s
  | .resetReaders e => Sys2Proof.Machine.execResetReaders e s
  | .pubDirWrite e a v => Sys2Proof.Machine.execPubDirWrite e a v s
  | .warm => Sys2Proof.Machine.execWarm s
  | .reqSleep => Sys2Proof.Machine.execReqSleep s
  | .reqDeep => Sys2Proof.Machine.execReqDeep s
  | .reqOff => Sys2Proof.Machine.execReqOff s
  | .reqRun => Sys2Proof.Machine.execReqRun s
  | .keepWrite n a v => Sys2Proof.Machine.execKeepWrite n a v s
  | .keepProgramDone readBack => Sys2Proof.Machine.execKeepProgramDone readBack s
  | .snap => Sys2Proof.Machine.execSnap s
  | .keepSnapshotTimer => Sys2Proof.Machine.execKeepSnapshotTimer s
  | .eccSplitKey a v => Sys2Proof.Machine.execEccSplitKey a v s
  | .wakeNb port => Sys2Proof.Machine.execWakeNb port s
  | .recRecord v => Sys2Proof.Machine.execRecRecord v s
  | .recReplay v => Sys2Proof.Machine.execRecReplay v s
  | .recStop v => Sys2Proof.Machine.execRecStop v s
  | .tallyWrite n hi a v => Sys2Proof.Machine.execTallyWrite n hi a v s
  | .timerWrite p t hi a v => Sys2Proof.Machine.execTimerWrite p t hi a v s
  | .padRelease v => Sys2Proof.Machine.execPadRelease v s
  | .rcRead r => Sys2Proof.Machine.execRcRead r s
  | .registerWrite off a v => Sys2Proof.Machine.execRegisterWrite off a v s
  | .nopInstr p f => Sys2Proof.Machine.execNopInstr p f s
  | .br p f => Sys2Proof.Machine.execBr p f s
  | .jal p f => Sys2Proof.Machine.execJal p f s
  | .jr p f => Sys2Proof.Machine.execJr p f s
  | .done p f => Sys2Proof.Machine.execDone p f s
  | .ereti p f => Sys2Proof.Machine.execEreti p f s
  | .mfs p f => Sys2Proof.Machine.execMfs p f s
  | .mts p f => Sys2Proof.Machine.execMts p f s
  | .slotst p f => Sys2Proof.Machine.execSlotst p f s
  | .li p f => Sys2Proof.Machine.execLi p f s
  | .lih p f => Sys2Proof.Machine.execLih p f s
  | .mov p f => Sys2Proof.Machine.execMov p f s
  | .add p f im => Sys2Proof.Machine.execAdd p f im s
  | .sub p f im => Sys2Proof.Machine.execSub p f im s
  | .mul p f im => Sys2Proof.Machine.execMul p f im s
  | .mulhu p f im => Sys2Proof.Machine.execMulhu p f im s
  | .adds p f im => Sys2Proof.Machine.execAdds p f im s
  | .subs p f im => Sys2Proof.Machine.execSubs p f im s
  | .and p f im => Sys2Proof.Machine.execAnd p f im s
  | .or p f im => Sys2Proof.Machine.execOr p f im s
  | .xor p f im => Sys2Proof.Machine.execXor p f im s
  | .shl p f im => Sys2Proof.Machine.execShl p f im s
  | .shr p f im => Sys2Proof.Machine.execShr p f im s
  | .sar p f im => Sys2Proof.Machine.execSar p f im s
  | .min p f im => Sys2Proof.Machine.execMin p f im s
  | .max p f im => Sys2Proof.Machine.execMax p f im s
  | .minu p f im => Sys2Proof.Machine.execMinu p f im s
  | .maxu p f im => Sys2Proof.Machine.execMaxu p f im s
  | .ceq p f im => Sys2Proof.Machine.execCeq p f im s
  | .cne p f im => Sys2Proof.Machine.execCne p f im s
  | .clt p f im => Sys2Proof.Machine.execClt p f im s
  | .cltu p f im => Sys2Proof.Machine.execCltu p f im s
  | .cle p f im => Sys2Proof.Machine.execCle p f im s
  | .cleu p f im => Sys2Proof.Machine.execCleu p f im s
  | .pand p f => Sys2Proof.Machine.execPand p f s
  | .por p f => Sys2Proof.Machine.execPor p f s
  | .pnot p f => Sys2Proof.Machine.execPnot p f s
  | .pset p f => Sys2Proof.Machine.execPset p f s
  | .ld p f => Sys2Proof.Machine.execLd p f s
  | .stg p f => Sys2Proof.Machine.execStg p f s
  | .ldd p f => Sys2Proof.Machine.execLdd p f s
  | .std p f => Sys2Proof.Machine.execStd p f s
  | .dput p f => Sys2Proof.Machine.execDput p f s
  | .dget p f => Sys2Proof.Machine.execDget p f s
  | .tensorMov p f x => Sys2Proof.Machine.execTensorMov p f x s
  | .cvt p f x => Sys2Proof.Machine.execCvt p f x s
  | .fill p f x => Sys2Proof.Machine.execFill p f x s
  | .compress p f x => Sys2Proof.Machine.execCompress p f x s
  | .expand p f x => Sys2Proof.Machine.execExpand p f x s
  | .publish p f x => Sys2Proof.Machine.execPublish p f x s
  | .pfarm p f x => Sys2Proof.Machine.execPfarm p f x s
  | .pageSeal p f x => Sys2Proof.Machine.execPageSeal p f x s
  | .pageRetain p f x => Sys2Proof.Machine.execPageRetain p f x s
  | .pageRelease p f x => Sys2Proof.Machine.execPageRelease p f x s
  | .ew p f x => Sys2Proof.Machine.execEw p f x s
  | .map p f x => Sys2Proof.Machine.execMap p f x s
  | .adamw p f x => Sys2Proof.Machine.execAdamw p f x s
  | .lion p f x => Sys2Proof.Machine.execLion p f x s
  | .sgdm p f x => Sys2Proof.Machine.execSgdm p f x s
  | .mstep p f x => Sys2Proof.Machine.execMstep p f x s
  | .codeDelta p f x => Sys2Proof.Machine.execCodeDelta p f x s
  | .codeFresh p f x => Sys2Proof.Machine.execCodeFresh p f x s
  | .audit p f x => Sys2Proof.Machine.execAudit p f x s
  | .rebuild p f x => Sys2Proof.Machine.execRebuild p f x s
  | .decodeUnit p f x => Sys2Proof.Machine.execDecodeUnit p f x s
  | .rs p f x => Sys2Proof.Machine.execRs p f x s
  | .ag p f x => Sys2Proof.Machine.execAg p f x s
  | .ar p f x => Sys2Proof.Machine.execAr p f x s
  | .bc p f x => Sys2Proof.Machine.execBc p f x s
  | .rload p f x => Sys2Proof.Machine.execRload p f x s
  | .rstore p f x => Sys2Proof.Machine.execRstore p f x s
  | .radd32 p f x => Sys2Proof.Machine.execRadd32 p f x s
  | .radd64 p f x => Sys2Proof.Machine.execRadd64 p f x s
  | .rswap p f x => Sys2Proof.Machine.execRswap p f x s
  | .rcas p f x => Sys2Proof.Machine.execRcas p f x s
  | .rand p f x => Sys2Proof.Machine.execRand p f x s
  | .ror p f x => Sys2Proof.Machine.execRor p f x s
  | .rxor p f x => Sys2Proof.Machine.execRxor p f x s
  | .rumin p f x => Sys2Proof.Machine.execRumin p f x s
  | .rumax p f x => Sys2Proof.Machine.execRumax p f x s
  | .rgfmac p f x => Sys2Proof.Machine.execRgfmac p f x s
  | .rtadd p f x => Sys2Proof.Machine.execRtadd p f x s
  | .copy p f x => Sys2Proof.Machine.execCopy p f x s
  | .tinc p f => Sys2Proof.Machine.execTinc p f s
  | .tset p f => Sys2Proof.Machine.execTset p f s
  | .ttgt p f => Sys2Proof.Machine.execTtgt p f s
  | .tadv p f => Sys2Proof.Machine.execTadv p f s
  | .trd p f => Sys2Proof.Machine.execTrd p f s
  | .twait p f => Sys2Proof.Machine.execTwait p f s
  | .swait p f => Sys2Proof.Machine.execSwait p f s
  | .ewait p f => Sys2Proof.Machine.execEwait p f s
  | .tmset p f => Sys2Proof.Machine.execTmset p f s
  | .tmstop p f => Sys2Proof.Machine.execTmstop p f s
  | .tmtake p f => Sys2Proof.Machine.execTmtake p f s
  | .edge p f => Sys2Proof.Machine.execEdge p f s
  | .edset p f => Sys2Proof.Machine.execEdset p f s
  | .fence p f => Sys2Proof.Machine.execFence p f s
  | .endupd p f => Sys2Proof.Machine.execEndupd p f s
  | .waitep p f => Sys2Proof.Machine.execWaitep p f s
  | .voterd p f => Sys2Proof.Machine.execVoterd p f s
  | .idle p f => Sys2Proof.Machine.execIdle p f s
  | .granuleEnd p => Sys2Proof.Machine.execGranuleEnd p s
  | .eventTake p => Sys2Proof.Machine.execEventTake p s
  | .timerExpiry p t => Sys2Proof.Machine.execTimerExpiry p t s
  | .train port h c => Sys2Proof.Machine.execTrain port h c s
  | .trainWindowExpiry g stripe row => Sys2Proof.Machine.execTrainWindowExpiry g stripe row s
  | .relayTrain g stripe row => Sys2Proof.Machine.execRelayTrain g stripe row s
  | .contrib port h c => Sys2Proof.Machine.execContrib port h c s
  | .notice port h n => Sys2Proof.Machine.execNotice port h n s
  | .need port h n => Sys2Proof.Machine.execNeed port h n s
  | .query port h n => Sys2Proof.Machine.execQuery port h n s
  | .stateEntry port h n => Sys2Proof.Machine.execStateEntry port h n s
  | .plan port h n => Sys2Proof.Machine.execPlan port h n s
  | .noticeBatchTimer rank => Sys2Proof.Machine.execNoticeBatchTimer rank s
  | .noticeTimerExpiry g stripe row col => Sys2Proof.Machine.execNoticeTimerExpiry g stripe row col s
  | .epochClose => Sys2Proof.Machine.execEpochClose s
  | .reportLanded => Sys2Proof.Machine.execReportLanded s
  | .reportGuarded => Sys2Proof.Machine.execReportGuarded s
  | .codedStoreWrite addr data => Sys2Proof.Machine.execCodedStoreWrite addr data s
  | .experienceTapWrite addr data => Sys2Proof.Machine.execExperienceTapWrite addr data s
  | .tapPoison addr => Sys2Proof.Machine.execTapPoison addr s
  | .chain port h c => Sys2Proof.Machine.execChain port h c s
  | .auditFrame port h c => Sys2Proof.Machine.execAuditFrame port h c s
  | .auditLapStart => Sys2Proof.Machine.execAuditLapStart s
  | .rebuildStart => Sys2Proof.Machine.execRebuildStart s
  | .rollForward => Sys2Proof.Machine.execRollForward s
  | .restoreComplete => Sys2Proof.Machine.execRestoreComplete s
  | .chunk port h c => Sys2Proof.Machine.execChunk port h c s
  | .collNeed port h c => Sys2Proof.Machine.execCollNeed port h c s
  | .credit port h c => Sys2Proof.Machine.execCredit port h c s
  | .collTimerExpiry p axes seq => Sys2Proof.Machine.execCollTimerExpiry p axes seq s
  | .collReport port h t => Sys2Proof.Machine.execCollReport port h t s
  | .collDone port h t => Sys2Proof.Machine.execCollDone port h t s
  | .collOutcome port h t => Sys2Proof.Machine.execCollOutcome port h t s
  | .report port h t => Sys2Proof.Machine.execReport port h t s
  | .reportResend rank inc => Sys2Proof.Machine.execReportResend rank inc s
  | .mergeKeyExpiry rank inc => Sys2Proof.Machine.execMergeKeyExpiry rank inc s
  | .probe port h t => Sys2Proof.Machine.execProbe port h t s
  | .probeAnswer port h t => Sys2Proof.Machine.execProbeAnswer port h t s
  | .probeTimeout rank inc => Sys2Proof.Machine.execProbeTimeout rank inc s
  | .closure port h t => Sys2Proof.Machine.execClosure port h t s
  | .verdict port h t => Sys2Proof.Machine.execVerdict port h t s
  | .vote port h t => Sys2Proof.Machine.execVote port h t s
  | .voteResult port h t => Sys2Proof.Machine.execVoteResult port h t s
  | .guarded port h t => Sys2Proof.Machine.execGuarded port h t s
  | .groupGuarded port h t => Sys2Proof.Machine.execGroupGuarded port h t s
  | .guardWave port h t => Sys2Proof.Machine.execGuardWave port h t s
  | .landed port h t => Sys2Proof.Machine.execLanded port h t s
  | .commitWave port h t => Sys2Proof.Machine.execCommitWave port h t s
  | .abortWave port h t => Sys2Proof.Machine.execAbortWave port h t s
  | .restored port h t => Sys2Proof.Machine.execRestored port h t s
  | .rerunWave port h t => Sys2Proof.Machine.execRerunWave port h t s
  | .quiet port h t => Sys2Proof.Machine.execQuiet port h t s
  | .groupLost port h t => Sys2Proof.Machine.execGroupLost port h t s
  | .admitRecord port h t r => Sys2Proof.Machine.execAdmitRecord port h t r s
  | .ready port h t => Sys2Proof.Machine.execReady port h t s
  | .handover port h t => Sys2Proof.Machine.execHandover port h t s
  | .heartbeatSend => Sys2Proof.Machine.execHeartbeatSend s
  | .heartbeat port h b => Sys2Proof.Machine.execHeartbeat port h b s
  | .heartbeatIntervalEnd => Sys2Proof.Machine.execHeartbeatIntervalEnd s
  | .memreq port h m => Sys2Proof.Machine.execMemreq port h m s
  | .cancel port h m => Sys2Proof.Machine.execCancel port h m s
  | .memrsp port h m => Sys2Proof.Machine.execMemrsp port h m s
  | .rspTimeout p rank opseq => Sys2Proof.Machine.execRspTimeout p rank opseq s
  | .gwbulk port h ms => Sys2Proof.Machine.execGwbulk port h ms s
  | .gwFlush rank => Sys2Proof.Machine.execGwFlush rank s
  | .copyUnit port h c => Sys2Proof.Machine.execCopyUnit port h c s
  | .copyrsp port h c => Sys2Proof.Machine.execCopyrsp port h c s
  | .wake port h w => Sys2Proof.Machine.execWake port h w s
  | .frameForward port f => Sys2Proof.Machine.execFrameForward port f s
  | .frameHoldExpiry n => Sys2Proof.Machine.execFrameHoldExpiry n s
  | .nack port lseq => Sys2Proof.Machine.execNack port lseq s
  | .replayTimer port => Sys2Proof.Machine.execReplayTimer port s
  | .portBringupStep port peer => Sys2Proof.Machine.execPortBringupStep port peer s
  | .laneCalibration port lane => Sys2Proof.Machine.execLaneCalibration port lane s
  | .lockLoss port lane => Sys2Proof.Machine.execLockLoss port lane s
  | .holdExit port => Sys2Proof.Machine.execHoldExit port s
  | .prefetchStart p n => Sys2Proof.Machine.execPrefetchStart p n s
  | .prefetchArrival p n => Sys2Proof.Machine.execPrefetchArrival p n s
  | .surrTallyIncrement n inc => Sys2Proof.Machine.execSurrTallyIncrement n inc s
  | .tallyWait n => Sys2Proof.Machine.execTallyWait n s
  | .genStep n => Sys2Proof.Machine.execGenStep n s
  | .acquire e => Sys2Proof.Machine.execAcquire e s
  | .readerRelease e bayB => Sys2Proof.Machine.execReaderRelease e bayB s
  | .alloc => Sys2Proof.Machine.execAlloc s
  | .openPage n => Sys2Proof.Machine.execOpenPage n s
  | .cowCopyDone n => Sys2Proof.Machine.execCowCopyDone n s
  | .retain n => Sys2Proof.Machine.execRetain n s
  | .release n => Sys2Proof.Machine.execRelease n s
  | .sealAccept n => Sys2Proof.Machine.execSealAccept n s
  | .drainUnit => Sys2Proof.Machine.execDrainUnit s
  | .replayEntry => Sys2Proof.Machine.execReplayEntry s
  | .writeBack line => Sys2Proof.Machine.execWriteBack line s
  | .sageScrub bank => Sys2Proof.Machine.execSageScrub bank s
  | .quiesce => Sys2Proof.Machine.execQuiesce s
  | .quiesceTimeout => Sys2Proof.Machine.execQuiesceTimeout s
  | .idleEntry => Sys2Proof.Machine.execIdleEntry s
  | .idleExit => Sys2Proof.Machine.execIdleExit s
  | .powerExit => Sys2Proof.Machine.execPowerExit s
  | .wakeN low cycles => Sys2Proof.Machine.execWakeN low cycles s
  | .pwrGoodRise straps => Sys2Proof.Machine.execPwrGoodRise straps s
  | .pwrGoodFall => Sys2Proof.Machine.execPwrGoodFall s
  | .refclkStop => Sys2Proof.Machine.execRefclkStop s
  | .resetFinished => Sys2Proof.Machine.execResetFinished s
  | .svcRead f => Sys2Proof.Machine.execSvcRead f s
  | .svcWrite f data => Sys2Proof.Machine.execSvcWrite f data s
  | .svcFrameError e => Sys2Proof.Machine.execSvcFrameError e s
  | .svcWake i2c => Sys2Proof.Machine.execSvcWake i2c s
  | .i2cWrite off v => Sys2Proof.Machine.execI2cWrite off v s
  | .i2cRead off => Sys2Proof.Machine.execI2cRead off s
  | .i2cBusError => Sys2Proof.Machine.execI2cBusError s
  | .alert n => Sys2Proof.Machine.execAlert n s
  | .alertPulseEnd => Sys2Proof.Machine.execAlertPulseEnd s
  | .alertHoldoffEnd => Sys2Proof.Machine.execAlertHoldoffEnd s
  | .alertRetry => Sys2Proof.Machine.execAlertRetry s
  | .lineStuck => Sys2Proof.Machine.execLineStuck s
  | .lineOk => Sys2Proof.Machine.execLineOk s
  | .grpAlertN low => Sys2Proof.Machine.execGrpAlertN low s
  | .flit port f => Sys2Proof.Machine.execFlit port f s
  | .chervilSlot n => Sys2Proof.Machine.execChervilSlot n s
  | .laserLow port low => Sys2Proof.Machine.execLaserLow port low s
  | .refclkStart => Sys2Proof.Machine.execRefclkStart s
  | .arbitrationLost nack address winner => Sys2Proof.Machine.execArbitrationLost nack address winner s
  | .svcAddressWord f => Sys2Proof.Machine.execSvcAddressWord f s

end Sys2Proof.Machine
end

