-- ==== Sys2Proof/Machine/Idle.lean ====
section
/-! DEFINITION. What a step does on an empty queue (DESIGN CHOICE, log 1). -/

namespace Sys2Proof.Machine

/-- The clocks of one vigil cycle: TKJ_TIME advances by 40 ns (spec/16 Tables 16.1 and 16.11), and the core by 80 cycles of 2.0 GHz while it runs. -/
def tick (s : State) : State :=
  coreOn 80 { s with clk := { s.clk with time := (s.clk.time + 40) % 2 ^ 64, wall := s.clk.wall + 40 } }

/-- A power entry past its quiesce goes on by one step (spec/16 Table 16.3). -/
def entryTick (s : State) : State := if s.pwr.entering.isSome && decide (2 ≤ s.pwr.step) then entryStep s else s

/-- Verdicts whose core cycle has passed are decided (spec/02 R46). -/
def tiesTick (s : State) : State := if s.tar.issuer.tied.isEmpty then s else settle s

/-- A RESTORE that runs goes on by one entry of its map (spec/14 R405). -/
def restoreTick (s : State) : State := if s.exp.restoring.isSome && coreUp s then settle (restoreStep s) else s

/-- One vigil cycle: the clocks, a power entry past its quiesce, verdicts that waited for their cycle to pass, lanes whose calibration time has passed (spec/08 R248), an alert message on the bus (spec/17 R460), and an entry of a RESTORE. -/
def idleCycle (s : State) : State := if vigilUp s then restoreTick (alertSend (calEnds (tiesTick (entryTick (tick s))))) else s

end Sys2Proof.Machine
end

