-- ==== Sys2Proof/Safety.lean ====
section
/-! DEFINITION. What a safe step is, the invariant that steps keep, and the conditions on a state and on operands in whose terms claims are made. -/

namespace Sys2Proof.Machine

/-! ### Safe steps and the invariant -/

/-- A step is safe when it answers a next state. -/
def StepSafe (s : State) : Prop := ∃ t, step s = .next t

/-- The memory of a state stands in its canonical form: addresses strictly rising, no zero byte listed. -/
def MemCanonical (s : State) : Prop := Memory.wf s.mem = true

/-! ### Frames -/

/-- Every byte of memory reads as before. -/
def sameMem (s t : State) : Prop := ∀ a, uget t.mem a = uget s.mem a

/-- Every byte of memory outside [a, a + n) reads as before. -/
def sameMemBut (a n : Nat) (s t : State) : Prop := ∀ b, b < a ∨ a + n ≤ b → uget t.mem b = uget s.mem b

/-- Nothing but the record of partition p differs: every other part of the state, and every other partition, is the same. -/
def onlyPart (p : Nat) (s t : State) : Prop := { t with part := s.part } = s ∧ ∀ k, k ≠ p → partOf t k = partOf s k

/-- Nothing but the record of port p differs. -/
def onlyPort (p : Nat) (s t : State) : Prop := { t with port := s.port } = s ∧ ∀ k, k ≠ p → portOf t k = portOf s k

/-- Nothing but publication entry e differs. -/
def onlyPub (e : Nat) (s t : State) : Prop := { t with pub := s.pub } = s ∧ ∀ k, k ≠ e → pubOf t k = pubOf s k

/-! ### When an input reaches the block -/

/-- The record unit leaves inputs alone: neither a recording nor a replay is active, and no log filled up (spec/12 R355, R358, R359). -/
def unlogged (s : State) : Bool := !s.rcd.active && !s.rcd.full

/-- The control port takes writes (spec/16 R439, R440). -/
def ctlReady (s : State) : Bool := portsUp s && s.clk.ready && unlogged s

/-- The state as a control-port write finds it: the write disarms the unlock of the split-write test mode (spec/15 R421). -/
def ctlSeen (s : State) : State := { s with sram := { s.sram with splitArm := false } }

/-- Commands that are writes by the control port, but for those of the record unit (spec/18 R464, spec/12 Table 12.5). -/
def portWrite : Instr → Bool
  | .sqDoorbell _ _ _ => true
  | .cqHeadDoorbell _ _ _ => true
  | .queueEnable _ _ _ _ _ => true
  | .flush _ => true
  | .reset _ => true
  | .unfence _ => true
  | .vecUnmask _ _ _ => true
  | .regionWrite _ => true
  | .regionRead _ => true
  | .groupWrite _ _ _ => true
  | .xlatWrite _ => true
  | .xlatRead _ => true
  | .pageRead _ => true
  | .clearLost => true
  | .disarm _ => true
  | .resetReaders _ => true
  | .pubDirWrite _ _ _ => true
  | .warm => true
  | .reqSleep => true
  | .reqDeep => true
  | .reqOff => true
  | .reqRun => true
  | .keepWrite _ _ _ => true
  | .snap => true
  | .eccSplitKey _ _ => true
  | .wakeNb _ => true
  | .tallyWrite _ _ _ _ => true
  | .timerWrite _ _ _ _ _ => true
  | .padRelease _ => true
  | .registerWrite off _ _ => off != 0x1C0000
  | _ => false

/-- The port and the frame of a command that is the arrival of a frame of the core: every kind but a heartbeat, a WAKE frame and FRAME_FORWARD (spec/08 Table 8.2). -/
def arrival : Instr → Option (Port × Frame)
  | .train p h c => some (p, ⟨h, .contrib c⟩)
  | .contrib p h c => some (p, ⟨h, .contrib c⟩)
  | .notice p h n => some (p, ⟨h, .notice n⟩)
  | .need p h n => some (p, ⟨h, .notice n⟩)
  | .query p h n => some (p, ⟨h, .notice n⟩)
  | .stateEntry p h n => some (p, ⟨h, .notice n⟩)
  | .plan p h n => some (p, ⟨h, .notice n⟩)
  | .chain p h c => some (p, ⟨h, .chain c⟩)
  | .auditFrame p h c => some (p, ⟨h, .chain c⟩)
  | .chunk p h c => some (p, ⟨h, .chunk c⟩)
  | .collNeed p h c => some (p, ⟨h, .chunk c⟩)
  | .credit p h c => some (p, ⟨h, .chunk c⟩)
  | .collReport p h t => some (p, ⟨h, .tarra t none⟩)
  | .collDone p h t => some (p, ⟨h, .tarra t none⟩)
  | .collOutcome p h t => some (p, ⟨h, .tarra t none⟩)
  | .report p h t => some (p, ⟨h, .tarra t none⟩)
  | .probe p h t => some (p, ⟨h, .tarra t none⟩)
  | .probeAnswer p h t => some (p, ⟨h, .tarra t none⟩)
  | .closure p h t => some (p, ⟨h, .tarra t none⟩)
  | .verdict p h t => some (p, ⟨h, .tarra t none⟩)
  | .vote p h t => some (p, ⟨h, .tarra t none⟩)
  | .voteResult p h t => some (p, ⟨h, .tarra t none⟩)
  | .guarded p h t => some (p, ⟨h, .tarra t none⟩)
  | .groupGuarded p h t => some (p, ⟨h, .tarra t none⟩)
  | .guardWave p h t => some (p, ⟨h, .tarra t none⟩)
  | .landed p h t => some (p, ⟨h, .tarra t none⟩)
  | .commitWave p h t => some (p, ⟨h, .tarra t none⟩)
  | .abortWave p h t => some (p, ⟨h, .tarra t none⟩)
  | .restored p h t => some (p, ⟨h, .tarra t none⟩)
  | .rerunWave p h t => some (p, ⟨h, .tarra t none⟩)
  | .quiet p h t => some (p, ⟨h, .tarra t none⟩)
  | .groupLost p h t => some (p, ⟨h, .tarra t none⟩)
  | .ready p h t => some (p, ⟨h, .tarra t none⟩)
  | .handover p h t => some (p, ⟨h, .tarra t none⟩)
  | .admitRecord p h t r => some (p, ⟨h, .tarra t (some r)⟩)
  | .memreq p h m => some (p, ⟨h, .mem m⟩)
  | .cancel p h m => some (p, ⟨h, .mem m⟩)
  | .memrsp p h m => some (p, ⟨h, .mem m⟩)
  | .gwbulk p h ms => some (p, ⟨h, .bulk ms⟩)
  | .copyUnit p h c => some (p, ⟨h, .copy c⟩)
  | .copyrsp p h c => some (p, ⟨h, .copyRsp c⟩)
  | _ => none

/-- The frame reaches its engine: the port takes it, its header holds, it names a rank served here, its binding is in force and its epoch, where it is bound to one, is the open one (spec/08 R219, R223, R237, R238, spec/02 R54). -/
def reaches (s : State) (p : Port) (f : Frame) : Bool :=
  portsUp s && portTakes s f.hdr.typ p.val && hopOk f && decide (f.hdr.hops < 63) && coreUp s && unlogged s &&
    f.hdr.destCoord == s.fab.coord && f.hdr.tag != 0 && servesRank s f.hdr.destRank && tagOk s f.hdr && (!f.hdr.ebound || f.hdr.epoch == s.ep.epoch)

/-- The core runs, not in IDLE. -/
def coreRuns (s : State) : Bool := coreUp s && s.pwr.state == .run

/-! ### Programs -/

/-- The sequencer state in which a program goes on: in its handler or outside (spec/09 Table 9.1). -/
def onward (x : PartSt) : SeqState := if x.inH then .handler else .run

/-- The partition with its program at another word. -/
def atPc (x : PartSt) (pc : Nat) : PartSt := { x with pc := pc % 16384, wait := none, seq := onward x }

/-- A program of partition p stands at an instruction of its code (spec/09 R253, R255). -/
def atCode (s : State) (p : Nat) : Bool :=
  atBoundary s p && (match (partOf s p).image with
    | some m => codeAt m (partOf s p).pc
    | none => false)

/-- A program of partition p stands at an instruction whose predicate holds (spec/09 R260). -/
def insnReady (s : State) (p : Nat) (pred : Fin 8) (pneg : Bool) : Bool := atCode s p && pReg (partOf s p) pred.val != pneg

/-- The short instruction wrote general register n, the program goes on at the next word, and nothing else changed. -/
def wroteG (p n : Nat) (v : Word) (s t : State) : Prop :=
  onlyPart p s t ∧ partOf t p = { atPc (partOf s p) ((partOf s p).pc + 1) with g := SMap.put (partOf s p).g n v }

/-- The short instruction wrote predicate n, unless n is 0 (spec/09 Table 9.2); the program goes on at the next word, and nothing else changed. -/
def wroteP (p n : Nat) (b : Bool) (s t : State) : Prop :=
  onlyPart p s t ∧ (∀ k, k < 8 → pReg (partOf t p) k = if k = n ∧ n ≠ 0 then b else pReg (partOf s p) k) ∧
    { partOf t p with pr := (partOf s p).pr } = atPc (partOf s p) ((partOf s p).pc + 1)

/-- An integer brought into the range of signed 64-bit numbers. -/
def clamp64 (v : Int) : Word := BitVec.ofInt 64 (max (-(2 ^ 63)) (min (2 ^ 63 - 1) v))

/-- A read of [a, a + n) whose interface is free, that meets no error and leaves no trace: no odd check bits, no poison, no error of T2 or T3, no raw reads, and no log of reads of T2 and T3. -/
def cleanRead (s : State) (a n : Nat) : Bool :=
  padFree s a && (decide (tierOf a < 2) || unlogged s) && !(splitOn s && splitRaw s) &&
    (s.sram.check.all fun c => !decide (a ≤ c.1 ∧ c.1 < a + n)) && (s.poison.all fun l => !decide (l < a + n ∧ a < l + 64)) &&
    s.badRead.all fun r => !decide (r.1 < a + n ∧ a < r.1 + r.2)

/-- The store of n bytes at a is one that R288 takes: aligned, in the window, not into T2 or T3 while a partition is bound (spec/11 R318), its interface free. -/
def storeTaken (s : State) (p a n : Nat) : Bool :=
  a % 8 == 0 && padFree s a && inWindow s p a n && !(anyBound s && decide (2 ≤ tierOf a))

/-- A write of [a, a + n) changes memory alone: no coded region in the table or in force, no sealed page, no export that preserves its cut, no split-write test. -/
def plainWrite (s : State) (a n : Nat) : Bool :=
  !touchesCoded s a n && (touchedUnits a n s).isEmpty && !entersSealed s a n && !pendLocked a n s && s.exp.state != 2 && !(tierOf a == 0 && splitOn s)

/-- No coded work waits that the block would take up by itself. -/
def noCodedWork (s : State) : Bool := !codedWork s

/-! ### Long, open and remote instructions -/

/-- Conditions at issue, on the state and the operands alone, under which a long instruction begins from its start (spec/09 R259, R262 to R265; spec/05 R136; spec/13 R380). -/
def longTaken (s : State) (p cls op : Nat) (f : FmtT) (x2 : Word) : Bool :=
  let x := partOf s p
  let e := pubOf s (sec2Of x2).entry.val
  !x.flushing && !f.resume && !x.eres && tenOk s p f && (pairedOk s p || !decide (cls = 3 ∨ cls = 4)) && (x.bound || cls != 5) &&
    !engineRefused s p (engineOf cls op) && (!f.step || stepGate s p cls == none) &&
    !(cls == 5 && op == 1 && s.ep.phase != 0 && freshBegun s (sec5Of x2).gslot.val) &&
    !(cls == 4 && f.step && decide (Config.stepRecords ≤ stepPlaces s)) &&
    !(cls == 2 && op == 8 && ((e.valid && e.pubStep && !e.pend) || (if activeB s e then e.readersA else e.readersB) != 0)) &&
    (hyperRead p cls op f x2 s).2.1.isSome &&
    (match longCheck s p cls op f x2 with
    | .ok ins outs _ => longPads s p cls op x2 ins outs && (outs.isEmpty || !outs.all fun d => dCount d == 0)
    | _ => false)

/-- Granules of a long instruction as its checks count them. -/
def longTotal (s : State) (p cls op : Nat) (f : FmtT) (x2 : Word) : Nat :=
  match longCheck s p cls op f x2 with
  | .ok _ _ w => w.2.2
  | _ => 0

/-- A long instruction has begun: the sequencer stands in LONG with no granule done, PC, ST, registers and descriptors stand, and no other partition and no byte of memory changed. -/
def longBegun (s t : State) (p cls op : Nat) (f : FmtT) (x2 : Word) : Prop :=
  let x := partOf s p
  let y := partOf t p
  (∃ l, y.long = some l ∧ l.cls = cls ∧ l.op = op ∧ l.f = f ∧ l.x2 = x2 ∧ l.count = 0 ∧ l.stop = 0 ∧
    l.total = longTotal s p cls op f x2 ∧ l.unstarted = (f.step && !stepMayStart s cls) ∧ y.progress.key = l.key) ∧
    y.seq = .long ∧ y.progress.valid = false ∧ y.progress.count = 0 ∧
    y.pc = x.pc ∧ y.st = x.st ∧ y.g = x.g ∧ y.pr = x.pr ∧ y.d = x.d ∧ y.slots = x.slots ∧ y.ops = x.ops ∧
    (∀ k, k ≠ p → partOf t k = partOf s k) ∧ t.mem = s.mem ∧
    ∀ e, (cls = 2 ∧ op = 8 ∧ e = (sec2Of x2).entry.val → pubOf t e = { pubOf s e with writing := true }) ∧
      (¬(cls = 2 ∧ op = 8 ∧ e = (sec2Of x2).entry.val) → pubOf t e = pubOf s e)

/-- An open instruction was accepted: its slot is busy, ST is OK, the program goes on, and the operation stands open; no register, no other partition and no byte of memory changed. -/
def accepted (p : Nat) (f : FmtT) (s u : State) : Prop :=
  let x := partOf s p
  let y := partOf u p
  (slotOf y f.slot.val).busy = true ∧ y.st = stOk ∧ y.pc = (x.pc + 2) % 16384 ∧ y.seq = onward x ∧ y.g = x.g ∧ y.pr = x.pr ∧ y.d = x.d ∧
    (∃ o, y.ops = x.ops ++ [o] ∧ o.slot = some f.slot.val ∧ o.ten = tenOf f) ∧
    (∀ k, k ≠ f.slot.val → slotOf y k = slotOf x k) ∧ (∀ k, k ≠ p → partOf u k = partOf s k) ∧ u.mem = s.mem

/-- The message of a remote load or an atomic of partition p (spec/08 R239, R240, spec/10 R304). -/
def remoteMsg (s : State) (p op : Nat) (y : Sec7) : MemMsg :=
  let x := partOf s p
  let n := if op = 0 then y.size.val else 8
  { op := op, spart := Fin.ofNat 16 p, opseq := SMap.look 0 x.opseq (gReg x y.rkreg.val).toNat, coef := 0
    addr := gReg x y.adreg.val, size := n, rstat := 0
    data := if op = 0 then []
      else if op = 5 then toBytes 8 (gReg x y.dreg.val).toNat ++ toBytes 8 (gReg x ((y.dreg.val + 1) % 32)).toNat
      else toBytes (memReqData op n) (gReg x y.dreg.val).toNat }

/-- Whether a remote load or an atomic passes its checks at issue and its request can leave. -/
def remoteTaken (s : State) (p op : Nat) (f : FmtT) (y : Sec7) : Bool :=
  let x := partOf s p
  let rank := (gReg x y.rkreg.val).toNat
  let d := dReg x f.dst.val
  x.bound && tenOk s p f && fabricWordOk op f (sec7Word y) &&
    (!(op == 0 && decide (8 < y.size.val)) || (descOk d (anyBound s) && denseHolds d y.size.val && decide (tierOf d.w0.toNat < 2) && inWindow s p d.w0.toNat y.size.val && padFree s d.w0.toNat)) &&
    decide (unanswered s p rank < Config.maxUnanswered) && (sendMem p rank (remoteMsg s p op y) s).2 == stOk

/-- The message of a remote store (op 1), a remote gradient accumulation (11) or a remote tally increment (12). -/
def storeMsg (s : State) (p op : Nat) (f : FmtT) (y : Sec7) : MemMsg :=
  let x := partOf s p
  let n := if op = 12 then 8 else y.size.val
  { op := op, spart := Fin.ofNat 16 p, opseq := SMap.look 0 x.opseq (gReg x y.rkreg.val).toNat
    coef := if op = 11 then y.coef else 0, addr := gReg x y.adreg.val, size := n, rstat := 0
    data := if op = 12 then toBytes 4 (gReg x y.dreg.val).toNat else denseU n 0 (memImg (dReg x f.sa.val).w0.toNat n s) }

/-- Whether a remote store passes its checks at issue, its source reads without error, and its request can leave. -/
def storeLeaves (s : State) (p op : Nat) (f : FmtT) (y : Sec7) : Bool :=
  let x := partOf s p
  let rank := (gReg x y.rkreg.val).toNat
  let d := dReg x f.sa.val
  let n := y.size.val
  (!x.flushing || f.resume) && !(slotOf x f.slot.val).busy && x.bound && tenOk s p f && fabricWordOk op f (sec7Word y) &&
    (op == 12 || (descOk d false && denseHolds d n && inWindow s p d.w0.toNat n && cleanRead s d.w0.toNat n)) &&
    decide (unanswered s p rank < Config.maxUnanswered) && (sendMem p rank (storeMsg s p op f y) s).2 == stOk

/-! ### Granules -/

/-- No read of memory meets an error or leaves a trace. -/
def cleanMemory (s : State) : Bool := s.sram.check.isEmpty && s.poison.isEmpty && s.badRead.isEmpty && !splitOn s && unlogged s

/-- A granule of l writes ws and no coded unit, sealed page, export or split-write test stands in its way; place gives where the outputs of a walk element lie. -/
def plainWrites (s : State) (l : Long) (outs : List Desc) (place : Nat → Nat) (ws : Writes) : Prop :=
  (∀ w ∈ ws, plainWrite s w.1 w.2.length = true ∧ (anyBound s = true → tierOf w.1 < 2)) ∧ ∀ k, unitsAt s outs l.extent place k = []

/-! ### Commands of the queues -/

/-- The command of a queue that a row offers to the front end (spec/13 Table 13.3). -/
def frontCmd : Instr → Option (Part × Queue × CmdHdr × FrontCmd)
  | .nop p q h => some (p, q, h, .nop)
  | .call p q h e a => some (p, q, h, .call e a)
  | .instrCmd p q h w1 w2 => some (p, q, h, .instr w1 w2)
  | .bind p q h tag => some (p, q, h, .bind tag)
  | .unbind p q h => some (p, q, h, .unbind)
  | .pcfg p q h m => some (p, q, h, .pcfg m.toNat)
  | .load p q h a => some (p, q, h, .load a)
  | .admitJob p q h compat n0 a => some (p, q, h, .admission compat n0 a)
  | .teardown p q h => some (p, q, h, .teardown)
  | .slottab p q h a => some (p, q, h, .slottab a)
  | .exportCut p q h b => some (p, q, h, .exportCut b)
  | .exportCancel p q h => some (p, q, h, .exportCancel)
  | .restore p q h b => some (p, q, h, .restore b)
  | _ => none

/-- What follows a command of a queue: the block's settling, for those that can give it work of its own. -/
def cmdEnd : FrontCmd → State → State
  | .instr _ _ => settle
  | .admission _ _ _ => settle
  | .teardown => settle
  | .restore _ => settle
  | _ => id


/-- The state once the front end has taken a command of queue q: a completion entry is reserved (spec/13 R365). -/
def cmdTaken (s : State) (p q : Nat) (queued : Bool) : State := takeEntry p q queued (modSq p q (fun y => { y with cqWait := false }) s)

/-- The command as its completion will name it; u is the state after it was taken. -/
def cmdCur (u : State) (p : Part) (q : Queue) (h : CmdHdr) : CurCmd :=
  { p := p, q := q, cid := h.cid, sqHead := (sqOf (partOf u p.val) q.val).head, instr := false
    epv := if h.epv then some h.epoch else none, cqGen := (cqOf (partOf u p.val) q.val).gen }

/-- The front end may look at a command of queue q: the core runs, no power state is entered, no log is written, and its completion queue has room and can be reached (spec/13 R365, spec/16 R437). -/
def frontReady (s : State) (p q : Nat) : Bool := coreRuns s && unlogged s && s.pwr.entering.isNone && padFree s (cqOf (partOf s p) q).base.toNat && cqRoom (partOf s p) q

/-- A command offered straight to the front end may start now. -/
def cmdStarts (s : State) (p q : Nat) (h : CmdHdr) (k : FrontCmd) : Bool :=
  frontReady s p q && (forced (partOf s p) q false).isNone && startGate s p q h k == .start

/-- Which fields a partition keeps while commands act on it: its program state. -/
def sameProgram (x y : PartSt) : Prop :=
  y.g = x.g ∧ y.pr = x.pr ∧ y.d = x.d ∧ y.pc = x.pc ∧ y.seq = x.seq ∧ y.st = x.st ∧ y.slots = x.slots ∧ y.epend = x.epend ∧
    y.emask = x.emask ∧ y.timer = x.timer ∧ y.edge = x.edge ∧ y.wait = x.wait

end Sys2Proof.Machine
end

