-- ==== Sys2Proof/Certificates/Slice0/Obligations.lean ====
section
/-! DEFINITION. The statements for the provers, one definition each (OBLIGATIONS.json lists them). -/

open Sys2Proof Sys2Proof.Machine

/-- O1. A step of a state with command c at the front of its queue is exec of c on the state with the queue's rest (the queue is the block model's own, log 1). -/
def Obligations.StepRunsFrontCommand : Prop :=
  ∀ (c : Instr) (cs : List Instr) (s : State), s.pending = c :: cs → step s = exec c { s with pending := cs }

/-- O2. On an empty queue, a step answers a next state. Where the vigil domain is stopped (REFCLK_AO stopped, or state OFF), nothing changes. Where it runs and no power entry, lane calibration, alert message, verdict of the cycle (R46) or RESTORE is under way, only the clocks change: TKJ_TIME and the wall clock advance by 40 ns, the core cycle by 80 while the core runs in RUN, and the count of gated cycles by 80 in IDLE. Where only a RESTORE is under way and the core runs, the cycle also takes up one entry of its map, or completes it. That a step on an empty queue is one vigil cycle, and that a RESTORE takes one entry in each, is the model's choice (logs 1 and 179). -/
def Obligations.EmptyQueueLetsTimePass : Prop :=
  ∀ s : State, s.pending = [] →
    (vigilUp s = false → step s = .next s) ∧
    (vigilUp s = true → s.pwr.entering = none → (s.port.all fun x => x.2.cal.isNone) = true → s.side.queue = [] → s.tar.issuer.tied = [] →
      let t : State := { s with clk := { s.clk with
        time := (s.clk.time + 40) % 2 ^ 64, wall := s.clk.wall + 40
        cycle := if coreRuns s then s.clk.cycle + 80 else s.clk.cycle
        gated := if coreUp s && s.pwr.state == .idle then s.clk.gated + 80 else s.clk.gated } }
      (s.exp.restoring = none → step s = .next t) ∧ (s.exp.restoring ≠ none → coreUp s = true → step s = .next (settle (restoreStep t))))

/-- O3. In State.reset: READY is set with reset cause 1 (power-on); no partition is bound, fenced or admitted, every sequencer is in NOIMAGE with EIE 0 and EPEND 0, all predicates but p0 read 0; TKJ_EPOCH is epoch 0 in no phase; no region, group, exception or publication entry is valid; group slots read K 8 and M 2; every event counter of tallies reads 0; no keep word is busy; the record unit is idle and the pad groups TAP, SURR, HOST and SIDEBAND are held, and PHOTONIC is released, as Table 16.7 says (0x1D). -/
def Obligations.ResetRegisterValues : Prop :=
  let r := State.reset
  (r.clk.ready = true ∧ r.clk.rstCause = 1 ∧ r.pwr.padHold = 0x1D ∧ r.pwr.state = .run) ∧
  (∀ p, (partOf r p).bound = false ∧ (partOf r p).fenced = false ∧ (partOf r p).admin = false ∧ (partOf r p).seq = .noImage ∧
    (partOf r p).eie = false ∧ (partOf r p).epend = 0 ∧ ∀ k, k < 8 → pReg (partOf r p) k = decide (k = 0)) ∧
  (r.ep.epoch = 0 ∧ r.ep.phase = 0 ∧ r.ep.limit = false) ∧
  (∀ i, (regionOf r i).valid = false ∧ (SMap.look {} r.fab.xlat i).valid = false ∧ (pubOf r i).valid = false) ∧
  (∀ g, (grpOf r g).en = false ∧ (grpOf r g).k = 8 ∧ (grpOf r g).m = 2) ∧
  (∀ n, (tallyOf r n).count = 0 ∧ (tallyOf r n).target = 0) ∧
  (r.keep.busy = none ∧ r.rcd.active = false ∧ r.mode.chervil = false ∧ r.mode.compat = false)

/-- O4. The memory of State.reset lists addresses strictly rising and no zero byte. (The canonical form is the model's own representation of memory.) -/
def Obligations.ResetMemoryCanonical : Prop :=
  MemCanonical State.reset

/-- O5. For every state whose memory lists addresses strictly rising and no zero byte, every step (of any command, or on an empty queue) that answers a next state answers one whose memory stands in that form. Equal memories are therefore equal data after any run from any such state. -/
def Obligations.StepKeepsMemoryCanonical : Prop :=
  ∀ s t : State, MemCanonical s → step s = .next t → MemCanonical t

/-- O6. For every command header whose fields fit their widths and every command of Table 13.3 whose operands fit the fields that Tables 13.3 and 14.7 give them, reading the 64 bytes that the encoder writes for it gives back exactly that header and that command, and the bytes number 64. -/
def Obligations.CommandEntryRoundTrip : Prop :=
  ∀ (h : CmdHdr) (k : FrontCmd), h.cid < 2 ^ 16 → h.epoch < 2 ^ 32 →
    (match k with
      | .call e _ => e < 2 ^ 8
      | .bind t => t < 2 ^ 16
      | .pcfg m => m < 2 ^ 16
      | .admission _ n _ => n < 2 ^ 32
      | .exportCut b => b.entries < 2 ^ 32 ∧ b.areaSize < 2 ^ 64 ∧ b.copyMib < 2 ^ 16
      | .restore b => b.entries < 2 ^ 32
      | .bad => False
      | _ => True) →
    (cmdBytes h k).length = 64 ∧ parseCmd (cmdBytes h k) = (h, k)

/-- O7. For every value of every field: reading the second word of a class 2, 3, 4, 5, 6 or 7 instruction from the word that the encoder builds for it gives back every field (Tables 10.4, 10.5, 10.8, 10.9 and 10.11), and the first word of format T gives back its class, operation and every field; the encoder takes RESUME as 0, as KEY does (R264), and the first word with bit 22 set where RESUME is gives back RESUME too. -/
def Obligations.SecondWordRoundTrip : Prop :=
  (∀ x : Sec2, sec2Of (sec2Word x) = x) ∧ (∀ x : Sec34, sec34Of (sec34Word x) = x) ∧ (∀ x : Sec5, sec5Of (sec5Word x) = x) ∧
  (∀ x : Sec6, sec6Of (sec6Word x) = x) ∧ (∀ x : Sec7, sec7Of (sec7Word x) = x) ∧
  ∀ (cls op : Nat) (f : FmtT), cls < 16 → op < 256 →
    let w := fmtTWord cls op f ||| (if f.resume then 1 <<< 22 else 0)
    fmtTOf (fmtTWord cls op f) = { f with resume := false } ∧ wCls w = cls ∧ wOp w = op ∧ fmtTOf w = f

/-- O8. When the program of a partition stands at the instruction and its predicate holds, ADD, SUB, MUL, MULHU, ADDS, SUBS, AND, OR, XOR, SHL, SHR, SAR, MIN, MAX, MINU and MAXU answer the next state in which gD holds the result of Table 10.2 on gA and b (gB, or IMM sign-extended in the immediate form): wrapping, saturating in ADDS and SUBS, a shift by 64 or more giving 0 (or the sign in SAR). Frame: PC moves to the next word; no other register, predicate, descriptor, status or slot, no other partition, no other part of the state and no byte of memory changes. -/
def Obligations.ScalarArithmeticResults : Prop :=
  ∀ (p : Part) (f : FmtR) (im : Bool) (s : State), insnReady s p.val f.pred f.pneg = true →
    let x := partOf s p.val
    let a := gReg x f.ra.val
    let b : Word := if im then f.imm.signExtend 64 else gReg x f.rb.val
    let gives (i : Instr) (v : Word) : Prop := ∃ t, exec i s = .next t ∧ wroteG p.val f.rd.val v s t
    gives (.add p f im) (a + b) ∧ gives (.sub p f im) (a - b) ∧ gives (.mul p f im) (a * b) ∧
    gives (.mulhu p f im) (BitVec.ofNat 64 (a.toNat * b.toNat / 2 ^ 64)) ∧
    gives (.adds p f im) (clamp64 (a.toInt + b.toInt)) ∧ gives (.subs p f im) (clamp64 (a.toInt - b.toInt)) ∧
    gives (.and p f im) (a &&& b) ∧ gives (.or p f im) (a ||| b) ∧ gives (.xor p f im) (a ^^^ b) ∧
    gives (.shl p f im) (a <<< b.toNat) ∧ gives (.shr p f im) (a >>> b.toNat) ∧ gives (.sar p f im) (a.sshiftRight b.toNat) ∧
    gives (.min p f im) (if a.toInt ≤ b.toInt then a else b) ∧ gives (.max p f im) (if a.toInt ≤ b.toInt then b else a) ∧
    gives (.minu p f im) (if a.toNat ≤ b.toNat then a else b) ∧ gives (.maxu p f im) (if a.toNat ≤ b.toNat then b else a)

/-- O9. When the program of a partition stands at the instruction and its predicate holds, CEQ, CNE, CLT, CLTU, CLE and CLEU (register and immediate forms), PAND, POR, PNOT and PSET answer the next state in which predicate RD[2:0] holds the result of Table 10.2, except that a write to p0 is ignored and p0 reads 1. Frame: PC moves to the next word; no other predicate, no register, descriptor, status or slot, no other partition, no other part of the state and no byte of memory changes. -/
def Obligations.ScalarCompareAndPredicates : Prop :=
  ∀ (p : Part) (f : FmtR) (im : Bool) (s : State), insnReady s p.val f.pred f.pneg = true →
    let x := partOf s p.val
    let a := gReg x f.ra.val
    let b : Word := if im then f.imm.signExtend 64 else gReg x f.rb.val
    let gives (i : Instr) (v : Bool) : Prop := ∃ t, exec i s = .next t ∧ wroteP p.val (f.rd.val % 8) v s t
    gives (.ceq p f im) (decide (a = b)) ∧ gives (.cne p f im) (decide (a ≠ b)) ∧
    gives (.clt p f im) (decide (a.toInt < b.toInt)) ∧ gives (.cltu p f im) (decide (a.toNat < b.toNat)) ∧
    gives (.cle p f im) (decide (a.toInt ≤ b.toInt)) ∧ gives (.cleu p f im) (decide (a.toNat ≤ b.toNat)) ∧
    gives (.pand p f) (pReg x (f.ra.val % 8) && pReg x (f.rb.val % 8)) ∧ gives (.por p f) (pReg x (f.ra.val % 8) || pReg x (f.rb.val % 8)) ∧
    gives (.pnot p f) (!pReg x (f.ra.val % 8)) ∧ gives (.pset p f) (f.imm.getLsbD 0)

/-- O10. When the program of a partition stands at the instruction and its predicate holds: LI writes IMM sign-extended, LIH writes gD[63:32] and keeps gD[31:0], MOV copies gA, DGET reads word IMM[2:0] of descriptor IMM[31:26], MFS reads the special register that IMM[4:0] names (PC as the word index of the next instruction, and 0 for a number from 12 on), and SLOTST reads busy (bit 8) and status (bits 7 to 0) of slot IMM[4:0]. DPUT writes gA into word IMM[2:0] of descriptor IMM[31:26]. Each answers a next state. Frame: PC moves to the next word; nothing else changes, and no byte of memory. -/
def Obligations.ScalarMoveResults : Prop :=
  ∀ (p : Part) (f : FmtR) (s : State), insnReady s p.val f.pred f.pneg = true →
    let x := partOf s p.val
    let n := f.imm.toNat % 32
    let gives (i : Instr) (v : Word) : Prop := ∃ t, exec i s = .next t ∧ wroteG p.val f.rd.val v s t
    gives (.li p f) (f.imm.signExtend 64) ∧
    gives (.lih p f) (BitVec.ofNat 64 (f.imm.toNat * 2 ^ 32 + (gReg x f.rd.val).toNat % 2 ^ 32)) ∧
    gives (.mov p f) (gReg x f.ra.val) ∧
    gives (.dget p f) (dWord (dReg x (f.imm.toNat / 2 ^ 26)) (f.imm.toNat % 8)) ∧
    (∃ t, exec (.dput p f) s = .next t ∧ onlyPart p.val s t ∧
      partOf t p.val = { atPc x (x.pc + 1) with
        d := SMap.put x.d (f.imm.toNat / 2 ^ 26) (setDWord (dReg x (f.imm.toNat / 2 ^ 26)) (f.imm.toNat % 8) (gReg x f.ra.val)) }) ∧
    gives (.slotst p f) (BitVec.ofNat 64 ((slotOf x n).status % 256 + if (slotOf x n).busy then 256 else 0)) ∧
    (∃ v, gives (.mfs p f) v ∧
      (n = 0 → v = BitVec.ofNat 64 ((x.pc + 1) % 16384)) ∧ (n = 1 → v = BitVec.ofNat 64 x.st) ∧ (n = 2 → v = BitVec.ofNat 64 x.epend) ∧
      (n = 3 → v = BitVec.ofNat 64 x.emask) ∧ (n = 4 → v = BitVec.ofNat 64 (if x.eie then 1 else 0)) ∧
      (n = 5 → v = BitVec.ofNat 64 x.eret) ∧ (n = 6 → v = BitVec.ofNat 64 (if x.eres then 1 else 0)) ∧
      (n = 7 → v = BitVec.ofNat 64 p.val) ∧ (n = 8 → v = BitVec.ofNat 64 ((aliasNow s).getD (selfRank s))) ∧ (n = 9 → v = epochWord s) ∧
      (n = 10 → v = BitVec.ofNat 64 s.clk.time) ∧ (n = 11 → v = BitVec.ofNat 64 x.progress.count) ∧
      (12 ≤ n → v = 0))

/-- O11. When the program of a partition stands at the instruction and its predicate holds: NOP only moves PC to the next word; BR sets PC to its own PC plus IMM; JAL also writes PC plus 1 into gD; JR sets PC to gA[13:0]; MTS, by the special number IMM[4:0], writes ST, EMASK or EIE from the low bits of gA (EIE stays 0 in an image without entry 2), clears the bits of EPEND that gA has set, and to any other special changes nothing but PC. PC is 14 bits. Each answers a next state. Frame: no other register of the partition, no other partition, no other part of the state and no byte of memory changes. Where PC stands outside the code area or at the second word of an instruction, as a BR, JAL or JR may have left it, the program stops there (R255): a malformed command is counted (class 2), the sequencer returns to DISPATCH, a current command completes BAD_COMMAND, the partition's cause bit 5 is set, and a bound partition fences the others of its tag, as for a job fault. -/
def Obligations.ControlTransferAndSpecials : Prop :=
  (∀ (p : Part) (f : FmtR) (s : State) (m : Image), atBoundary s p.val = true → (partOf s p.val).image = some m → codeAt m (partOf s p.val).pc = false →
    let x := partOf s p.val
    let idle : PartSt := { x with seq := .dispatch, wait := none, retry := none, inH := false }
    ∀ i ∈ [Instr.nopInstr p f, .br p f, .jal p f, .jr p f, .mts p f],
      (x.cur = none → ∃ t, exec i s = .next (jobFault p.val (partCause p.val 5 t)) ∧ onlyPart p.val (violate 2 s) t ∧ partOf t p.val = idle) ∧
      ∀ c, x.cur = some c → ∃ t, exec i s = .next (jobFault p.val (partCause p.val 5 (complete c stBad 0 t))) ∧ onlyPart p.val (violate 2 s) t ∧
        partOf t p.val = dropCur c idle) ∧
  ∀ (p : Part) (f : FmtR) (s : State), insnReady s p.val f.pred f.pneg = true →
    let x := partOf s p.val
    let n := f.imm.toNat % 32
    let target : Nat := (((x.pc : Int) + f.imm.toInt) % 16384).toNat
    let gives (i : Instr) (y : PartSt) : Prop := ∃ t, exec i s = .next t ∧ onlyPart p.val s t ∧ partOf t p.val = y
    gives (.nopInstr p f) (atPc x (x.pc + 1)) ∧
    gives (.br p f) (atPc x target) ∧
    gives (.jal p f) { atPc x target with g := SMap.put x.g f.rd.val (BitVec.ofNat 64 ((x.pc + 1) % 16384)) } ∧
    gives (.jr p f) (atPc x ((gReg x f.ra.val).toNat % 16384)) ∧
    (n = 1 → gives (.mts p f) { atPc x (x.pc + 1) with st := (gReg x f.ra.val).toNat % 256 }) ∧
    (n = 2 → gives (.mts p f) { atPc x (x.pc + 1) with epend := x.epend &&& (65535 - (gReg x f.ra.val).toNat % 65536) }) ∧
    (n = 3 → gives (.mts p f) { atPc x (x.pc + 1) with emask := (gReg x f.ra.val).toNat % 65536 }) ∧
    (n = 4 → gives (.mts p f) { atPc x (x.pc + 1) with eie := (gReg x f.ra.val).getLsbD 0 && hasHandler x }) ∧
    (n ≠ 1 → n ≠ 2 → n ≠ 3 → n ≠ 4 → gives (.mts p f) (atPc x (x.pc + 1)))

/-- O12. When the program of a partition that neither flushes nor resets stands at the instruction, its predicate holds and no teardown is under way: DONE with no current command returns to DISPATCH and writes no completion; with a current command it also completes it with IMM[7:0], or with ST when IMM[8] is 1, and RESULT g31. ERETI, with no long instruction suspended, sets EIE (which stays 0 in an image without entry 2), leaves the handler and continues at ERET, or in DISPATCH where the event was taken there. Each answers a next state. Frame of DONE without a command and of ERETI: no register but these, no other partition, no other part of the state and no byte of memory changes. -/
def Obligations.DoneAndReturnFromHandler : Prop :=
  ∀ (p : Part) (f : FmtR) (s : State), insnReady s p.val f.pred f.pneg = true →
    (partOf s p.val).flushing = false → (partOf s p.val).resetting = false → s.job.teardown = none →
    let x := partOf s p.val
    let idle : PartSt := { x with seq := .dispatch, wait := none, retry := none, inH := false }
    let st := if f.imm.getLsbD 8 then x.st else f.imm.toNat % 256
    (x.cur = none → ∃ t, exec (.done p f) s = .next t ∧ onlyPart p.val s t ∧ partOf t p.val = idle) ∧
    (∀ c, x.cur = some c →
      ∃ t, exec (.done p f) s = .next (complete c st (gReg x 31) t) ∧ onlyPart p.val s t ∧ partOf t p.val = dropCur c idle) ∧
    (x.susp = none → ∃ t, exec (.ereti p f) s = .next t ∧ onlyPart p.val s t ∧
      partOf t p.val = if x.eretDispatch && x.inH then { idle with eie := hasHandler x, eres := false }
        else { x with eie := hasHandler x, inH := false, eres := false, pc := x.eret % 16384, wait := none, seq := .run })

/-- O13. When the program of a partition stands at the instruction, its predicate holds, the address gA plus the offset is aligned to 8 and lies in the partition's window, and no coded work of the block waits: where the bytes read without error, LD writes the 8 bytes at gA + IMM, least significant first, into gD; LDD writes the 48 bytes at gA + IMM[25:0] into descriptor IMM[31:26]; ST takes OK and PC moves to the next word. Frame: no other register of the partition, no other partition, no other part of the state and no byte of memory changes. Where a line of T1 among the bytes is poisoned and TAP is not held, LD and LDD end with ST = CHECK_FAIL, PC moves to the next word, EPEND.CHECK is set, and every general register and descriptor stands. Each answers a next state. -/
def Obligations.ScalarLoads : Prop :=
  ∀ (p : Part) (f : FmtR) (s : State), MemCanonical s → insnReady s p.val f.pred f.pneg = true → noCodedWork s = true →
    let x := partOf s p.val
    let a : Word := gReg x f.ra.val + f.imm.signExtend 64
    let b : Word := gReg x f.ra.val + (f.imm.setWidth 26).signExtend 64
    let n := f.imm.toNat / 2 ^ 26
    let after : PartSt := { atPc x (x.pc + 1) with st := stOk }
    (a.toNat % 8 = 0 → inWindow s p.val a.toNat 8 = true → cleanRead s a.toNat 8 = true →
      ∃ t, exec (.ld p f) s = .next t ∧ onlyPart p.val s t ∧
        partOf t p.val = { after with g := SMap.put x.g f.rd.val (BitVec.ofNat 64 (ofBytes ((List.range 8).map fun i => uget s.mem (a.toNat + i)))) }) ∧
    let failed (i : Instr) : Prop := ∃ t, exec i s = .next (settleCoded t) ∧ (partOf t p.val).st = stCheckFail ∧ (partOf t p.val).pc = (x.pc + 1) % 16384 ∧
      (partOf t p.val).epend.testBit evCheck = true ∧ (partOf t p.val).g = x.g ∧ (partOf t p.val).d = x.d
    (a.toNat % 8 = 0 → inWindow s p.val a.toNat 8 = true → tierOf a.toNat = 1 →
      tapFree s = true → (s.poison.any fun l => decide (l < a.toNat + 8 ∧ a.toNat < l + 64)) = true → failed (.ld p f)) ∧
    (b.toNat % 8 = 0 → inWindow s p.val b.toNat 48 = true → tierOf b.toNat = 1 →
      tapFree s = true → (s.poison.any fun l => decide (l < b.toNat + 48 ∧ b.toNat < l + 64)) = true → failed (.ldd p f)) ∧
    (b.toNat % 8 = 0 → inWindow s p.val b.toNat 48 = true → cleanRead s b.toNat 48 = true →
      ∃ t, exec (.ldd p f) s = .next t ∧ onlyPart p.val s t ∧ (∃ d, partOf t p.val = { after with d := SMap.put x.d n d } ∧
        ∀ k, k < 6 → dWord d k = BitVec.ofNat 64 (ofBytes ((List.range 8).map fun i => uget s.mem (b.toNat + 8 * k + i)))))

/-- O14. When the program of a partition stands at the instruction, its predicate holds and the address gA plus the offset is one that the address rules take: unless the coded-store path holds the write, which then waits and is marked as held, the bytes of gB (STG, at gA + IMM) or of descriptor IMM[31:26] (STD, at gA + IMM[25:0]), least significant first, go by the coded-store path, ST takes OK and PC moves to the next word. Where the write meets no coded region, no export in progress and no split-write test, and no coded work waits: the stored bytes read as stored, every byte of memory outside them reads as before, and no other partition changes. Each answers a next state. -/
def Obligations.ScalarStores : Prop :=
  ∀ (p : Part) (f : FmtR) (s : State), MemCanonical s → insnReady s p.val f.pred f.pneg = true →
    let x := partOf s p.val
    let a := (gReg x f.ra.val + f.imm.signExtend 64).toNat
    let b := (gReg x f.ra.val + (f.imm.setWidth 26).signExtend 64).toNat
    let d := dReg x (f.imm.toNat / 2 ^ 26)
    let after : PartSt := { atPc x (x.pc + 1) with st := stOk }
    (storeTaken s p.val a 8 = true →
      (writeBlocked a 8 s = true → exec (.stg p f) s = .next (settleCoded (stall p.val (markHold p.val s)))) ∧
      (writeBlocked a 8 s = false →
        exec (.stg p f) s = .next (settleCoded (instrEnd p.val 1 stOk 0 (pathWrite a (toBytes 8 (gReg x f.rb.val).toNat) s)))) ∧
      (plainWrite s a 8 = true → noCodedWork s = true →
        ∃ t, exec (.stg p f) s = .next t ∧ partOf t p.val = after ∧ (∀ k, k ≠ p.val → partOf t k = partOf s k) ∧
          sameMemBut a 8 s t ∧ ∀ i, i < 8 → uget t.mem (a + i) = BitVec.ofNat 8 ((gReg x f.rb.val).toNat / 256 ^ i))) ∧
    (storeTaken s p.val b 48 = true →
      (writeBlocked b 48 s = true → exec (.std p f) s = .next (settleCoded (stall p.val (markHold p.val s)))) ∧
      (plainWrite s b 48 = true → noCodedWork s = true →
        ∃ t, exec (.std p f) s = .next t ∧ partOf t p.val = after ∧ (∀ k, k ≠ p.val → partOf t k = partOf s k) ∧
          sameMemBut b 48 s t ∧
          ∀ k i, k < 6 → i < 8 → uget t.mem (b + 8 * k + i) = BitVec.ofNat 8 ((dWord d k).toNat / 256 ^ i)))

/-- O15. When the program of a partition stands at LD, STG, LDD or STD, its predicate holds, no command is an INSTR and no coded work waits, and the address is misaligned, or STG or STD names T2 or T3 while any partition is bound (R318): ST takes BAD_COMMAND and PC moves to the next word; the destination, every other register, every other partition and every byte of memory are as before. An aligned address outside the partition's window (R288, R372) does the same and is also counted in violation class 0. -/
def Obligations.ScalarAccessRefused : Prop :=
  ∀ (p : Part) (f : FmtR) (s : State), insnReady s p.val f.pred f.pneg = true → noCodedWork s = true →
    let x := partOf s p.val
    let a : Word := gReg x f.ra.val + f.imm.signExtend 64
    let b : Word := gReg x f.ra.val + (f.imm.setWidth 26).signExtend 64
    let bad (i : Instr) : Prop := ∃ t, exec i s = .next t ∧ onlyPart p.val s t ∧ partOf t p.val = { atPc x (x.pc + 1) with st := stBad }
    (a.toNat % 8 ≠ 0 → bad (.ld p f) ∧ bad (.stg p f)) ∧ (b.toNat % 8 ≠ 0 → bad (.ldd p f) ∧ bad (.std p f)) ∧
    (anyBound s = true → 2 ≤ tierOf a.toNat → bad (.stg p f)) ∧ (anyBound s = true → 2 ≤ tierOf b.toNat → bad (.std p f)) ∧
    let outside (i : Instr) : Prop := ∃ t, exec i s = .next t ∧ onlyPart p.val (violate 0 s) t ∧ partOf t p.val = { atPc x (x.pc + 1) with st := stBad }
    (a.toNat % 8 = 0 → inWindow s p.val a.toNat 8 = false → outside (.ld p f) ∧ (anyBound s = false ∨ tierOf a.toNat < 2 → outside (.stg p f))) ∧
    (b.toNat % 8 = 0 → inWindow s p.val b.toNat 48 = false → outside (.ldd p f) ∧ (anyBound s = false ∨ tierOf b.toNat < 2 → outside (.std p f)))

/-- O16. When the program of a partition stands at an instruction of its code and p[PRED] XOR PNEG is 0, the instruction has no effect but that PC moves past its one word (classes 0, 1, 8, 9 and 10) or two words (classes 2 to 7): stated for NOP, ADD, STG, MTS, TINC, TMSET, TWAIT, FENCE and IDLE, and for TENSOR.MOV, EW, ADAMW, CODE.DELTA, PUBLISH and PFARM. No register, status, slot or tally, no other partition, no other part of the state and no byte of memory changes. -/
def Obligations.FalsePredicateHasNoEffect : Prop :=
  ∀ (p : Part) (s : State), atCode s p.val = true → noCodedWork s = true →
    let x := partOf s p.val
    let skips (i : Instr) (n : Nat) : Prop := ∃ t, exec i s = .next t ∧ onlyPart p.val s t ∧ partOf t p.val = atPc x (x.pc + n)
    (∀ (f : FmtR) (im : Bool), pReg x f.pred.val = f.pneg →
      skips (.nopInstr p f) 1 ∧ skips (.add p f im) 1 ∧ skips (.stg p f) 1 ∧ skips (.mts p f) 1 ∧ skips (.tinc p f) 1 ∧
      skips (.tmset p f) 1 ∧ skips (.twait p f) 1 ∧ skips (.fence p f) 1 ∧ skips (.idle p f) 1) ∧
    (∀ (f : FmtT) (x2 : Sec2) (x3 : Sec34) (x5 : Sec5), pReg x f.pred.val = f.pneg →
      skips (.tensorMov p f x2) 2 ∧ skips (.ew p f x3) 2 ∧ skips (.adamw p f x3) 2 ∧ skips (.codeDelta p f x5) 2 ∧
      skips (.publish p f x2) 2 ∧ skips (.pfarm p f x2) 2)

/-- O17. When the program of a partition stands at the instruction, its predicate holds and the tally (IMM[13:0], or gA[13:0] when IMM[31] is 1) is not owned by another partition: TINC adds gB[31:0] to COUNT modulo 2^32, TSET sets COUNT, TTGT sets TARGET, TADV adds to TARGET modulo 2^32, and TRD reads TARGET and COUNT into gD[63:32] and gD[31:0]. ST takes OK and PC moves to the next word; every other tally stands. Where no partition waits, no byte of memory changes. On a tally owned by another partition each completes BAD_COMMAND with no effect. Each answers a next state. -/
def Obligations.TallyInstructions : Prop :=
  ∀ (p : Part) (f : FmtR) (s : State), insnReady s p.val f.pred f.pneg = true →
    let x := partOf s p.val
    let n := if f.imm.getLsbD 31 then (gReg x f.ra.val).toNat % 16384 else f.imm.toNat % 16384
    let low : Half := (gReg x f.rb.val).setWidth 32
    let c := (tallyOf s n).count
    let g := (tallyOf s n).target
    let mine := (tallyOf s n).owned = true → (tallyOf s n).owner = p.val
    let gives (i : Instr) (count target : Half) : Prop := ∃ t, exec i s = .next t ∧
      (tallyOf t n).count = count ∧ (tallyOf t n).target = target ∧ (∀ k, k ≠ n → tallyOf t k = tallyOf s k) ∧
      (partOf t p.val).st = stOk ∧ (partOf t p.val).pc = (x.pc + 1) % 16384 ∧ (partOf t p.val).g = x.g ∧
      ((s.part.all fun y => y.2.wait.isNone) = true → sameMem s t)
    let bad (i : Instr) : Prop := ∃ t, exec i s = .next t ∧ onlyPart p.val s t ∧ partOf t p.val = { atPc x (x.pc + 1) with st := stBad }
    (mine → gives (.tinc p f) (c + low) g ∧ gives (.tset p f) low g ∧ gives (.ttgt p f) c low ∧ gives (.tadv p f) c (g + low) ∧
      ∃ t, exec (.trd p f) s = .next t ∧ onlyPart p.val s t ∧ partOf t p.val =
        { atPc x (x.pc + 1) with st := stOk, g := SMap.put x.g f.rd.val (BitVec.ofNat 64 (g.toNat * 2 ^ 32 + c.toNat)) }) ∧
    (¬ mine → bad (.tinc p f) ∧ bad (.tset p f) ∧ bad (.ttgt p f) ∧ bad (.tadv p f) ∧ bad (.trd p f) ∧ bad (.twait p f))

/-- O18. When the program of a partition stands at the instruction and its predicate holds: TWAIT ends OK when the tally is reached, SWAIT when the slot is not busy with ST its status, EWAIT OK when EPEND and IMM[15:0] is non-zero, WAITEP OK when the open epoch exceeds gA[31:0] or equals it with PHASE at least IMM[3:0] (1 to 7), STALE_EPOCH at the epoch limit, and BAD_COMMAND where no job is open (R55 of spec/02), FENCE when IMM[0] is 0 or no slot is busy with ST unchanged, IDLE OK when a command is ready or EPEND and EMASK is non-zero; PC then stands at the next word. Otherwise the sequencer enters WAIT at the instruction, except that TWAIT, SWAIT, EWAIT and WAITEP end FLUSHED while a flush is under way. In chervil mode IDLE completes BAD_COMMAND. Each answers a next state. Frame: nothing but ST, PC and the sequencer state of the partition changes (with SWAIT of CHECK_FAIL also EPEND), and no byte of memory. -/
def Obligations.WaitInstructions : Prop :=
  ∀ (p : Part) (f : FmtR) (s : State), insnReady s p.val f.pred f.pneg = true →
    let x := partOf s p.val
    let n := if f.imm.getLsbD 31 then (gReg x f.ra.val).toNat % 16384 else f.imm.toNat % 16384
    let sl := f.imm.toNat % 32
    let m := f.imm.toNat % 65536
    let e := (gReg x f.ra.val).toNat % 2 ^ 32
    let ph := f.imm.toNat % 16
    let gives (i : Instr) (y : PartSt) : Prop := ∃ t, exec i s = .next t ∧ onlyPart p.val s t ∧ partOf t p.val = y
    let ends (i : Instr) (st : Nat) : Prop := gives i { atPc x (x.pc + 1) with st := st }
    let stays (i : Instr) (w : Wait) : Prop := gives i { x with wait := some w, seq := .wait }
    let waits (i : Instr) (w : Wait) : Prop := if x.flushing then ends i stFlushed else stays i w
    ((tallyOf s n).owned = true → (tallyOf s n).owner = p.val →
      if ((tallyOf s n).count - (tallyOf s n).target).toNat < 2 ^ 31 then ends (.twait p f) stOk else waits (.twait p f) (.tally n)) ∧
    (if (slotOf x sl).busy then waits (.swait p f) (.slot sl)
      else ∃ t, exec (.swait p f) s = .next t ∧ onlyPart p.val s t ∧
        { partOf t p.val with epend := x.epend } = { atPc x (x.pc + 1) with st := (slotOf x sl).status } ∧
        ((slotOf x sl).status ≠ stCheckFail → (partOf t p.val).epend = x.epend)) ∧
    (if x.epend &&& m ≠ 0 then ends (.ewait p f) stOk else waits (.ewait p f) (.event m)) ∧
    (if s.ep.limit then ends (.waitep p f) stStale
      else if s.ep.phase = 0 then ends (.waitep p f) stBad
      else if e < s.ep.epoch ∨ (ph ≠ 0 ∧ s.ep.epoch = e ∧ ph ≤ s.ep.phase) then ends (.waitep p f) stOk else waits (.waitep p f) (.epoch e ph)) ∧
    (if f.imm.getLsbD 0 && slotsBusy x then stays (.fence p f) (.fence true)
      else gives (.fence p f) (atPc x (x.pc + 1))) ∧
    (if s.mode.chervil then ends (.idle p f) stBad
      else if cmdReady x = true ∨ x.epend &&& x.emask ≠ 0 then ends (.idle p f) stOk else stays (.idle p f) .idle)

/-- O19. When the program of a partition stands at the instruction and its predicate holds: TMSET sets DEADLINE to TIME + gB, EXPIRED and MISSED to 0, PERIODIC and EVT from IMM[8] and IMM[9], PERIOD_NS to gB[39:0] when IMM[8] is 1, and EN to 1, but to 0 for a periodic timer with a period below 40 ns; TMSTOP clears EN; TMTAKE reads EXPIRED and MISSED into gD and clears both; EDGE reads LATCHED, LEVEL and COUNT into gD and clears LATCHED and COUNT; EDSET sets KIND, EVT, SRC and SEL from gA, clears LATCHED and COUNT and takes the level of its source. ST stands, PC moves to the next word. Each answers a next state. Frame: no other register of the partition, no other partition, no other part of the state and no byte of memory changes. -/
def Obligations.TimerAndEdgeInstructions : Prop :=
  ∀ (p : Part) (f : FmtR) (s : State), insnReady s p.val f.pred f.pneg = true →
    let x := partOf s p.val
    let y := atPc x (x.pc + 1)
    let k := f.imm.toNat % 64
    let tm := timerOf x k
    let b := (gReg x f.rb.val).toNat
    let per := f.imm.getLsbD 8
    let j := f.imm.toNat % 32
    let e := edgeOf x j
    let a := (gReg x f.ra.val).toNat
    let e' : Edge := { e with kind := a / 2 ^ 60 % 4, evt := (gReg x f.ra.val).getLsbD 59, src := a / 2 ^ 24 % 8, sel := a % 16384, latched := false, count := 0 }
    let gives (i : Instr) (z : PartSt) : Prop := ∃ t, exec i s = .next t ∧ onlyPart p.val s t ∧ partOf t p.val = z
    gives (.tmset p f) { y with timer := SMap.put x.timer k { tm with
      deadline := (s.clk.time + b) % 2 ^ 64, expired := false, missed := 0, periodic := per, evt := f.imm.getLsbD 9
      period := if per then b % 2 ^ 40 else tm.period, en := !(per && decide (b % 2 ^ 40 < 40)) } } ∧
    gives (.tmstop p f) { y with timer := SMap.put x.timer k { tm with en := false } } ∧
    gives (.tmtake p f) { y with
      g := SMap.put x.g f.rd.val (BitVec.ofNat 64 ((if tm.expired then 1 else 0) + tm.missed % 4096 * 2 ^ 16))
      timer := SMap.put x.timer k { tm with expired := false, missed := 0 } } ∧
    gives (.edge p f) { y with
      g := SMap.put x.g f.rd.val (BitVec.ofNat 64 ((if e.latched then 1 else 0) + (if e.level then 2 else 0) + e.count % 65536 * 2 ^ 16))
      edge := SMap.put x.edge j { e with latched := false, count := 0 } } ∧
    gives (.edset p f) { y with edge := SMap.put x.edge j { e' with level := edgeLevel s e' } }

/-- O20. While the vigil domain runs and PWR_GOOD is high, the expiry of a timer with EN set answers a next state in which TKJ_TIME is at least DEADLINE, EXPIRED is set, a periodic timer has PERIOD_NS added to DEADLINE and stays enabled while any other timer has EN clear, MISSED rose by 1 (saturating) only where the timer was periodic with EXPIRED already set, and EPEND.TIMER is set where EVT is set and this was not such a missed expiry, and stands otherwise, so that a missed expiry raises no second event. No other timer of the partition changes, and no general register or descriptor of it. A timer whose EN is clear does not expire: nothing changes. That TIME moves on to the first step at which it is at least DEADLINE is the model's choice (log 9). -/
def Obligations.TimerExpiry : Prop :=
  ∀ (p : Part) (k : Fin 64) (s : State),
    let x := timerOf (partOf s p.val) k.val
    let again := x.periodic && x.expired
    (x.en = false → exec (.timerExpiry p k) s = .next s) ∧
    (vigilUp s = true → s.clk.pwrGood = true → x.en = true → ∃ t, exec (.timerExpiry p k) s = .next t ∧
      x.deadline ≤ t.clk.time ∧
      timerOf (partOf t p.val) k.val = { x with
        expired := true, missed := if again then min (x.missed + 1) 4095 else x.missed
        deadline := if x.periodic then (x.deadline + x.period) % 2 ^ 64 else x.deadline, en := x.periodic } ∧
      (∀ j, j ≠ k.val → timerOf (partOf t p.val) j = timerOf (partOf s p.val) j) ∧
      (x.evt = true → again = false → (partOf t p.val).epend.testBit 0 = true) ∧
      (x.evt = false ∨ again = true → (partOf t p.val).epend = (partOf s p.val).epend) ∧
      (partOf t p.val).g = (partOf s p.val).g ∧ (partOf t p.val).d = (partOf s p.val).d)

/-- O21. While the core runs, EVENT_TAKE changes nothing unless EIE is 1, no handler runs, the image has entry 2, EPEND and EMASK is non-zero and the sequencer is in DISPATCH, RUN, WAIT or LONG with no INSTR and no remote operation waiting. An event of a program that runs, waits (not for a remote operation) or stands in DISPATCH, and one at a granule boundary of a long instruction that has ended a granule and that nothing asks to stop, is taken: the handler runs at entry 2, and a long instruction is suspended with its progress. Where an event is taken, ERET receives the PC, ERES is set if a long instruction that has begun stops for it, EIE becomes 0, the state becomes HANDLER and PC becomes entry 2. Frame: general registers, predicates, descriptors, slots, ST and EMASK stand; no other partition and no byte of memory changes. In the WAIT of a remote load or atomic no event is taken. -/
def Obligations.EventTaken : Prop :=
  ∀ (p : Part) (s : State), coreUp s = true →
    let x := partOf s p.val
    (x.eie = false ∨ x.inH = true ∨ x.epend &&& x.emask = 0 ∨ x.wait = some .remote ∨ x.image = none ∨ (∃ m, x.image = some m ∧ entryOf m 2 = none) ∨
      isInstr x = true ∨ x.seq = .noImage ∨ x.seq = .handler → exec (.eventTake p) s = .next s) ∧
    (canTake x = false → exec (.eventTake p) s = .next s) ∧
    (x.eie = true → x.inH = false → x.epend &&& x.emask ≠ 0 → isInstr x = false → x.wait ≠ some .remote → hasHandler x = true →
      (x.long = none → x.seq = .run ∨ x.seq = .wait → ∃ t, exec (.eventTake p) s = .next t ∧ { t with upd := s.upd, mode := s.mode, part := s.part } = leaveIdle s ∧
        ∀ m pc, x.image = some m → entryOf m 2 = some pc → { partOf t p.val with acct := x.acct, vt := x.vt } = { x with
          eret := x.pc, eretDispatch := false, eres := false, eie := false, inH := true, seq := .handler, pc := pc, wait := none, susp := none
          progress := { x.progress with susp := false } }) ∧
      (x.long = none → x.seq = .dispatch → ∃ t, exec (.eventTake p) s = .next t ∧ (partOf t p.val).seq = .handler ∧ (partOf t p.val).eretDispatch = true ∧
        (partOf t p.val).eret = x.pc) ∧
      (∀ l, x.long = some l → l.unstarted = false → 0 < l.count → l.stop = 0 → x.seq = .long → ∃ t, exec (.eventTake p) s = .next t ∧
        (partOf t p.val).seq = .handler ∧ (partOf t p.val).eres = true ∧ (partOf t p.val).susp = some l ∧ (partOf t p.val).long = none ∧
        (partOf t p.val).eret = x.pc ∧ (partOf t p.val).progress = { x.progress with susp := true })) ∧
    (canTake x = true → ∃ t, exec (.eventTake p) s = .next t ∧
      (partOf t p.val).eret = x.pc ∧ (partOf t p.val).eie = false ∧ (partOf t p.val).inH = true ∧ (partOf t p.val).seq = .handler ∧
      ((partOf t p.val).eres = true ↔ ∃ l, x.long = some l ∧ l.unstarted = false) ∧
      (∀ m, x.image = some m → entryOf m 2 = some (partOf t p.val).pc) ∧
      (partOf t p.val).g = x.g ∧ (partOf t p.val).pr = x.pr ∧ (partOf t p.val).d = x.d ∧ (partOf t p.val).slots = x.slots ∧
      (partOf t p.val).st = x.st ∧ (partOf t p.val).emask = x.emask ∧ (∀ k, k ≠ p.val → partOf t k = partOf s k) ∧ t.mem = s.mem)

/-- O22. When the program of a partition stands at the instruction and its predicate holds: VOTERD writes 2 into gD for SKIP, 1 for PROCEED and 0 while the vote is pending, moves PC and changes nothing else. ENDUPD in the step partition of the job ends OK and, with an epoch open, marks that the step partition issues no further STEP optimizer instruction; in any other partition it ends BAD_COMMAND and marks nothing. Each answers a next state; what follows an ENDUPD by itself is the block's settling. -/
def Obligations.VoteAndUpdateEnd : Prop :=
  ∀ (p : Part) (f : FmtR) (s : State), insnReady s p.val f.pred f.pneg = true →
    let x := partOf s p.val
    (∃ t, exec (.voterd p f) s = .next t ∧
      wroteG p.val f.rd.val (if s.ep.skip then 2 else if s.ep.vote = 1 then 1 else 0) s t) ∧
    (isStepPart s p.val = true → s.ep.phase ≠ 0 → ∃ t, exec (.endupd p f) s = .next (settle t) ∧ t.ep = { s.ep with endupd := true } ∧
      partOf t p.val = { atPc x (x.pc + 1) with st := stOk } ∧ (∀ k, k ≠ p.val → partOf t k = partOf s k) ∧ t.mem = s.mem) ∧
    (isStepPart s p.val = false → ∃ t, exec (.endupd p f) s = .next (settle t) ∧ onlyPart p.val s t ∧
      partOf t p.val = { atPc x (x.pc + 1) with st := stBad })

/-- O23. While the core runs and a long instruction of a partition runs that nothing has asked to stop, that holds the interlock, and that has the cores and engines that it needs (in throughput mode once it is picked, R348, in chervil mode from its slot, R351), the end of a granule that is not its last answers a next state (before the block settles) in which the instruction stands one granule further and the progress slot holds VALID, the new COUNT and the instruction's KEY. The end of its last granule ends it: no long instruction is left, the progress slot is not VALID, and (no INSTR) PC stands past its two words, ST is OK, or NO_ROOM for a COMPRESS or EXPAND that ran out of room, and the tally of TEN is one higher. WHAT A GRANULE WRITES, where no read meets an error, no coded unit, sealed page or export is in its way and no partition waits for its end: the bytes of its walk elements, in order, and no others: copied (TENSOR_MOV), converted by way of binary32 (CVT), filled, packed and counted (COMPRESS), spread (EXPAND), into the inactive bay of a publication entry (PUBLISH, which ends with the bay visible, as of the committed epoch, and a count on VTALLY), the lane operation of Table 5.1 on its inputs (EW), a microprogram (MAP), an optimizer step with its working copy (class 4), the XOR (CODE_DELTA). PAGE does its page operations; CODE_FRESH past its last unit marks its slot done. GRANULE_END of a partition that runs no long instruction, or one that has not started, changes nothing but what the block settles. -/
def Obligations.GranuleEndKeepsProgress : Prop :=
  ∀ (p : Part) (s : State), coreUp s = true →
    ((partOf s p.val).long = none → exec (.granuleEnd p) s = .next (settle s)) ∧
    (∀ l, (partOf s p.val).long = some l → l.unstarted = true → exec (.granuleEnd p) s = .next (settle s)) ∧
    (∀ l l', (partOf s p.val).long = some l → l.unstarted = false → (partOf s p.val).seq = .long →
      let x := partOf s p.val
      let v := engineStarts false (lockNext p.val (recordStep p.val l s))
      (partOf v p.val).long = some l' → { l' with ins := l.ins } = l → granuleStarted v p.val l' = true → p.val ∉ v.upd.lockWait →
      (l.cls = 3 ∨ l.cls = 4 → coreMaskOf v p.val ≠ 0) →
      (∀ t, l.count + 1 < l.total → granule p.val l' v = .go t → (∃ m, (partOf t p.val).long = some m ∧ m.stop = 0) →
        ∃ u, exec (.granuleEnd p) s = .next (settle u) ∧ (∃ m, (partOf u p.val).long = some m ∧ m.count = l.count + 1) ∧
          (partOf u p.val).progress.valid = true ∧ (partOf u p.val).progress.count = l.count + 1 ∧ (partOf u p.val).progress.key = l.key) ∧
      (∀ t m, l.count + 1 = l.total → l.swap = false → granule p.val l' v = .go t → (partOf t p.val).long = some m →
        ∃ u, exec (.granuleEnd p) s = .next (settle u) ∧ (partOf u p.val).long = none ∧ (partOf u p.val).progress.valid = false ∧
          (isInstr x = false → (partOf u p.val).pc = (x.pc + 2) % 16384 ∧ (partOf u p.val).seq = onward x ∧
            (partOf u p.val).st = if (l.cls = 2 ∧ l.op = 3 ∧ dCount ((longOuts x l).headD {}) < m.result) ∨ (l.cls = 2 ∧ l.op = 4 ∧ dCount ((longIns x l).headD {}) < m.result)
              then stNoRoom else stOk) ∧
          (l.f.ten = true → ¬ (l.cls = 2 ∧ l.op = 8) → (tallyOf u l.f.tally.val).count = (tallyOf t l.f.tally.val).count + 1)) ∧
      let ins := longIns x l
      let outs := longOuts x l
      let ms := longMasks x l.cls l.op ins outs
      let w := granSpan s l.cls l.op ms (longWalk s p.val l.cls l.op l.x2 ins outs) l.count
      let es := (span w.1 w.2).filter (active s ms)
      let i := ins.headD {}
      let o := outs.headD {}
      let last := l.count + 1 = l.total
      (l.count < l.total → l.stop = 0 → l.paired = false → l.inside = [] → l.swap = false → isInstr x = false → cleanMemory s = true → (last → ∀ k, (partOf s k).wait = none) →
        let ends (q : State → Prop) : Prop := ∃ u, exec (.granuleEnd p) s = .next (settle u) ∧ q u
        let writes (place : Nat → Nat) (ws : Writes) (q : State → Prop) : Prop := plainWrites s l outs place ws →
          ends fun u => u.mem = (ws.foldl (fun s y => memWrite y.1 y.2 s) s).mem ∧ q u
        let puts (ws : Writes) : Prop := writes id ws fun _ => True
        let streams (f : List Nat → List Nat × Nat) : Writes := es.flatMap fun k =>
          (outs.zip (f (ins.map fun d => readLane s d k)).1).map fun y => elemWrite y.1 k (storeOut y.1 y.2)
        (l.cls = 2 →
          (l.op = 0 → puts (moveOut ms i o w.1 w.2 s)) ∧
          (l.op = 1 → puts (convertOut ms i o w.1 w.2 s) ∧ (fmtMx (dFmt o) = false → puts (es.map fun k => elemWrite o k (ofF32 (dFmt o) (readF32 s i k))))) ∧
          (l.op = 2 → puts (es.map fun k => elemWrite o k (gReg x (sec2Of l.x2).vreg.val).toNat)) ∧
          (l.op = 3 → let c := l.result + es.length
            writes (packedPlace s ms l.result w.1) (compressOut ms i o w.1 w.2 l.result s).1 fun u =>
              (¬ last → ∃ m, (partOf u p.val).long = some m ∧ m.result = c) ∧
              (last → gReg (partOf u p.val) (sec2Of l.x2).vreg.val = BitVec.ofNat 64 c ∧ (partOf u p.val).st = if dCount o < c then stNoRoom else stOk)) ∧
          (l.op = 4 → puts (expandOut (sec2Of l.x2).xfill ms i o w.1 w.2 l.result s).1) ∧
          (l.op = 8 → let n := (sec2Of l.x2).entry.val
            let e := pubOf s n
            writes id (publishOut n ms i w.1 w.2 s) fun u => last → pubOf u n = { e with
              writing := false, pend := false, cnt := bump 32 32 e.cnt
              epochA := if activeB s e then s.ep.committed else e.epochA, epochB := if activeB s e then e.epochB else s.ep.committed } ∧
              (l.f.ten = false → (tallyOf u e.vtally).count = (tallyOf s e.vtally).count + 1)) ∧
          (l.op = 10 → let pages := es.map (readElem s i)
            (∀ n ∈ pages, s.page.seals.contains n = false) → ∀ t, pageOps p.val (sec2Of l.x2).pop.val pages s = (t, stOk) → ends fun u => u.page = t.page)) ∧
        (l.cls = 3 → let y := sec34Of l.x2
          (l.op = 0 → (puts (ewOut y.lop.val y.rm.val (laneTyOf y.type.val) ms ins o w.1 w.2 s).1) ∧
            (y.lop ≠ 0x18 → y.lop ≠ 0x19 → let ty := laneTyOf y.type.val
              let a (j k : Nat) : Nat := ((ins[j]?).map fun d => (laneIn ty (dFmt d) (readElem s d k)).getD 0).getD 0
              puts (es.map fun k => elemWrite o k ((laneOut ty (dFmt o) (laneOp y.lop.val y.rm.val ty (a 0 k) (a 1 k) (a 2 k)).1).getD 0)))) ∧
          (l.op = 1 → puts (streams fun v => microOut ((microCode x y.mprog.val).map (BitVec.ofNat 64)) ((List.range 16).map Config.mapHyper) v outs.length))) ∧
        (l.cls = 4 → puts (streams fun v => stepOut l v outs.length)) ∧
        (l.cls = 5 → (l.op = 0 → fmtMx (dFmt o) = false → puts (es.map fun k => elemWrite o k (readElem s o k ^^^ readElem s i k))) ∧
          (l.op = 1 → last → ends fun u => u.ep.freshDone = (sec5Of l.x2).gslot.val :: s.ep.freshDone))))

/-- O24. When the program of a partition stands at the instruction, its predicate holds and the conditions at issue hold (longTaken: no flush, no resumption, the tally may be used, the descriptors pass their checks, the engine is given, a STEP form is in its window, the hyper-operand block reads well), each of TENSOR_MOV, CVT, FILL, COMPRESS, EXPAND, PUBLISH, PAGE_SEAL, PAGE_RETAIN, PAGE_RELEASE, EW, MAP, ADAMW, LION, SGDM, MSTEP, CODE_DELTA, CODE_FRESH and DECODE_UNIT answers a next state in which the long instruction stands at granule 0 of as many as its walk has, unstarted only where it is a STEP form whose window has not opened, with the progress slot naming its KEY and not VALID. Frame: PC, ST, registers, predicates, descriptors, slots and open operations stand; no other partition and no byte of memory changes; only PUBLISH changes a publication entry, which it marks as being written. -/
def Obligations.LongInstructionsBegin : Prop :=
  ∀ (p : Part) (f : FmtT) (s : State), insnReady s p.val f.pred f.pneg = true →
    let begins (i : Instr) (cls op : Nat) (x2 : Word) : Prop := longTaken s p.val cls op f x2 = true →
      ∃ t, exec i s = .next t ∧ longBegun s t p.val cls op f x2
    (∀ x : Sec2,
      begins (.tensorMov p f x) 2 0 (sec2Word x) ∧ begins (.cvt p f x) 2 1 (sec2Word x) ∧ begins (.fill p f x) 2 2 (sec2Word x) ∧
      begins (.compress p f x) 2 3 (sec2Word x) ∧ begins (.expand p f x) 2 4 (sec2Word x) ∧ begins (.publish p f x) 2 8 (sec2Word x) ∧
      begins (.pageSeal p f x) 2 10 (sec2Word { x with pop := 0 }) ∧ begins (.pageRetain p f x) 2 10 (sec2Word { x with pop := 1 }) ∧
      begins (.pageRelease p f x) 2 10 (sec2Word { x with pop := 2 })) ∧
    (∀ x : Sec34,
      begins (.ew p f x) 3 0 (sec34Word x) ∧ begins (.map p f x) 3 1 (sec34Word x) ∧ begins (.adamw p f x) 4 0 (sec34Word x) ∧
      begins (.lion p f x) 4 1 (sec34Word x) ∧ begins (.sgdm p f x) 4 2 (sec34Word x) ∧ begins (.mstep p f x) 4 3 (sec34Word x)) ∧
    (∀ x : Sec5,
      begins (.codeDelta p f x) 5 0 (sec5Word x) ∧ begins (.codeFresh p f x) 5 1 (sec5Word x) ∧ begins (.decodeUnit p f x) 5 4 (sec5Word x))

/-- O25. When the program of a partition that does not flush stands at a long instruction without STEP whose predicate holds and whose descriptors or operands fail the checks at issue, the instruction answers a next state in which ST is BAD_COMMAND and PC stands past its two words. Frame: nothing else of the partition, no other part of the state and no byte of memory changes. (A PUBLISH into an entry of its own that waits for a commit, and a CODE_FRESH of a slot already begun, end STALE_EPOCH instead and are left out here.) -/
def Obligations.LongInstructionsRefused : Prop :=
  ∀ (p : Part) (f : FmtT) (s : State), insnReady s p.val f.pred f.pneg = true → f.step = false → (partOf s p.val).flushing = false →
    let x := partOf s p.val
    let bad (i : Instr) (cls op : Nat) (x2 : Word) : Prop := longCheck s p.val cls op f x2 = .bad →
      ∃ t, exec i s = .next t ∧ onlyPart p.val s t ∧ partOf t p.val = { atPc x (x.pc + 2) with st := stBad }
    (∀ y : Sec2,
      bad (.tensorMov p f y) 2 0 (sec2Word y) ∧ bad (.cvt p f y) 2 1 (sec2Word y) ∧ bad (.fill p f y) 2 2 (sec2Word y) ∧
      bad (.compress p f y) 2 3 (sec2Word y) ∧ bad (.expand p f y) 2 4 (sec2Word y) ∧
      bad (.pageSeal p f y) 2 10 (sec2Word { y with pop := 0 }) ∧ bad (.pageRetain p f y) 2 10 (sec2Word { y with pop := 1 }) ∧
      bad (.pageRelease p f y) 2 10 (sec2Word { y with pop := 2 })) ∧
    (∀ y : Sec34,
      bad (.ew p f y) 3 0 (sec34Word y) ∧ bad (.map p f y) 3 1 (sec34Word y) ∧ bad (.adamw p f y) 4 0 (sec34Word y) ∧
      bad (.lion p f y) 4 1 (sec34Word y) ∧ bad (.sgdm p f y) 4 2 (sec34Word y) ∧ bad (.mstep p f y) 4 3 (sec34Word y)) ∧
    (∀ y : Sec5, bad (.codeDelta p f y) 5 0 (sec5Word y) ∧ bad (.decodeUnit p f y) 5 4 (sec5Word y))

/-- O26. When the program of a partition that does not flush stands at PFARM, its predicate holds, TEN names a tally that may be used, the prefetch engine is given and SA is a dense tensor of 64 bytes or more inside a window: where the schedule reads without error and its head and its entries are well formed, the instruction ends NO_ROOM while a schedule is armed, which stands, and else OK with the schedule armed, at pass 0, with the layers, the clock tally and the entries that the bytes give; the clock starts at the tally's COUNT, so that the entries of layer 0 count as late at once. Registers, descriptors and slots stand, no other partition and no other part of the state but the record of transfers due changes, and no byte of memory; then the tally that TEN names counts the end of the instruction. -/
def Obligations.PrefetchArms : Prop :=
  ∀ (p : Part) (f : FmtT) (x2 : Sec2) (s : State), insnReady s p.val f.pred f.pneg = true → tenOk s p.val f = true → (partOf s p.val).flushing = false →
    let x := partOf s p.val
    let d := dReg x f.sa.val
    let a := d.w0.toNat
    let u := memImg a (dCount d) s
    let h := ofBytes (denseU 32 0 u)
    let n := bitsOf 0 16 h
    let es := (List.range n).map fun k => pfEntryOf (denseU 32 (32 + 32 * k) u)
    descOk d false = true → dFmt d = 0 → dDense d = true → 64 ≤ dCount d → engineRefused s p.val [6] = false →
    inWindow s p.val (descExtent d).1 (descExtent d).2 = true →
    (cleanRead s a (dCount d) = true → unlogged s = true →
      bitsOf 46 2 h = 0 → bitsOf 80 176 h = 0 → 1 ≤ n → n ≤ 4096 → 32 + 32 * n ≤ dCount d → 1 ≤ bitsOf 16 16 h →
      tallyMine s p.val (bitsOf 32 14 h) = true →
      (es.all fun y => let e := y.1
        y.2 && decide (64 ≤ e.size) && e.size % 64 == 0 && e.src.toNat % 64 == 0 && e.dst.toNat % 64 == 0 &&
        decide (e.layer < bitsOf 16 16 h) && decide (e.lead ≤ bitsOf 16 16 h) && tallyMine s p.val e.tally &&
        !(anyBound s && decide (2 ≤ tierOf e.dst.toNat)) && !touchesCoded s e.dst.toNat e.size &&
        inWindow s p.val e.src.toNat e.size && inWindow s p.val e.dst.toNat e.size) = true →
      (x.pf.armed = true → ∃ t, exec (.pfarm p f x2) s = .next (endTally (tenOf f) t) ∧ onlyPart p.val s t ∧ partOf t p.val = { atPc x (x.pc + 2) with st := stNoRoom }) ∧
      (x.pf.armed = false → ∃ t, exec (.pfarm p f x2) s = .next (endTally (tenOf f) t) ∧ onlyPart p.val s { t with tap := s.tap } ∧
        (partOf t p.val).pf.armed = true ∧ (partOf t p.val).pf.layers = bitsOf 16 16 h ∧ (partOf t p.val).pf.passes = bitsOf 48 32 h ∧
        (partOf t p.val).pf.clock = bitsOf 32 14 h ∧ (partOf t p.val).pf.base = (tallyOf s (bitsOf 32 14 h)).count ∧
        (partOf t p.val).pf.entries = es.map (fun y => { y.1 with late := if y.1.layer = 0 then 1 else 0 }) ∧
        (∀ y, y ∈ es → y.1.pass = 0 ∧ y.1.flying = false) ∧
        { partOf t p.val with pf := x.pf } = { atPc x (x.pc + 2) with st := stOk }))

/-- O27. When the program of a partition that does not flush stands at the instruction, its predicate holds and its slot is not busy, each of AUDIT, REBUILD, RS, AG, AR and BC that passes its checks (and whose operands' interfaces are not held) is accepted: ST is OK, its slot is busy, PC stands past its two words, the operation stands open with its slot and its TEN tally, and no register, other slot, other partition or byte of memory has changed; then the block goes on with the audit, the rebuild runs or the collectives that may start. AUDIT queues one stripe of the slot's group for every stripe in [gA, gA + gN) with a parity; a collective takes the next sequence number of its partition and axes, with the epoch that its register names. With its slot busy each waits at the instruction for that slot and does nothing else. -/
def Obligations.OpenInstructionsAccepted : Prop :=
  ∀ (p : Part) (f : FmtT) (s : State), insnReady s p.val f.pred f.pneg = true → (partOf s p.val).flushing = false →
    let x := partOf s p.val
    let free := (slotOf x f.slot.val).busy = false
    let waits (i : Instr) : Prop := (slotOf x f.slot.val).busy = true → ∃ t, exec i s = .next (settle t) ∧ onlyPart p.val s t ∧
      partOf t p.val = { x with wait := some (.slotFree f.slot.val), seq := .wait }
    (∀ y : Sec5, waits (.audit p f y) ∧ waits (.rebuild p f y) ∧
      (free → x.bound = true → (grpOf s y.gslot.val).en = true → codingOn s = true → tenOk s p.val f = true → engineRefused s p.val [3] = false →
        ∃ u, exec (.audit p f y) s = .next (settle (auditsEnd (auditGo u))) ∧ accepted p.val f s u ∧
          u.aud.jobs = s.aud.jobs ++ ((List.range (gStripes (grpOf s y.gslot.val))).filter fun st =>
            decide ((gReg x y.freg.val).toNat ≤ st ∧ st < (gReg x y.freg.val).toNat + (gReg x y.nreg.val).toNat) &&
              (parityAt s y.gslot.val st 0).isSome).map fun st => (auditKey p.val f.slot.val, y.gslot.val, st, 2)) ∧
      (free → x.bound = true → s.reb.runs.filter (runHere s) ≠ [] → tenOk s p.val f = true → engineRefused s p.val [3] = false →
        ∃ u, accepted p.val f s u ∧ exec (.rebuild p f y) s = .next (settle (if isStepPart s p.val then (s.reb.runs.filter (runHere s)).foldl
          (fun s r => sendReady r.failed (putRun { r with joined := true } s)) u else u)))) ∧
    (∀ y : Sec6, waits (.rs p f y) ∧ waits (.ag p f y) ∧ waits (.ar p f y) ∧ waits (.bc p f y) ∧
      let o := dReg x f.dst.val
      let members := memberSet s y.axes.val
      let me := (members.findIdx? (· == servedRank s)).getD 0
      let q := SMap.look 0 s.coll.seq (p.val * 16 + y.axes.val)
      let takes (i : Instr) (op : Nat) : Prop :=
        let ins := if op = 3 ∧ me ≠ y.root.val then [] else ([f.sa.val, f.sb.val, f.sc.val, y.in3.val].take (y.nin.val + 1)).map (dReg x)
        free → x.bound = true → x.tag = s.job.tag → collEpoch s (fld 0 32 (gReg x y.ereg.val)) = none →
        collOk s p.val op f y ins o members = true → engineRefused s p.val (collEngines op (collOrdered s f y)) = false →
        ((o :: ins).all fun d => inWindow s p.val (descExtent d).1 (descExtent d).2) = true → ((o :: ins).all fun d => padFree s d.w0.toNat) = true →
        ∃ u c, exec i s = .next (settle (startWaiting u)) ∧ accepted p.val f s u ∧ u.coll.openC = s.coll.openC ++ [c] ∧
          c.part = p.val ∧ c.axes = y.axes.val ∧ c.seq = q ∧ c.op = op ∧ c.epoch = fld 0 32 (gReg x y.ereg.val) ∧ c.members = members ∧
          c.slot = f.slot.val ∧ SMap.look 0 u.coll.seq (p.val * 16 + y.axes.val) = (q + 1) % 2 ^ 32
      takes (.rs p f y) 0 ∧ takes (.ag p f y) 1 ∧ takes (.ar p f y) 2 ∧ takes (.bc p f y) 3)

/-- O28. When the program of a partition stands at the instruction, its predicate holds and its request passes the checks at issue and can leave (remoteTaken, storeLeaves): RLOAD and the atomics RADD32, RADD64, RSWAP, RCAS, RAND, ROR, RXOR, RUMIN and RUMAX leave the program in WAIT at the instruction until the answer, with the request among the open operations; RSTORE, RGFMAC and RTADD are accepted with ST OK and a busy slot and the program goes on. Each takes operation number OPSEQ for its rank, which rises by 1 modulo 65536. COPY that passes its checks takes the next copy number and the program goes on past its two words. Frame: no general register, predicate or descriptor of the partition and no other partition changes by the issue of RLOAD, an atomic or a remote store. -/
def Obligations.RemoteOperationsIssue : Prop :=
  ∀ (p : Part) (f : FmtT) (y : Sec7) (s : State), insnReady s p.val f.pred f.pneg = true →
    let x := partOf s p.val
    let rank := (gReg x y.rkreg.val).toNat
    let q := SMap.look 0 x.opseq rank
    let d := dReg x f.sa.val
    let n := dCount d / atomElems d * atomBytes d
    let asks (i : Instr) (op : Nat) : Prop := remoteTaken s p.val op f y = true →
      ∃ t, exec i s = .next (settle t) ∧ (partOf t p.val).wait = some .remote ∧ (partOf t p.val).seq = .wait ∧
        (partOf t p.val).pc = x.pc ∧ (partOf t p.val).g = x.g ∧ (partOf t p.val).pr = x.pr ∧ (partOf t p.val).d = x.d ∧
        SMap.look 0 (partOf t p.val).opseq rank = (q + 1) % 65536 ∧
        (∃ o, (partOf t p.val).ops = x.ops ++ [o] ∧ o.msg = some (remoteMsg s p.val op y)) ∧
        (∀ k, k ≠ p.val → partOf t k = partOf s k) ∧ t.mem = s.mem
    let leaves (i : Instr) (op : Nat) : Prop := storeLeaves s p.val op f y = true →
      ∃ t, exec i s = .next (settle t) ∧ accepted p.val f s t ∧ SMap.look 0 (partOf t p.val).opseq rank = (q + 1) % 65536
    asks (.rload p f y) 0 ∧ asks (.radd32 p f y) 2 ∧ asks (.radd64 p f y) 3 ∧ asks (.rswap p f y) 4 ∧ asks (.rcas p f y) 5 ∧
    asks (.rand p f y) 6 ∧ asks (.ror p f y) 7 ∧ asks (.rxor p f y) 8 ∧ asks (.rumin p f y) 9 ∧ asks (.rumax p f y) 10 ∧
    leaves (.rstore p f y) 1 ∧ leaves (.rgfmac p f y) 11 ∧ leaves (.rtadd p f y) 12 ∧
    (x.flushing = false → (slotOf x f.slot.val).busy = false → x.bound = true → tenOk s p.val f = true → fabricWordOk 13 f (sec7Word y) = true → descOk d false = true →
      dDense d = true → tierOf d.w0.toNat < 2 →
      inWindow s p.val d.w0.toNat n = true → padFree s d.w0.toNat = true → (translate s rank).isSome = true →
      ∃ t, exec (.copy p f y) s = .next (settle t) ∧ (partOf t p.val).copyId = (x.copyId + 1) % 65536 ∧
        (partOf t p.val).pc = (x.pc + 2) % 16384 ∧ (partOf t p.val).g = x.g)

/-- O29. For every command of a queue (frontCmd) that the front end looks at (frontReady): on a fenced partition it completes FENCED; one with EPOCH not 0 and EPV 0 completes BAD_COMMAND and is counted as a breach of contract 2; a fenced command (FENCE) whose queue has commands outstanding waits; with EPV it completes BAD_COMMAND with no epoch open, STALE_EPOCH at the epoch limit or for an epoch other than the open one and the next, and waits for the next epoch; CALL and INSTR complete BAD_COMMAND without an image and wait unless the sequencer is in DISPATCH; any other command waits while an admission, a teardown or a RESTORE is under way, completes BAD_COMMAND where it is an ADMIN command of a partition without ADMIN, and waits while a pad group that it reads through is held; otherwise it runs. A command that waits leaves the state as it is but for CQ_WAIT, which clears (the model's choice, log 29; and log 27). Where its completion queue can be reached and has no room CQ_WAIT is set and nothing else changes. CALL, INSTR and so on then run as their own statements say; NOP completes OK. -/
def Obligations.CommandGate : Prop :=
  ∀ (i : Instr) (p : Part) (q : Queue) (h : CmdHdr) (k : FrontCmd) (s : State), frontCmd i = some (p, q, h, k) →
    let x := partOf s p.val
    let u := cmdTaken s p.val q.val false
    let c := cmdCur u p q h
    let gives (t : State) : Prop := exec i s = .next (cmdEnd k t)
    let ends (st : Nat) : Prop := gives (complete c st 0 u)
    let waits : Prop := gives (modSq p.val q.val (fun y => { y with cqWait := false }) s)
    (coreRuns s = true → unlogged s = true → s.pwr.entering = none → padFree s (cqOf x q.val).base.toNat = true → cqRoom x q.val = false →
      gives (modSq p.val q.val (fun y => { y with cqWait := true }) s)) ∧
    (frontReady s p.val q.val = true →
      if x.fenced then ends stFenced
      else if h.epv = false ∧ h.epoch ≠ 0 then gives (violate 2 (complete c stBad 0 u))
      else if h.fence = true ∧ (sqOf x q.val).outstanding ≠ 0 then waits
      else if h.epv = true ∧ s.ep.phase = 0 then ends (if s.ep.limit then stStale else stBad)
      else if h.epv = true ∧ h.epoch = s.ep.epoch + 1 then waits
      else if h.epv = true ∧ h.epoch ≠ s.ep.epoch then ends stStale
      else if onSequencer k ∧ x.seq = .noImage then ends stBad
      else if onSequencer k ∧ x.seq ≠ .dispatch then waits
      else if !onSequencer k ∧ (s.job.admitting.isSome = true ∨ s.job.teardown.isSome = true ∨ s.exp.restoring.isSome = true) then waits
      else if adminCmd k ∧ x.admin = false then ends stBad
      else if (cmdAddrs k).all (fun a => padFree s a.toNat) = false then waits
      else gives (runCmd c h k u) ∧ (k = .nop → ends stOk))

/-- O30. The expiry of the coalescing timer of a completion queue sends the queue's message when completions wait for it, clears their count, and otherwise changes nothing. A NOP that completes on an enabled completion queue answers a next state in which the queue's reserved count has returned to what it was, the tail has moved by one entry modulo the queue's size, PHASE has turned exactly where the tail wrapped, and memory holds at BASE + 16 x tail the 16 bytes of CID, STATUS, PHASE, SQ, SQ_HEAD and RESULT 0; STATUS is OK, or FIDELITY where a fidelity unit is lost and the partition is bound to the job. Every byte outside these 16 stands. -/
def Obligations.CompletionEntry : Prop :=
  (∀ (p : Part) (q : Queue) (s : State), coreUp s = true →
    exec (.coalTimerExpiry p q) s = .next (if (cqOf (partOf s p.val) q.val).since = 0 then s
      else sendVec (5 * p.val + q.val) (modCq p.val q.val (fun y => { y with since := 0 }) s))) ∧
  ∀ (p : Part) (q : Queue) (h : CmdHdr) (s : State), cmdStarts s p.val q.val h .nop = true → MemCanonical s →
    let x := partOf s p.val
    let k := cqOf x q.val
    let a := k.base.toNat + 16 * k.tail
    let st := if s.ep.fid && x.bound && x.tag == s.job.tag then stFidelity else stOk
    plainWrite s a 16 = true →
    ∃ t, exec (.nop p q h) s = .next t ∧
      (cqOf (partOf t p.val) q.val).reserved = k.reserved ∧
      (cqOf (partOf t p.val) q.val).tail = (if k.tail + 1 = k.sizeM1 + 1 then 0 else k.tail + 1) ∧
      (cqOf (partOf t p.val) q.val).phase = (if k.tail + 1 = k.sizeM1 + 1 then !k.phase else k.phase) ∧
      (∀ j, j < 16 → uget t.mem (a + j) = BitVec.ofNat 8 ((h.cid % 65536 + st * 2 ^ 16 + (if k.phase then 2 ^ 24 else 0) + q.val * 2 ^ 25 +
        (sqOf x q.val).head % 65536 * 2 ^ 32) / 256 ^ j)) ∧
      sameMemBut a 16 s t

/-- O31. Where the command may start: BIND of a bound partition or with TAG 0 completes BAD_COMMAND; else the partition is bound to TAG with GEN one higher modulo 16 and its operation and collective numbers from 0, the block's quiet state ends, and it completes OK. UNBIND completes BAD_COMMAND while an epoch is open and the partition is the step partition or owns coded regions; else the partition is unbound and unfenced and it completes OK; where it is the step partition, the job, its fidelity event and the note of a last epoch end with it. PCFG of a mask with cores 12 to 15 in a grade B part, or without a core that the chervil slot table gives the partition, completes BAD_COMMAND; else a bound partition keeps the mask for the next commit and an unbound one takes it at once. Frame: program state, other partitions and memory stand until the completion entry is written. -/
def Obligations.BindingCommands : Prop :=
  ∀ (p : Part) (q : Queue) (h : CmdHdr) (s : State),
    let x := partOf s p.val
    let u := cmdTaken s p.val q.val false
    let c := cmdCur u p q h
    let bad (i : Instr) : Prop := exec i s = .next (complete c stBad 0 u)
    let gives (i : Instr) (y : PartSt) : Prop := ∃ t, exec i s = .next (complete c stOk 0 t) ∧ partOf t p.val = y ∧
      (∀ k, k ≠ p.val → partOf t k = partOf s k) ∧ t.mem = s.mem
    let y := partOf u p.val
    sameProgram x y ∧
    (∀ tag, cmdStarts s p.val q.val h (.bind tag) = true →
      (x.bound = true ∨ tag = 0 → bad (.bind p q h tag)) ∧
      (x.bound = false → tag ≠ 0 → gives (.bind p q h tag) { y with bound := true, tag := tag, gen := (x.gen + 1) % 16, opseq := [] } ∧
        ∃ t, exec (.bind p q h tag) s = .next (complete c stOk 0 t) ∧ t.pwr.quiet = false ∧ ∀ a, a < 16 → SMap.look 0 t.coll.seq (p.val * 16 + a) = 0)) ∧
    (cmdStarts s p.val q.val h .unbind = true →
      (s.ep.phase ≠ 0 → s.job.stepPart = some p ∨ ownsCoded s p.val = true → bad (.unbind p q h)) ∧
      (s.ep.phase = 0 ∨ ownsCoded s p.val = false → s.job.stepPart ≠ some p →
        gives (.unbind p q h) { y with bound := false, fenced := false }) ∧
      (s.ep.phase = 0 → s.job.stepPart = some p → gives (.unbind p q h) { y with bound := false, fenced := false } ∧
        ∃ t, exec (.unbind p q h) s = .next (complete c stOk 0 t) ∧ t.fid = {} ∧ t.ep = { s.ep with fid := false, limit := false } ∧
          t.job = { inc := s.job.inc } ∧ t.cod.out = [] ∧ t.reb.runs = [])) ∧
    (∀ m : BitVec 16, cmdStarts s p.val q.val h (.pcfg m.toNat) = true →
      let need := if s.mode.chervil then (s.mode.table.map fun t => tableCores t p.val).getD 0 else 0
      ((s.fuse.grade = .b ∧ 4096 ≤ m.toNat) ∨ need &&& m.toNat ≠ need → bad (.pcfg p q h m)) ∧
      (¬ (s.fuse.grade = .b ∧ 4096 ≤ m.toNat) → need &&& m.toNat = need →
        gives (.pcfg p q h m) (if x.bound then { y with coreMaskNext := some m.toNat } else { y with coreMask := m.toNat, coreMaskNext := none })))

/-- O32. Where the command may start: CALL of an entry from 3 to 63 that the image has leaves the sequencer in RUN at that entry with the command current, its six arguments in g24 to g29 and its command word in g30; every other general register, the predicates, descriptors and memory stand. CALL of any other entry completes BAD_COMMAND and leaves its queue as the one served last. INSTR with a malformed word completes BAD_COMMAND and counts a breach of contract 2, one of an instruction of class 0, 1 or 10 completes BAD_COMMAND, and one whose predicate does not hold completes OK; any other is carried out with the sequencer in RUN and the command current. -/
def Obligations.SequencerCommands : Prop :=
  ∀ (p : Part) (q : Queue) (h : CmdHdr) (s : State),
    let u := cmdTaken s p.val q.val false
    let c := cmdCur u p q h
    let x := partOf u p.val
    (∀ (e : Nat) (a : Args), cmdStarts s p.val q.val h (.call e a) = true →
      (∀ m pc, (partOf s p.val).image = some m → 3 ≤ e → e < 64 → entryOf m e = some pc → ∃ t, exec (.call p q h e a) s = .next t ∧
        (partOf t p.val).pc = pc ∧ (partOf t p.val).seq = .run ∧ (partOf t p.val).wait = none ∧ (partOf t p.val).cur = some c ∧
        gReg (partOf t p.val) 24 = a.a0 ∧ gReg (partOf t p.val) 25 = a.a1 ∧ gReg (partOf t p.val) 26 = a.a2 ∧
        gReg (partOf t p.val) 27 = a.a3 ∧ gReg (partOf t p.val) 28 = a.a4 ∧ gReg (partOf t p.val) 29 = a.a5 ∧
        gReg (partOf t p.val) 30 = cmdWord h (.call e a) ∧ (∀ n, n < 24 ∨ 30 < n → gReg (partOf t p.val) n = gReg (partOf s p.val) n) ∧
        (partOf t p.val).pr = (partOf s p.val).pr ∧ (partOf t p.val).d = (partOf s p.val).d ∧
        (∀ k, k ≠ p.val → partOf t k = partOf s k) ∧ t.mem = s.mem) ∧
      (((partOf s p.val).image.bind fun m => if e < 3 ∨ 64 ≤ e then none else entryOf m e) = none →
        exec (.call p q h e a) s = .next (complete c stBad 0 (modPart p.val (fun y => { y with lastQ := q.val }) u)))) ∧
    (∀ w1 w2 : Word, cmdStarts s p.val q.val h (.instr w1 w2) = true →
      let v := modPart p.val (fun y => { y with cur := some { c with instr := true }, lastQ := q.val }) u
      let now := noteCommand p.val
      if insnOk (ninAt x) w1 w2 = false then exec (.instrCmd p q h w1 w2) s = .next (settle (now (endCommand p.val stBad 0 (violate 2 v))))
      else if wCls w1 = 0 ∨ wCls w1 = 1 ∨ wCls w1 = 10 then exec (.instrCmd p q h w1 w2) s = .next (settle (now (endCommand p.val stBad 0 v)))
      else if pReg x (fmtROf w1).pred.val = (fmtROf w1).pneg then exec (.instrCmd p q h w1 w2) s = .next (settle (now (endCommand p.val stOk 0 v)))
      else ∃ t, exec (.instrCmd p q h w1 w2) s = .next (settle (now (insnOp p.val w1 w2 t))) ∧ (partOf t p.val).seq = .run ∧
        (partOf t p.val).cur = some { c with instr := true } ∧ (partOf t p.val).g = x.g ∧ (partOf t p.val).d = x.d ∧ t.mem = s.mem)

/-- O33. Where the command may start: LOAD from any tier but T1 and T3 completes BAD_COMMAND. LOAD of words that read without error stages the image that they form, sets EPEND.STAGED, and completes OK with the image's identity as RESULT; with no epoch open the image is activated at once; words that form no image leave nothing staged and the active image as it is, set the cause of the refusal and complete BAD_COMMAND. SLOTTAB of 8 KiB in one of the block's own areas, or that read without error and fail a check of the table, completes BAD_COMMAND; else the table is taken at once while nothing is bound, and kept for the next commit while something is (R350; EpochWaves says that the commit takes it). That LOAD takes no other tier is the model's reading (log 81). No byte of memory changes before the completion entry of a SLOTTAB or of a refused LOAD. -/
def Obligations.LoadCommands : Prop :=
  ∀ (p : Part) (q : Queue) (h : CmdHdr) (a : Word) (s : State),
    let u := cmdTaken s p.val q.val false
    let c := cmdCur u p q h
    let n := bitsOf 0 14 (ofBytes (denseU 8 0 (memImg a.toNat 8 s))) + 1
    let image := parseImage s.mode.compat (wordsOfBytes (denseU (8 * n) 0 (memImg a.toNat (8 * n) s)))
    let table := denseU 8192 0 (memImg a.toNat 8192 s)
    (cmdStarts s p.val q.val h (.load a) = true →
      (tierOf a.toNat ≠ 1 → tierOf a.toNat ≠ 3 → exec (.load p q h a) s = .next (complete c stBad 0 u)) ∧
      (tierOf a.toNat = 1 ∨ tierOf a.toNat = 3 → cleanRead s a.toNat 8 = true → cleanRead s a.toNat (8 * n) = true →
        (∀ m, image = .inr m → ∃ t, exec (.load p q h a) s = .next (complete c stOk m.id t) ∧
          (s.ep.phase ≠ 0 → (partOf t p.val).staged = some m ∧ (partOf t p.val).epend.testBit evStaged = true) ∧
          (s.ep.phase = 0 → (partOf s p.val).long = none → (partOf t p.val).image = some m ∧ (partOf t p.val).staged = none)) ∧
        (∀ e, image = .inl e → ∃ t, exec (.load p q h a) s = .next (complete c stBad 0 t) ∧ t.mem = s.mem ∧
          (partOf t p.val).imgRefused = true ∧ (partOf t p.val).imgCause = e ∧ (partOf t p.val).staged = none ∧ (partOf t p.val).image = (partOf s p.val).image))) ∧
    (cmdStarts s p.val q.val h (.slottab a) = true → inBlockArea a.toNat 8192 = true → exec (.slottab p q h a) s = .next (complete c stBad 0 u)) ∧
    (cmdStarts s p.val q.val h (.slottab a) = true → inBlockArea a.toNat 8192 = false → cleanRead s a.toNat 8192 = true →
      (slotTableOk s table = false → exec (.slottab p q h a) s = .next (complete c stBad 0 u)) ∧
      (slotTableOk s table = true → ∃ t, exec (.slottab p q h a) s = .next (complete c stOk 0 t) ∧ t.mem = s.mem ∧ t.part = u.part ∧
        (anyBound s = true → t.mode = { s.mode with tableNext := some table }) ∧
        (anyBound s = false → t.mode = { s.mode with table := some table, tableNext := none, tableCrc := crc32c table })))

/-- O34. Where the command may start: EXPORT that is not sent with EPV, not on the step partition, or while an export is armed or draining completes BAD_COMMAND with nothing armed. EXPORT that its checks take completes OK with the export armed for the command's epoch. EXPORT_CANCEL fails an armed or draining export with cause 1 and completes OK; with no export it changes nothing but its completion. RESTORE with an epoch open, or with an entry count of 0 or above 16384, completes BAD_COMMAND with nothing restored; any other that its checks end completes with the status of its checks, and one that they take runs, with the entries of its map still to come, and no byte of memory or partition changed yet (the model's choice, log 179). -/
def Obligations.ExportCommands : Prop :=
  ∀ (p : Part) (q : Queue) (h : CmdHdr) (s : State),
    let u := cmdTaken s p.val q.val false
    let c := cmdCur u p q h
    (∀ b : ExportBody, cmdStarts s p.val q.val h (.exportCut b) = true →
      (h.epv = false ∨ isStepPart s p.val = false ∨ s.exp.state = 1 ∨ s.exp.state = 2 → exec (.exportCut p q h b) s = .next (complete c stBad 0 u)) ∧
      ((exportIssue p.val h.epv h.epoch b u).2 = stOk → ∃ t, exec (.exportCut p q h b) s = .next (complete c stOk 0 t) ∧
        t.exp.state = 1 ∧ t.exp.epoch = h.epoch ∧ t.exp.area = b.area ∧ t.exp.areaSize = b.areaSize ∧ t.exp.wide = b.wide ∧
        t.exp.stream = b.stream ∧ t.exp.part = p ∧ t.exp.shards = [] ∧ t.part = u.part)) ∧
    (cmdStarts s p.val q.val h .exportCancel = true →
      (s.exp.state = 0 ∨ s.exp.state = 3 ∨ s.exp.state = 4 → exec (.exportCancel p q h) s = .next (complete c stOk 0 u)) ∧
      (s.exp.state = 1 ∨ s.exp.state = 2 → exec (.exportCancel p q h) s = .next (complete c stOk 0 (exportFail 1 u)))) ∧
    (∀ b : RestoreBody, cmdStarts s p.val q.val h (.restore b) = true →
      (s.ep.phase ≠ 0 ∨ b.entries = 0 ∨ 16384 < b.entries → exec (.restore p q h b) s = .next (settle (complete c stBad 0 u))) ∧
      (∀ st, (restoreNow c b u).2 = some st → exec (.restore p q h b) s = .next (settle (complete c st 0 (restoreNow c b u).1))) ∧
      ((restoreNow c b u).2 = none → ∃ t x, exec (.restore p q h b) s = .next (settle t) ∧ t.exp.restoring = some x ∧ x.cur = c ∧
        x.verify = b.verify ∧ x.left.length = b.entries ∧ x.regions = x.left.map (·.region) ∧ t.part = u.part ∧ t.mem = s.mem))

/-- O35. Where the command may start: ADMIT with an epoch open, on an unbound partition, with N0 0 or 0xFFFFFFFF, with COMPAT other than the block's, with a bitmap outside T1 and T3, or while an export drains (spec/14) completes BAD_COMMAND; that a bitmap in another tier does is the model's reading (log 81). Any other ADMIT whose bitmap reads without error, names this block's rank and finds the local checks met is carried out: its tag, its partition as the step partition, the members of the bitmap and an incarnation one above keep word 0 become the job's, keep word 0 takes that incarnation, epoch N0 - 1 opens in phase 6, every position of an enabled slot is live, QUIET stands, and the admission stands open until the exchange with the other members ends it. ADMIT_TIMEOUT with an admission under way completes that ADMIT with PEER_FAILED and its incarnation as RESULT, drops what the exchange brought and leaves no epoch open; with none it changes nothing. TEARDOWN with no epoch open, on an unbound partition, or of a tag that is not the job's (the model's choice, log 78) completes BAD_COMMAND; any other is taken and flushes every partition bound to the tag before the job ends. Where those partitions have no command, no long instruction, no wait and no queued entry, and no collective is open, TEARDOWN completes OK at once: the phase is 0, the step record, the runs and the peers are dropped, the block is quiet, and later waves of the tag are ignored. -/
def Obligations.AdmissionAndTeardown : Prop :=
  ∀ (p : Part) (q : Queue) (h : CmdHdr) (s : State),
    let x := partOf s p.val
    let u := cmdTaken s p.val q.val false
    let c := cmdCur u p q h
    (∀ (compat : Bool) (n0 : Nat) (a : Word), cmdStarts s p.val q.val h (.admission compat n0 a) = true →
      let refused := s.ep.phase ≠ 0 ∨ x.bound = false ∨ n0 = 0 ∨ n0 = 0xFFFFFFFF ∨ compat ≠ s.mode.compat ∨ (tierOf a.toNat ≠ 1 ∧ tierOf a.toNat ≠ 3) ∨ s.exp.state = 2
      let members := bitmapRanks (memImg a.toNat 16384 s)
      let inc := ((keepNow s 0).toNat + 1) % 2 ^ 32
      (refused → exec (.admitJob p q h compat n0 a) s = .next (settle (complete c stBad 0 u))) ∧
      (¬ refused → cleanRead s a.toNat 16384 = true → members.contains (servedRank u) = true → admitLocalOk u x.tag = true →
        ∃ t, exec (.admitJob p q h compat n0 a) s = .next (settle (exchangeStep t)) ∧
          t.job.admitting = some c ∧ t.job.tag = x.tag ∧ t.job.stepPart = some p ∧ t.job.members = members ∧ t.job.inc = inc ∧ t.job.exchanged = false ∧
          ((s.keep.busy = none → s.keep.queue = []) → keepNow t 0 = BitVec.ofNat 64 inc) ∧ t.ep.epoch = n0 - 1 ∧ t.ep.phase = 6 ∧ t.ep.attempt = 0 ∧ t.pwr.quiet = s.pwr.quiet ∧
          t.pwr.torndown = s.pwr.torndown.filter (· != x.tag) ∧ t.cod.out = [] ∧ t.reb.runs = [] ∧
          (∀ sl ∈ slotsOn s, ∀ j, j < gTotal (grpOf s sl) → posLive (grpOf t sl) j = true))) ∧
    (s.job.admitting = none → exec .admitTimeout s = .next s) ∧
    (coreUp s = true → ∀ d, s.job.admitting = some d → ∃ t, exec .admitTimeout s = .next (settle (wakeAll (complete d stPeerFailed (BitVec.ofNat 64 s.job.inc) t))) ∧
      t.job = { s.job with admitting := none, exchanged := false, peers := [], dir := [] } ∧ t.ep.phase = 0 ∧ t.ep.epoch = s.ep.epoch ∧
      t.cod.out = [] ∧ t.cod.deltas = [] ∧ t.cod.batches = []) ∧
    (cmdStarts s p.val q.val h .teardown = true →
      (s.ep.phase = 0 ∨ x.bound = false ∨ x.tag ≠ s.job.tag → exec (.teardown p q h) s = .next (settle (complete c stBad 0 u))) ∧
      (s.ep.phase ≠ 0 → x.bound = true → x.tag = s.job.tag →
        (∃ t, exec (.teardown p q h) s = .next (settle (teardownStep (forAll (boundTo u x.tag) flushPart t))) ∧
          t.job = { s.job with teardown := some c } ∧ t.part = u.part ∧ { t with job := s.job, part := s.part } = s) ∧
        (s.coll.openC = [] → (∀ k ∈ boundTo s x.tag, let y := partOf s k
            y.flushing = false ∧ y.resetting = false ∧ y.cur = none ∧ y.long = none ∧ y.wait = none ∧ (y.sq.all fun k => k.2.head == k.2.tail && k.2.flushTo.isNone) = true) →
          ∃ t, exec (.teardown p q h) s = .next (settle (complete c stOk 0 t)) ∧ t.ep.phase = 0 ∧ t.job.teardown = none ∧ t.job.peers = [] ∧
            t.upd.stepRec = [] ∧ t.reb.runs = [] ∧ t.cod.out = [] ∧ t.pwr.quiet = true ∧ t.pwr.torndown = x.tag :: s.pwr.torndown)))

/-- O36. While the core runs, no log is written and no power state is entered, and the memory of the queue and of its completion queue can be reached, COMMAND_FETCH of a queue with no entry changes nothing but what the block settles; with no room in its completion queue it sets CQ_WAIT. Where the 64 bytes at BASE + 64 x HEAD read without error, their command is taken as its entry says, and HEAD moves past it when it is taken; but a CALL or INSTR that may start waits for its turn while the sequencer would serve another queue next (servedNext, R371), and then nothing changes but what the block settles. -/
def Obligations.CommandFetchTakesTheHead : Prop :=
  ∀ (p : Part) (q : Queue) (s : State), coreRuns s = true → unlogged s = true → s.pwr.entering = none →
    let x := partOf s p.val
    let k := sqOf x q.val
    (sqHas x q.val = false → exec (.commandFetch p q) s = .next (settle s)) ∧
    (sqHas x q.val = true → padFree s k.base.toNat = true → padFree s (cqOf x q.val).base.toNat = true → (x.flushing = true → k.flushTo.isSome = true) →
      (cqRoom x q.val = false → exec (.commandFetch p q) s = .next (settle (modSq p.val q.val (fun y => { y with cqWait := true }) s))) ∧
      (cqRoom x q.val = true → cleanRead s (k.base.toNat + 64 * k.head) 64 = true →
        let e := sqEntry s p.val q.val
        let turn := (forced x q.val true).isSome ∨ onSequencer e.2 = false ∨ startGate s p.val q.val e.1 e.2 ≠ .start ∨ servedNext s p.val = some q.val
        (¬ turn → exec (.commandFetch p q) s = .next (settle s)) ∧
        (turn → exec (.commandFetch p q) s = .next (settle (takeCmd p q true e.1 e.2 (memBytes (k.base.toNat + 64 * k.head) 64 s) s))) ∧
        (sqOf (partOf (cmdTaken s p.val q.val true) p.val) q.val).head = (if k.head = k.sizeM1 then 0 else k.head + 1)))

/-- O37. For every command that is a write by the control port, except one of the record unit: where the port does not answer (PWR_GOOD low, OFF, or no REFCLK_AO) or READY is clear, the command answers the same state; where the port is open and a replay is active, it answers the state with the count of discarded live inputs one higher, saturating, and nothing else changed. -/
def Obligations.ControlPortClosed : Prop :=
  ∀ (i : Instr) (s : State), portWrite i = true →
    (portsUp s = false ∨ s.clk.ready = false → exec i s = .next s) ∧
    (portsUp s = true → s.clk.ready = true → replaying s = true → ∃ t, exec i s = .next t ∧
      fld 16 16 t.rcd.stat = min (fld 16 16 s.rcd.stat + 1) 0xFFFF ∧ { t with rcd := { t.rcd with stat := s.rcd.stat } } = s)

/-- O38. Where the control port takes writes. SQ_DOORBELL of a disabled queue changes no queue; a tail beyond SIZE_M1 changes no queue and counts a breach of contract 8, and so does a head (the model's choice, log 78); any other becomes the queue's tail. CQ_HEAD_DOORBELL likewise for the head of a completion queue, and an entry that a disabled queue still owes then completes FLUSHED where there is room. QUEUE_ENABLE with EN set on a disabled submission queue whose base is 4 KiB-aligned in T1 or T3 sets EN, SIZE_M1 and head and tail 0; with EN set on an enabled one it changes nothing; with EN clear on an enabled one it clears EN, moves the head to the tail, and the entries between them complete FLUSHED at once, as far as the completion queue has room and no pad group that they need is held, the others as it gets room and the pads are released. On a disabled completion queue it also sets PHASE to 1. VEC_UNMASK writes MASK and ENTRY, and sends the pending message when MASK is clear and HOST is not held (log 18). Frame: no other queue of the partition, no other partition, no other vector and no byte of memory changes; waits that have ended go on after a write of a submission queue. -/
def Obligations.QueueRegisterWrites : Prop :=
  ∀ (s : State), ctlReady s = true → let u := ctlSeen s
    (∀ (p : Part) (q : Queue),
      let x := partOf s p.val
      let k := sqOf x q.val
      let c := cqOf x q.val
      let rings (i : Instr) (k' : Sq) : Prop := ∃ t, exec i s = .next (wakeAll t) ∧ sqOf (partOf t p.val) q.val = k' ∧
        (∀ j, j ≠ q.val → sqOf (partOf t p.val) j = sqOf x j) ∧ (partOf t p.val).cq = x.cq ∧
        (∀ n, n ≠ p.val → partOf t n = partOf s n) ∧ t.mem = s.mem ∧ t.viol = s.viol
      let heads (i : Instr) (c' : Cq) : Prop := ∃ t, exec i s = .next t ∧ onlyPart p.val u t ∧ cqOf (partOf t p.val) q.val = c' ∧
        (∀ j, j ≠ q.val → cqOf (partOf t p.val) j = cqOf x j) ∧ { partOf t p.val with cq := x.cq } = x
      (∀ tail, (k.en = false → exec (.sqDoorbell p q tail) s = .next (wakeAll u)) ∧
        (k.en = true → k.sizeM1 < tail → exec (.sqDoorbell p q tail) s = .next (wakeAll (violate 8 u))) ∧
        (k.en = true → tail ≤ k.sizeM1 → rings (.sqDoorbell p q tail) { k with tail := tail })) ∧
      (∀ head, (c.en = false → exec (.cqHeadDoorbell p q head) s = .next u) ∧
        (c.en = true → c.sizeM1 < head → exec (.cqHeadDoorbell p q head) s = .next (violate 8 u)) ∧
        (c.en = true → head ≤ c.sizeM1 → k.owed = [] → heads (.cqHeadDoorbell p q head) { c with head := head }) ∧
        (∀ e, c.en = true → head ≤ c.sizeM1 → k.owed = [e] → e.2.2 = none → padFree s c.base.toNat = true → cqRoom { x with cq := SMap.put x.cq q.val { c with head := head } } q.val = true →
          ∃ t, exec (.cqHeadDoorbell p q head) s = .next (complete { p := p, q := q, cid := e.1, sqHead := e.2.1, instr := false, cqGen := c.gen } stFlushed 0 t) ∧
            onlyPart p.val u t ∧ (cqOf (partOf t p.val) q.val).head = head ∧ (sqOf (partOf t p.val) q.val).owed = [])) ∧
      (∀ v, let based (b : Word) : Prop := (fld 62 2 b = 1 ∨ fld 62 2 b = 3) ∧ fld 0 12 b = 0
        (k.en = false → bit 63 v = true → based k.base →
          rings (.queueEnable p q false .full v) { k with en := true, sizeM1 := fld 0 16 v, head := 0, tail := 0, flushTo := none, fenceTo := none, lostTo := none }) ∧
        (k.en = true → bit 63 v = true → exec (.queueEnable p q false .full v) s = .next (wakeAll u)) ∧
        (k.en = true → bit 63 v = false →
          let held := heldEntries u p.val q.val
          let k' := { k with en := false, head := k.tail, flushTo := none, fenceTo := none, lostTo := none, owed := k.owed ++ held }
          (k.owed ++ held = [] → rings (.queueEnable p q false .full v) k') ∧
          (padFree s c.base.toNat = false → rings (.queueEnable p q false .full v) k') ∧
          (cqRoom x q.val = false → padFree s c.base.toNat = true → (∀ e ∈ k'.owed, e.2.2 = none) → rings (.queueEnable p q false .full v) { k' with cqWait := if k'.owed = [] then k.cqWait else true }) ∧
          (∀ e, k.owed ++ held = [e] → e.2.2 = none → padFree s c.base.toNat = true → cqRoom x q.val = true → ∃ t, exec (.queueEnable p q false .full v) s = .next (wakeAll
            (complete { p := p, q := q, cid := e.1, sqHead := e.2.1, instr := false, cqGen := c.gen } stFlushed 0 t)) ∧
            onlyPart p.val u t ∧ sqOf (partOf t p.val) q.val = { k' with owed := [], outstanding := k.outstanding + 1, cqWait := false })) ∧
        (c.en = false → bit 63 v = true → based c.base → heads (.queueEnable p q true .full v)
          { c with en := true, sizeM1 := fld 0 16 v, coalUs := fld 48 10 v, coalCnt := fld 40 8 v, head := 0, tail := 0, phase := true, reserved := 0, since := 0 }) ∧
        (c.en = true → bit 63 v = false → ∃ t, exec (.queueEnable p q true .full v) s = .next t ∧ onlyPart p.val u t ∧
          (cqOf (partOf t p.val) q.val).en = false ∧ (cqOf (partOf t p.val) q.val).reserved = 0 ∧
          (sqOf (partOf t p.val) q.val).owed = []))) ∧
    (∀ (n : Fin 96) (a : Acc) (v : Word),
      let x := vecOf s n.val
      let m := match a with
        | .low => x.mask
        | .high => bit 30 v
        | .full => bit 62 v
      let e := match a with
        | .high => x.entry % 2048
        | _ => fld 0 11 v
      ∃ t, exec (.vecUnmask n a v) s = .next t ∧ { t with msg := u.msg } = u ∧ (∀ j, j ≠ n.val → vecOf t j = vecOf s j) ∧ t.msg.cause = s.msg.cause ∧
        vecOf t n.val = { entry := e, mask := m, pend := x.pend && (m || hostHeld s) } ∧
        t.msg.sent = if x.pend = true ∧ m = false ∧ hostHeld s = false then e :: s.msg.sent else s.msg.sent)

/-- O39. Where the control port takes writes. UNFENCE clears FENCED of its partition and changes nothing else. FLUSH of a partition that flushes or is being reset changes nothing but what the block settles. FLUSH of another, with no long instruction and no collective that has not started, records the tail of every enabled submission queue that holds entries and reads FLUSHING while such an entry or a current command is left; a program that waits in TWAIT, SWAIT, EWAIT or WAITEP (no INSTR) goes on with ST FLUSHED. RESET of an unbound partition with nothing in progress (and no RESTORE of its own) gives it the registers, predicates, descriptors, slots, events, timers and detectors of the partition reset, disarms its prefetch schedule, and starts its image at entry 0, or leaves it in DISPATCH or NOIMAGE. Frame: no other partition and no byte of memory changes before the block settles. -/
def Obligations.PartitionControl : Prop :=
  ∀ (p : Part) (s : State), ctlReady s = true →
    let u := ctlSeen s
    let x := partOf s p.val
    let tails := x.sq.map fun q => (q.1, if q.2.en && q.2.head != q.2.tail then { q.2 with flushTo := some q.2.tail } else q.2)
    let owes := tails.any fun q => q.2.flushTo.isSome
    let noColl := (s.coll.openC.all fun c => c.part != p.val || c.started) = true
    (∃ t, exec (.unfence p) s = .next t ∧ onlyPart p.val u t ∧ partOf t p.val = { x with fenced := false }) ∧
    (x.flushing = true ∨ x.resetting = true → exec (.flush p) s = .next (settle u)) ∧
    (x.flushing = false → x.resetting = false → x.long = none → noColl →
      (x.wait = none → ∃ t, exec (.flush p) s = .next (settle t) ∧ onlyPart p.val u t ∧
        partOf t p.val = { x with sq := tails, flushing := x.cur.isSome || owes }) ∧
      ((∃ n, x.wait = some (.tally n)) ∨ (∃ n, x.wait = some (.slot n)) ∨ (∃ m, x.wait = some (.event m)) ∨ (∃ e h, x.wait = some (.epoch e h)) →
        isInstr x = false → ∃ t, exec (.flush p) s = .next (settle t) ∧ onlyPart p.val u t ∧
        partOf t p.val = { atPc x (x.pc + 1) with st := stFlushed, sq := tails, flushing := x.cur.isSome || owes })) ∧
    (x.bound = false → x.long = none → x.susp = none → x.cur = none → x.ops = [] → (s.coll.openC.all fun c => c.part != p.val) = true →
      (∀ r, s.exp.restoring = some r → r.cur.p ≠ p) → ∃ t, exec (.reset p) s = .next (settle t) ∧ (∀ k, k ≠ p.val → partOf t k = partOf s k) ∧ t.mem = s.mem ∧
        let y := partOf t p.val
        y.g = [] ∧ y.pr = 1 ∧ y.d = [] ∧ y.st = 0 ∧ y.epend = 0 ∧ y.emask = 0 ∧ y.eie = false ∧ y.eret = 0 ∧ y.slots = [] ∧
        y.timer = [] ∧ y.edge = [] ∧ y.wait = none ∧ y.progress = {} ∧ y.staged = none ∧ y.laneFlags = 0 ∧ y.pf.armed = false ∧
        y.flushing = false ∧ y.resetting = false ∧ y.image = x.image ∧ y.sq = tails ∧ y.cq = x.cq ∧ y.mwin = x.mwin ∧
        (x.image = none → y.seq = .noImage) ∧
        (∀ m, x.image = some m → (entryOf m 0 = none → y.seq = .dispatch) ∧ (∀ pc, entryOf m 0 = some pc → y.seq = .run ∧ y.pc = pc)))

/-- O40. Where the control port takes writes. REGION_READ puts INDEX and the four words of its entry into TKJ_REGION_ENT and changes nothing else. REGION_WRITE of an entry that breaks no condition makes it the entry of that index and changes no other entry. One that breaks a condition leaves the whole table, sets REFUSED with the lowest cause that applies, and counts the refusal, saturating. A write onto a valid entry whose owner is bound is always refused with cause 1: the entries of a bound partition are frozen. No other part of the state and no byte of memory changes. -/
def Obligations.RegionTable : Prop :=
  ∀ (ix : Fin 16384) (s : State), ctlReady s = true →
    let u := ctlSeen s
    let r := writtenRegion s
    (∃ t, exec (.regionRead ix) s = .next t ∧ { t with reg := u.reg } = u ∧ t.reg.table = s.reg.table ∧ t.reg.index = ix.val ∧
      ∀ k, k < 4 → SMap.look 0 t.reg.ent k = (regionWords (regionOf s ix.val)).getD k 0) ∧
    ((∀ c, c < 11 → c ≠ 0 → regionBreaks u ix.val r c = false) →
      ∃ t, exec (.regionWrite ix) s = .next t ∧ { t with reg := u.reg } = u ∧ regionOf t ix.val = r ∧ t.reg.index = ix.val ∧
        (∀ k, k ≠ ix.val → regionOf t k = regionOf s k) ∧ t.reg.refused = s.reg.refused) ∧
    (∀ c, c < 11 → c ≠ 0 → regionBreaks u ix.val r c = true → (∀ b, b < c → b ≠ 0 → regionBreaks u ix.val r b = false) →
      ∃ t, exec (.regionWrite ix) s = .next t ∧ { t with reg := u.reg } = u ∧ t.reg.table = s.reg.table ∧ t.reg.refused = true ∧ t.reg.cause = c ∧
        t.reg.refuseCnt = min (s.reg.refuseCnt + 1) 0xFFFFFFFF) ∧
    ((regionOf s ix.val).valid = true → (partOf s (regionOf s ix.val).owner).bound = true →
      ∃ t, exec (.regionWrite ix) s = .next t ∧ t.reg.table = s.reg.table ∧ t.reg.refused = true ∧ t.reg.cause = 1)

/-- O41. Where the control port takes writes. While any partition is bound, GROUP_WRITE changes no field of any slot but BAD_GEOM, which it sets with CAUSE 8, and TKJ_GSTAT.CAUSE reads 8; a register write of words +0x08 to +0x20 of any slot then changes no slot, and TKJ_GSTAT.CAUSE reads 8; the write of 1 to BAD_GEOM in word +0x38 clears it at all times. While none is bound, GROUP_WRITE that leaves EN clear takes the word, one that enables a slot which breaks a check sets BAD_GEOM with the lowest CAUSE and leaves the slot as it was, and one that breaks none takes the word. -/
def Obligations.GroupSlotWrites : Prop :=
  ∀ (g : Slot) (a : Acc) (v : Word) (s : State), ctlReady s = true →
    let u := ctlSeen s
    let x := grpOf s g.val
    let n := groupOfWord x (merge (groupWord x 0) (accMask a) (accVal a v))
    let becomes (y : Group) : Prop := ∃ t, exec (.groupWrite g a v) s = .next t ∧ { t with grp := u.grp } = u ∧ grpOf t g.val = y ∧
      ∀ k, k ≠ g.val → grpOf t k = grpOf s k
    (anyBound s = true →
      (∃ t, exec (.groupWrite g a v) s = .next t ∧ grpOf t g.val = { x with badGeom := true, cause := 8 } ∧ t.clk.gstatCause = 8 ∧
        (∀ k, k ≠ g.val → grpOf t k = grpOf s k)) ∧
      (∀ k, 1 ≤ k → k ≤ 4 → ∃ t, exec (.registerWrite (0x81000 + 0x40 * g.val + 8 * k) a v) s = .next t ∧ t.grp = s.grp ∧ t.clk.gstatCause = 8)) ∧
    (bit 63 v = true → ∃ t, exec (.registerWrite (0x81000 + 0x40 * g.val + 0x38) .full v) s = .next t ∧ grpOf t g.val = { x with badGeom := false }) ∧
    (anyBound s = false →
      (n.en = false → becomes n) ∧
      (n.en = true → (∀ c, c < 10 → groupBreaks s n c = false) → becomes n) ∧
      (n.en = true → ∀ c, c < 10 → groupBreaks s n c = true → (∀ b, b < c → groupBreaks s n b = false) → becomes { x with badGeom := true, cause := c }))

/-- O42. Where the control port takes writes. XLAT_READ gives an entry as a word; XLAT_WRITE while a partition is bound is ignored with TKJ_GSTAT.CAUSE 8, and otherwise writes that entry and no other. PAGE_READ gives a page record as a word and changes no record. CLEAR_LOST clears LOST in every record and nothing else of any record. DISARM of a schedule with no transfer in flight disarms it, and one with transfers in flight lets them arrive. RESET_READERS zeroes both reader counts of its entry. PUB_DIR_WRITE of an entry that is being written or read changes nothing; a declaration that breaks a check sets PUB_BAD and leaves the entry as it was; any other is taken. No byte of memory changes. -/
def Obligations.DirectoryRegisters : Prop :=
  ∀ (s : State), ctlReady s = true → let u := ctlSeen s
    (∀ ix : Fin 4096,
      (∃ t, exec (.xlatRead ix) s = .next t ∧ { t with fab := u.fab } = u ∧ t.fab.xlat = s.fab.xlat ∧ t.fab.xlatIndex = ix.val ∧
        t.fab.xlatEnt = xlatWord (SMap.look {} s.fab.xlat ix.val)) ∧
      (anyBound s = true → ∃ t, exec (.xlatWrite ix) s = .next t ∧ t.fab.xlat = s.fab.xlat ∧ t.clk.gstatCause = 8 ∧ t.mem = s.mem) ∧
      (anyBound s = false → ∃ t, exec (.xlatWrite ix) s = .next t ∧ t.mem = s.mem ∧ SMap.look {} t.fab.xlat ix.val =
          { valid := bit 63 s.fab.xlatEnt, retired := bit 62 s.fab.xlatEnt, coord := fld 17 17 s.fab.xlatEnt, rank := fld 0 17 s.fab.xlatEnt } ∧
        ∀ k, k ≠ ix.val → SMap.look {} t.fab.xlat k = SMap.look {} s.fab.xlat k)) ∧
    (∀ n, ∃ t, exec (.pageRead n) s = .next t ∧ { t with page := u.page } = u ∧ { t.page with sel := s.page.sel, recReg := s.page.recReg } = s.page ∧
      t.page.sel = n ∧ fld 16 16 t.page.recReg = (pageOf s n).ref % 65536 ∧ bit 15 t.page.recReg = (pageOf s n).isSealed ∧
      bit 14 t.page.recReg = (pageOf s n).retiring ∧ bit 13 t.page.recReg = (pageOf s n).lost) ∧
    (∃ t, exec .clearLost s = .next t ∧ { t with page := u.page } = u ∧ ∀ n, pageOf t n = { pageOf s n with lost := false }) ∧
    (∀ p : Part, let f := (partOf s p.val).pf
      (f.entries.any (·.flying) = false → ∃ t, exec (.disarm p) s = .next t ∧ onlyPart p.val u { t with tap := u.tap } ∧
        { t.tap with order := s.tap.order } = s.tap ∧
        { partOf t p.val with pf := f } = partOf s p.val ∧ (partOf t p.val).pf.armed = false ∧ (partOf t p.val).pf.stopping = false) ∧
      (f.entries.any (·.flying) = true → ∃ t, exec (.disarm p) s = .next t ∧ onlyPart p.val u { t with tap := u.tap } ∧
        partOf t p.val = { partOf s p.val with pf := { f with stopping := f.armed } })) ∧
    (∀ e : Fin 32, let x := pubOf s e.val
      (∃ t, exec (.resetReaders e) s = .next t ∧ onlyPub e.val u t ∧ pubOf t e.val = { x with readersA := 0, readersB := 0 }) ∧
      (∀ (a : Acc) (v : Word), x.writing = true ∨ x.readersA ≠ 0 ∨ x.readersB ≠ 0 → exec (.pubDirWrite e a v) s = .next u) ∧
      (∀ v : Word, x.writing = false → x.readersA = 0 → x.readersB = 0 →
        let y := if bit 55 v then { x with bad := false } else x
        let z := { y with valid := bit 63 v, kind := fld 61 2 v, pubStep := bit 60 v, hint := fld 56 2 v, format := fld 40 8 v, elems := fld 0 40 v }
        (bit 63 v = true → pubOk s z = false → ∃ t, exec (.pubDirWrite e .full v) s = .next t ∧ onlyPub e.val u t ∧ pubOf t e.val = { y with bad := true }) ∧
        (bit 63 v = false ∨ pubOk s z = true → ∃ t, exec (.pubDirWrite e .full v) s = .next t ∧ onlyPub e.val u t ∧ pubOf t e.val = z)))

/-- O43. While the block enters SLEEP, DEEP or OFF: REQ_SLEEP, REQ_DEEP and REQ_OFF change nothing; a register write of TKJ_PWR_CTL, by the control port or by the management bus, with REQ 2, 3 or 4 leaves the entry as it is (its target, its step, REQ, the power state and the pending wakes). REQ_RUN, and a register write with REQ 0, make wake source 1, the control port, pending, and leave the target, the step and the power state; REQ_RUN changes nothing outside the power control. -/
def Obligations.RequestDuringEntryIgnored : Prop :=
  ∀ (s : State) (e : PwrState), ctlReady s = true → s.pwr.entering = some e →
    let u := ctlSeen s
    let stands (t : State) : Prop := t.pwr.entering = some e ∧ t.pwr.step = s.pwr.step ∧ t.pwr.req = s.pwr.req ∧ t.pwr.state = s.pwr.state ∧
      t.pwr.pendingWake = s.pwr.pendingWake ∧ t.pwr.quiet = s.pwr.quiet
    let wakes (t : State) : Prop := t.pwr.entering = some e ∧ t.pwr.step = s.pwr.step ∧ t.pwr.state = s.pwr.state ∧
      t.pwr.pendingWake = s.pwr.pendingWake ||| 2
    exec .reqSleep s = .next u ∧ exec .reqDeep s = .next u ∧ exec .reqOff s = .next u ∧
    (∃ t, exec .reqRun s = .next t ∧ wakes t ∧ { t with pwr := u.pwr } = u) ∧
    (∀ (v : Word),
      (fld 0 3 v = 2 ∨ fld 0 3 v = 3 ∨ fld 0 3 v = 4 →
        (∃ t, exec (.registerWrite 0x10000 .low v) s = .next t ∧ stands t) ∧ (∃ t, exec (.registerWrite 0x10000 .full v) s = .next t ∧ stands t) ∧
        (sideHeld s = false → ∃ t, exec (.i2cWrite 0x10000 v) s = .next t ∧ stands t)) ∧
      (fld 0 3 v = 0 →
        (∃ t, exec (.registerWrite 0x10000 .low v) s = .next t ∧ wakes t) ∧ (∃ t, exec (.registerWrite 0x10000 .full v) s = .next t ∧ wakes t) ∧
        (sideHeld s = false → ∃ t, exec (.i2cWrite 0x10000 v) s = .next t ∧ wakes t)))

/-- O44. Where the control port takes writes, the core is up and no entry is in progress, REQ_SLEEP, REQ_DEEP and REQ_OFF: with a bound tag that has coded regions and no TEARDOWN, REFUSED is set with cause 1, the power vector is raised, and no entry starts; else the entry starts at step 1, and IDLE is left. QUIESCE at step 1 waits until the block is quiet; where it is, the request is accepted: QUIET is set, and an ARMED or DRAINING export fails with cause 7. At steps 1 to 3 with no wake pending it goes to the next step, step 2 turning all lanes off for DEEP and OFF, and all but lane 0 for SLEEP, where lane 0 of a port in service goes to the low rate; at step 4 the block enters the state and holds the pad groups of that state. With a wake pending at a step that is complete (WAKE_N low counts) the entry is abandoned: the abort point, the source and the count are recorded and the state stays. QUIESCE_TIMEOUT at step 1 refuses the request with cause 2, and nothing else that a request brings has happened; at any other time it changes nothing. With no entry QUIESCE changes nothing. That QUIESCE also completes steps 2 to 4 is the model's choice (log 98). That the export and QUIET follow at the end of step 1, where nothing can refuse the request any more, is the model's reading (log 182). -/
def Obligations.PowerStateEntry : Prop :=
  ∀ (s : State),
    (ctlReady s = true → coreUp s = true → s.pwr.entering = none →
      let asks (i : Instr) (e : PwrState) (code : Nat) : Prop :=
        (jobDepends s = true → ∃ t, exec i s = .next t ∧ t.pwr.refused = true ∧ t.pwr.cause = 1 ∧ t.pwr.req = code ∧ t.pwr.entering = none ∧
          t.pwr.state = s.pwr.state ∧ t.pwr.quiet = s.pwr.quiet ∧ t.msg.cause.testBit 2 = true ∧ t.mem = s.mem ∧ t.rcd = s.rcd ∧ t.exp = s.exp) ∧
        (jobDepends s = false → ∃ t, exec i s = .next (settle t) ∧ t.pwr.entering = some e ∧ t.pwr.step = 1 ∧ t.pwr.req = code ∧
          t.pwr.quiet = s.pwr.quiet ∧ t.pwr.state = .run ∧ t.exp = s.exp ∧ t.rcd = s.rcd ∧ t.mem = s.mem)
      asks .reqSleep .sleep 2 ∧ asks .reqDeep .deep 3 ∧ asks .reqOff .off 4) ∧
    (s.pwr.entering = none → exec .quiesce s = .next s) ∧
    (∀ e, s.pwr.entering = some e →
      (s.pwr.step = 1 → quiesced s = false → exec .quiesce s = .next s) ∧
      (s.pwr.pendingWake = 0 → s.pin.wakeLow = false →
        (s.pwr.step = 1 → quiesced s = true → ∃ t, exec .quiesce s = .next t ∧ t.pwr = { s.pwr with step := 2, quiet := true } ∧ t.tally = s.tally ∧
          (s.exp.state = 1 ∨ s.exp.state = 2 → t.exp.state = 4 ∧ t.exp.cause = 7) ∧
          (s.exp.state ≠ 1 → s.exp.state ≠ 2 → t.exp = s.exp ∧ (unlogged s = true → t.mem = s.mem))) ∧
        (s.pwr.step = 2 → ∃ t, exec .quiesce s = .next t ∧ t.pwr = { s.pwr with step := 3 } ∧ t.mem = s.mem ∧ t.tally = s.tally ∧
          (e ≠ .sleep → ∀ p, p < 8 → (portOf t p).state = .off ∧ ∀ l, l < 17 → laneOf (portOf t p) l = .off) ∧
          (e = .sleep → ∀ p, p < 8 → (portOf s p).state ≠ .off → (portOf s p).state ≠ .down → (portOf s p).laserLow = false →
            (portOf t p).state = .lowrate ∧ laneOf (portOf t p) 0 = .lowrate ∧ ∀ l, 0 < l → l < 17 → laneOf (portOf t p) l = .off)) ∧
        (s.pwr.step = 3 → exec .quiesce s = .next { s with pwr := { s.pwr with step := 4 } }) ∧
        (s.pwr.step = 4 →
          let t := { s with pwr := { s.pwr with entering := none, step := 0, state := e, padHold := s.pwr.padHold ||| padsFor e } }
          exec .quiesce s = .next (if e = .off then sideRelease t else t))) ∧
      (s.pwr.pendingWake ≠ 0 ∨ s.pin.wakeLow = true → (s.pwr.step = 1 ∧ quiesced s = true) ∨ s.pwr.step = 2 ∨ s.pwr.step = 3 ∨ s.pwr.step = 4 →
        ∃ t, exec .quiesce s = .next (settle t) ∧ t.pwr.entering = none ∧ t.pwr.step = 0 ∧ t.pwr.state = s.pwr.state ∧ t.pwr.abortPt = s.pwr.step ∧
          t.pwr.aborts = min (s.pwr.aborts + 1) 0xFFFF ∧ t.pwr.wakeSrc = s.pwr.wakeSrc ||| s.pwr.pendingWake ||| (if s.pin.wakeLow then 1 else 0) ∧
          t.pwr.pendingWake = 0 ∧ t.pwr.padHold = s.pwr.padHold ∧ t.tally = s.tally ∧
          t.msg.cause.testBit 2 = true ∧ (s.pwr.step = 1 → s.pwr.quiet = true → s.exp.state ≠ 1 → s.exp.state ≠ 2 → unlogged s = true →
            t.mem = s.mem ∧ t.port = s.port)) ∧
      (s.pwr.step = 1 → ∃ t, exec .quiesceTimeout s = .next (settle t) ∧ t.pwr.refused = true ∧ t.pwr.cause = 2 ∧ t.pwr.entering = none ∧ t.pwr.step = 0 ∧
        t.pwr.state = s.pwr.state ∧ t.pwr.quiet = s.pwr.quiet ∧ t.pwr.wakeSrc = s.pwr.wakeSrc ||| s.pwr.pendingWake ∧ t.exp = s.exp ∧ t.rcd = s.rcd ∧
        t.port = s.port ∧ t.mem = s.mem ∧ t.tally = s.tally) ∧
      (s.pwr.step ≠ 1 → exec .quiesceTimeout s = .next s)) ∧
    (s.pwr.entering = none → exec .quiesceTimeout s = .next s)

/-- O45. IDLE_ENTRY in RUN with no entry in progress enters IDLE exactly where the conditions of IDLE hold; IDLE_EXIT leaves IDLE where they no longer hold, with the time spent counted. POWER_EXIT in SLEEP or DEEP with a wake pending returns to RUN with the power vector raised; with none pending it changes nothing. WAKE_N (where no log is written): a low level shorter than two vigil cycles in SLEEP, DEEP or OFF changes only the pin; one of two cycles or more is wake source 0 in SLEEP and DEEP, where PHOTONIC is released and, at the first wake, the lanes begin to relock, starts a power-on reset from OFF with the wake recorded, is pending during an entry, and in RUN and IDLE starts no wake (IDLE may end for a program that waited for the edge). PAD_RELEASE of groups in RUN releases exactly the groups that are held and written, and in SLEEP those whose domain runs (SURR and TAP not among them). -/
def Obligations.IdleWakesAndPads : Prop :=
  ∀ (s : State),
    (coreUp s = true → s.pwr.state = .run → s.pwr.entering = none → exec .idleEntry s = .next (if idleOk s then
      { s with pwr := { s.pwr with state := .idle, idleSince := s.clk.wall } } else s)) ∧
    (idleOk s = true → exec .idleExit s = .next s) ∧
    (idleOk s = false → s.pwr.state = .idle → exec .idleExit s = .next { s with pwr := { s.pwr with
      state := .run, idleNs := min (s.pwr.idleNs + (s.clk.wall - s.pwr.idleSince)) (2 ^ 32 * 1000 - 1) } }) ∧
    (s.pwr.state = .sleep ∨ s.pwr.state = .deep →
      (s.pwr.pendingWake = 0 → exec .powerExit s = .next s) ∧
      (s.pwr.pendingWake ≠ 0 → ∃ t, exec .powerExit s = .next t ∧ t.msg.cause.testBit 2 = true ∧
        t = raiseGlobal vPower (settle { s with pwr := { s.pwr with state := .run, pendingWake := 0 } }))) ∧
    (unlogged s = true → s.clk.pwrGood = true → s.clk.refclk = true → ∀ (low : Bool) (cycles : Nat),
      (s.pwr.entering = none → s.pwr.state = .run ∨ s.pwr.state = .idle →
        ∃ t, exec (.wakeN low cycles) s = .next t ∧ (t.pwr.state = .run ∨ t.pwr.state = s.pwr.state) ∧ t.pwr.entering = none ∧ t.pwr.wakeSrc = s.pwr.wakeSrc ∧ t.pin.wakeN = !low) ∧
      (∀ e, s.pwr.entering = some e → e = .sleep ∨ e = .deep ∨ e = .off → low = true → 2 ≤ cycles →
        ∃ t, exec (.wakeN low cycles) s = .next t ∧ t.pwr.pendingWake = s.pwr.pendingWake ||| 1 ∧ t.pwr.entering = some e ∧ t.pwr.step = s.pwr.step) ∧
      (s.pwr.entering = none → s.pwr.state = .sleep ∨ s.pwr.state = .deep ∨ s.pwr.state = .off → low = false ∨ (cycles < 2 ∧ s.pin.wakeLow = false) →
        exec (.wakeN low cycles) s = .next { s with pin := { s.pin with wakeN := !low, wakeLow := false } }) ∧
      (s.pwr.entering = none → low = true → 2 ≤ cycles →
        (s.pwr.state = .sleep ∨ s.pwr.state = .deep →
          let t := { s with
            pin := { s.pin with wakeN := false, wakeLow := true }
            pwr := { s.pwr with wakeSrc := s.pwr.wakeSrc ||| 1, pendingWake := s.pwr.pendingWake ||| 1, abortPt := 0
                                wakeFrom := if s.pwr.state = .sleep then 2 else 3, padHold := s.pwr.padHold &&& 0x1D } }
          exec (.wakeN low cycles) s = .next (if s.pwr.pendingWake = 0 then portsAll portRelock t else t)) ∧
        (s.pwr.state = .off → ∃ t, exec (.wakeN low cycles) s = .next t ∧ t.clk.reset = .fromOff ∧ t.clk.ready = false ∧ t.clk.time = 0 ∧
          t.pwr.wakeSrc = 1 ∧ t.pwr.wakeFrom = 4 ∧ t.pwr.padHold = 0x1F ∧ t.keep.word = s.keep.word))) ∧
    (ctlReady s = true → s.pwr.padHold < 32 → s.side.owed = false → s.rcd.buf = [] → s.rcd.waits = false → (∀ p q, (sqOf (partOf s p) q).owed = []) → ∀ (v : Fin 32),
      (s.pwr.state = .run → ∃ t, exec (.padRelease v) s = .next (settle t) ∧ t.pwr.padHold = s.pwr.padHold - (v.val &&& s.pwr.padHold) ∧ t.mem = s.mem ∧ t.part = s.part) ∧
      (s.pwr.state = .sleep → ∃ t, exec (.padRelease v) s = .next (settle t) ∧ t.pwr.padHold = s.pwr.padHold - (v.val &&& s.pwr.padHold &&& 0x1A) ∧
        t.mem = s.mem ∧ t.part = s.part))

/-- O46. Where the control port takes writes, WARM clears every partition, tally, publication entry and page record, makes every byte of T0 read 0 and leaves every byte of T1, T2 and T3 and every keep word, keeps TKJ_TIME, clears READY and the cycle count, and gives every slot K and M from keep word 1. PWR_GOOD_RISE (where no log is written) with PWR_GOOD low and the reference clock running does the same, with TKJ_TIME 0, every pad group held and the straps sampled; without the clock it only samples them; with PWR_GOOD high it changes nothing. PWR_GOOD_FALL stops the block, ends any entry and holds every pad group, lets the sideband outputs go, and changes no memory and no keep word but one that is being programmed, which keeps its old value or takes its new one. REFCLK_STOP stops the vigil clock; REFCLK_START starts it, and begins a power-on reset that waited for it. RESET_FINISHED sets READY with the cause of the reset; after a power-on reset it releases PHOTONIC and raises the power vector; with no reset in progress it changes nothing. -/
def Obligations.ResetEvents : Prop :=
  let cleared (s t : State) : Prop := t.part = [] ∧ t.tally = [] ∧ t.pub = [] ∧ t.page.recs = [] ∧ t.reg.table = [] ∧ t.clk.ready = false ∧ t.keep.word = s.keep.word ∧
    (∀ a, uget t.mem a = if tierOf a = 0 then 0 else uget s.mem a) ∧
    (∀ g, g < 16 → (grpOf t g).k = fld 8 5 (keepWord s 1) ∧ (grpOf t g).m = fld 0 3 (keepWord s 1) ∧ (grpOf t g).en = false) ∧ t.pending = s.pending
  let powered (s t : State) : Prop := cleared s t ∧ t.clk.time = 0 ∧ t.clk.reset = .powerOn ∧ t.clk.pwrGood = true ∧ t.pwr.padHold = 0x1F
  ∀ (s : State),
    (ctlReady s = true → ∃ t, exec .warm s = .next t ∧ cleared s t ∧ t.clk.time = s.clk.time ∧ t.clk.cycle = 0 ∧ t.clk.reset = .warm ∧ t.pwr.padHold = s.pwr.padHold) ∧
    (unlogged s = true →
      (∀ straps : Fin 4, (s.clk.pwrGood = true → exec (.pwrGoodRise straps) s = .next s) ∧
        (s.clk.pwrGood = false → s.clk.refclk = false →
          exec (.pwrGoodRise straps) s = .next { s with fuse := { s.fuse with straps := straps }, clk := { s.clk with pwrGood := true } }) ∧
        (s.clk.pwrGood = false → s.clk.refclk = true → ∃ t, exec (.pwrGoodRise straps) s = .next t ∧ powered s t ∧ t.fuse.straps = straps)) ∧
      (s.clk.pwrGood = false → exec .pwrGoodFall s = .next s) ∧
      (s.clk.pwrGood = true → ∃ t, exec .pwrGoodFall s = .next t ∧ t.clk.pwrGood = false ∧ t.clk.ready = false ∧ t.pwr.padHold = 0x1F ∧
        t.pwr.entering = none ∧ t.mem = s.mem ∧ coreUp t = false ∧ portsUp t = false ∧
        t.keep.busy = none ∧ t.keep.queue = [] ∧ t.side.driving = false ∧ t.pin.alertN = !s.pin.alertHeld ∧
        (s.keep.busy = none → t.keep.word = s.keep.word) ∧
        (∀ n v, s.keep.busy = some (n, v) → (keepWord t n = keepWord s n ∨ keepWord t n = v) ∧ ∀ k, k ≠ n → keepWord t k = keepWord s k))) ∧
    exec .refclkStop s = .next { s with clk := { s.clk with refclk := false } } ∧
    (s.clk.pwrGood = true → s.clk.ready = false → s.clk.reset = .none → ∃ t, exec .refclkStart s = .next t ∧ powered s t) ∧
    (s.clk.pwrGood = false ∨ s.clk.ready = true ∨ s.clk.reset ≠ .none → exec .refclkStart s = .next { s with clk := { s.clk with refclk := true } }) ∧
    (portsUp s = false → exec .resetFinished s = .next s) ∧
    (portsUp s = true →
      (s.clk.reset = .none → exec .resetFinished s = .next s) ∧
      (s.clk.reset = .warm → exec .resetFinished s = .next { s with clk := { s.clk with ready := true, rstCause := 2, reset := .none } }) ∧
      (s.clk.reset = .powerOn ∨ s.clk.reset = .fromOff → ∃ t, exec .resetFinished s = .next t ∧ t.clk.ready = true ∧ t.clk.reset = .none ∧
        t.clk.rstCause = (if s.clk.reset = .powerOn then 1 else 3) ∧ t.pwr.padHold = 0x1D ∧ t.msg.cause.testBit 2 = true ∧ t.mem = s.mem ∧ t.keep = s.keep))

/-- O47. Where the control port takes writes: KEEP_WRITE of half a word, of a locked word or of a word that the block keeps to itself is counted as a denied write (class 6), also while the store programs, and changes nothing else; one that arrives while the store programs is dropped and counted, saturating; any other starts programming, and the word reads its old value meanwhile. KEEP_PROGRAM_DONE ends the programming: the word takes the value read back, its wear COUNT rises by 1, no other word changes, VERIFY_FAIL is set where the value read back is not the one written, and the block's next own write starts; with nothing programmed it changes nothing. That a denied write is no drop, and that the word takes the value read back, is the model's reading (log 79). SNAP and the snapshot timer add the lifetime accumulators, in order, to what waits for words 19 to 26. No byte of memory changes. -/
def Obligations.KeepStoreWrites : Prop :=
  ∀ (s : State),
    let waits (t : State) : List (Nat × Word) := t.keep.busy.toList ++ t.keep.queue
    let life := (List.range 8).map fun i => (19 + i, BitVec.ofNat 64 (lifeNow s i))
    (ctlReady s = true → let u := ctlSeen s
      (∀ (n : Fin 64) (a : Acc) (v : Word),
        (a ≠ .full ∨ bit n.val s.keep.lock = true ∨ n.val = 0 ∨ n.val = 2 ∨ (19 ≤ n.val ∧ n.val ≤ 26) → exec (.keepWrite n a v) s = .next (violate 6 u)) ∧
        (bit n.val s.keep.lock = false → n.val ≠ 0 → n.val ≠ 2 → n.val < 19 ∨ 26 < n.val →
          (s.keep.busy ≠ none → exec (.keepWrite n .full v) s = .next { u with keep := { u.keep with drop := min (s.keep.drop + 1) 0xFFFFFFFF } }) ∧
          (s.keep.busy = none → exec (.keepWrite n .full v) s = .next { u with keep := { u.keep with busy := some (n.val, v) } }))) ∧
      ((s.keep.busy = none → s.keep.queue = []) → ∃ t, exec .snap s = .next t ∧ { t with keep := u.keep } = u ∧ waits t = waits s ++ life ∧ t.keep.snap = true ∧ t.keep.word = s.keep.word)) ∧
    (portsUp s = true → s.clk.ready = true → (s.keep.busy = none → s.keep.queue = []) →
      ∃ t, exec .keepSnapshotTimer s = .next t ∧ { t with keep := s.keep } = s ∧ waits t = waits s ++ life ∧ t.keep.word = s.keep.word) ∧
    (portsUp s = true → ∀ back : Word,
      (s.keep.busy = none → exec (.keepProgramDone back) s = .next s) ∧
      (∀ n v, s.keep.busy = some (n, v) → ∃ t, exec (.keepProgramDone back) s = .next t ∧ keepWord t n = back ∧ (∀ k, k ≠ n → keepWord t k = keepWord s k) ∧
        SMap.look 0 t.keep.count n = min (SMap.look 0 s.keep.count n + 1) 0xFFFFFFFF ∧ waits t = s.keep.queue ∧ t.mem = s.mem ∧
        (back ≠ v → SMap.look false t.keep.verifyFail n = true ∧ t.msg.cause.testBit 4 = true) ∧ (back = v → t.keep.verifyFail = s.keep.verifyFail)))

/-- O48. For every byte, its own check bits read as good; with any one of the 13 stored bits flipped the read delivers the byte that was written; with any two flipped the byte is uncorrectable. WRITE_BACK of a queued line takes it off the queue and leaves every byte of it that was queued as correctable, and has not been written since, with its corrected value and no other byte of memory changed; of a line that is not queued it changes nothing; of a line that the state SRAM does not have it stops with noSuchLine. SAGE_SCRUB with sage off, in the split-write test mode or in a slot that does not let it run changes nothing; else it starts or goes on with the lap, and no byte of memory changes. ECC_SPLIT_KEY with KEY 0x5E arms the unlock and leaves EN, KEY 0xE5 as the next write while armed and nothing is bound sets EN, and KEY 0x00 clears EN; KEY 0xE5 while not armed, or while a partition is bound, leaves EN. -/
def Obligations.StateSramChecks : Prop :=
  (∀ b : Byte, eccDecide b (checkBits b) = .good ∧
    (∀ i, i < 8 → eccDecide (b ^^^ BitVec.ofNat 8 (2 ^ i)) (checkBits b) = .fixed b) ∧
    (∀ i, i < 5 → eccDecide b (checkBits b ^^^ BitVec.ofNat 5 (2 ^ i)) = .fixed b) ∧
    (∀ i j, i < j → j < 8 → eccDecide (b ^^^ BitVec.ofNat 8 (2 ^ i + 2 ^ j)) (checkBits b) = .bad) ∧
    (∀ i j, i < j → j < 5 → eccDecide b (checkBits b ^^^ BitVec.ofNat 5 (2 ^ i + 2 ^ j)) = .bad) ∧
    (∀ i j, i < 8 → j < 5 → eccDecide (b ^^^ BitVec.ofNat 8 (2 ^ i)) (checkBits b ^^^ BitVec.ofNat 5 (2 ^ j)) = .bad)) ∧
  ∀ (s : State),
    (∀ l, Config.sramLines ≤ l → exec (.writeBack l) s = .fault .noSuchLine) ∧
    (∀ l, l < Config.sramLines → coreUp s = false ∨ s.sram.wbq.contains l = false → exec (.writeBack l) s = .next s) ∧
    (∀ l, l < Config.sramLines → MemCanonical s → coreUp s = true → s.sram.wbq.contains l = true → (s.sram.check.map (·.1)).Nodup →
      ∃ t, exec (.writeBack l) s = .next t ∧ { t with mem := s.mem, sram := s.sram } = s ∧ t.sram.wbq.contains l = false ∧
        (∀ k, k ≠ l → t.sram.wbq.contains k = s.sram.wbq.contains k) ∧ sameMemBut (64 * l) 64 s t ∧
        (∀ b, s.sram.fixBytes.contains b = false → uget t.mem b = uget s.mem b) ∧
        ∀ c ∈ s.sram.check, 64 * l ≤ c.1 → c.1 < 64 * l + 64 → s.sram.fixBytes.contains c.1 = true → ∀ b, eccDecide (uget s.mem c.1) c.2 = .fixed b →
          uget t.mem c.1 = b ∧ SMap.find t.sram.check c.1 = none) ∧
    (∀ b : Fin 64, (coreUp s = false ∨ s.sram.en = false ∨ splitOn s = true ∨ maintSlot s 0 = false → exec (.sageScrub b) s = .next s) ∧
      (coreUp s = true → s.sram.en = true → splitOn s = false → maintSlot s 0 = true → ∃ t, exec (.sageScrub b) s = .next t ∧ t.mem = s.mem ∧
        t.tally = s.tally ∧ t.sram.valid = s.sram.valid ∧ (t.sram.running = true ∨ t.sram.lapEnd = s.clk.wall) ∧
        (s.sram.running = false → t.sram.lapStart = s.clk.wall))) ∧
    (ctlReady s = true → ∀ v : Word, let en (t : State) : Bool := bit 63 t.sram.split
      (fld 0 8 v = 0x5E → ∃ t, exec (.eccSplitKey .full v) s = .next t ∧ t.sram.splitArm = true ∧ en t = en s ∧ t.mem = s.mem) ∧
      (fld 0 8 v = 0xE5 → ∃ t, exec (.eccSplitKey .full v) s = .next t ∧ t.sram.splitArm = false ∧ t.mem = s.mem ∧
        en t = (en s || (s.sram.splitArm && !anyBound s))) ∧
      (fld 0 8 v = 0 → ∃ t, exec (.eccSplitKey .full v) s = .next t ∧ en t = false ∧ t.sram.splitArm = false ∧ t.mem = s.mem))

/-- O49. Where the control port takes writes and the log area is one in T2 or T3: REC_RECORD with AT_COMMIT clear in throughput mode makes a recording ACTIVE from the next core cycle on and writes at BASE the 32 bytes of a START entry (KIND 0, cycle 0, the configuration digest and the open epoch as its data) and no other byte, or holds them in its buffer while HOST is held; with AT_COMMIT, or in chervil mode, it is armed and no byte of memory changes. REC_REPLAY whose START entry reads without error and passes its checks, at the instant that they ask for, makes a replay ACTIVE at entry 1 in throughput mode and arms it for the next frame in chervil mode; one that passes them but for the instant is armed for it where AT_COMMIT is set in it and in the log; else REFUSED is set and the replay vector is raised. While HOST is held the replay waits for its release. With no log area neither starts. REC_STOP ends what is ACTIVE or armed, a replay without DONE. REPLAY_ENTRY without a replay, or with HOST held, changes nothing; at an END entry the replay ends with DONE and the replay vector; at an entry of the tally port of the surroundings (KIND 6, SRC 3), in whose cycle the log shows no later read of T2 or T3, the core reaches the entry's cycle and TIME its step of 40 ns (log 9), the position moves past it, and the tally is incremented, or the tally wait answered where the increment is 0 (the model's choice, log 57). The instant asked for is read as log 104 says. -/
def Obligations.RecordAndReplay : Prop :=
  ∀ (s : State),
    let base := logBase s.rcd.base
    let entry (n : Nat) : LogEntry := parseLog ((List.range 32).map fun j => uget s.mem (base + 32 * n + j))
    (ctlReady s = true → ∀ v : Word,
      (MemCanonical s → logAreaOk s = true → bit 2 v = false → s.mode.chervil = false → hostHeld s = false → ∃ t, exec (.recRecord v) s = .next t ∧ t.rcd.active = true ∧ t.rcd.op = 1 ∧
        t.rcd.pos = 1 ∧ t.rcd.payPos = 0 ∧ t.rcd.start = coreCount s + 1 ∧ t.rcd.payload = bit 4 v ∧ t.rcd.wrap = bit 3 v ∧ sameMemBut base 32 s t ∧
        let e := parseLog ((List.range 32).map fun j => uget t.mem (base + j))
        e.kind = 0 ∧ e.cycle = 0 ∧ e.d0 = (cfgDigest s).toNat ∧ bitsOf 0 32 e.d1 = s.ep.epoch % 2 ^ 32) ∧
      (logAreaOk s = true → bit 2 v = false → s.mode.chervil = false → hostHeld s = true → ∃ t b, exec (.recRecord v) s = .next t ∧ t.rcd.active = true ∧
        t.mem = s.mem ∧ t.rcd.buf.getLast? = some (base, b) ∧ b.length = 32) ∧
      (logAreaOk s = true → hostHeld s = true → ∃ t, exec (.recReplay v) s = .next t ∧ t.rcd.active = false ∧ t.rcd.waits = true ∧ t.mem = s.mem) ∧
      (logAreaOk s = true → bit 2 v = true ∨ s.mode.chervil = true → ∃ t, exec (.recRecord v) s = .next t ∧ t.rcd.active = false ∧ t.rcd.armed = true ∧ t.rcd.op = 1 ∧ t.mem = s.mem) ∧
      (logAreaOk s = false → (∃ t, exec (.recRecord v) s = .next t ∧ t.rcd.active = false ∧ t.mem = s.mem) ∧
        ∃ t, exec (.recReplay v) s = .next t ∧ t.rcd.active = false ∧ t.mem = s.mem) ∧
      (MemCanonical s → logAreaOk s = true → cleanRead s base 32 = true →
        (replayOk s (entry 0) = true → s.mode.chervil = false →
          ∃ t, exec (.recReplay v) s = .next t ∧ t.rcd.active = true ∧ t.rcd.op = 2 ∧ t.rcd.pos = 1 ∧ t.rcd.start = coreCount s ∧ t.mem = s.mem) ∧
        ((replayOk s (entry 0) = true ∧ s.mode.chervil = true) ∨ (replayOk s (entry 0) = false ∧ replayFits s (entry 0) = true ∧ bitOf 2 (entry 0).src = true ∧ bit 2 v = true) →
          ∃ t, exec (.recReplay v) s = .next t ∧ t.rcd.active = false ∧ t.rcd.armed = true ∧ t.rcd.op = 2 ∧ t.mem = s.mem) ∧
        (replayFits s (entry 0) = false ∨ (replayOk s (entry 0) = false ∧ (bitOf 2 (entry 0).src = false ∨ bit 2 v = false)) → ∃ t, exec (.recReplay v) s = .next t ∧ t.rcd.active = false ∧ t.rcd.armed = false ∧ t.rcd.refused = true ∧ t.msg.cause.testBit 8 = true ∧ t.mem = s.mem))) ∧
    (portsUp s = true → s.clk.ready = true → ∀ v : Word, ∃ t, exec (.recStop v) s = .next t ∧ t.rcd.active = false ∧ t.rcd.armed = false ∧ t.rcd.op = 0 ∧
      (replaying s = true → t.rcd.done = (s.rcd.done && !bit 60 v) ∧ t.mem = s.mem)) ∧
    (replaying s = false ∨ coreUp s = false ∨ hostHeld s = true → exec .replayEntry s = .next s) ∧
    (MemCanonical s → replaying s = true → coreUp s = true → hostHeld s = false → s.sram.check = [] → s.badRead = [] →
      let n := s.rcd.pos
      let e := entry n
      let at' := coreCount s + (s.rcd.start + e.cycle - coreCount s)
      let due := s.clk.time + 40 * (at' / 80 - coreCount s / 80)
      tierOf base ≥ 2 → base / 2 ^ 62 = (base + 32 * (n + 2 + recEntries s)) / 2 ^ 62 →
      (e.kind = 8 → ∃ t, exec .replayEntry s = .next t ∧ t.rcd.active = false ∧ t.rcd.done = true ∧ t.rcd.pos = n + 1 ∧ t.clk.time = due ∧ coreCount t = at' ∧
        t.msg.cause.testBit 8 = true ∧ t.mem = s.mem) ∧
      (e.kind = 6 → e.src = 3 → (∀ j < recEntries s, (∀ i ≤ j, (entry (n + 1 + i)).cycle = e.cycle) → (entry (n + 1 + j)).kind ≠ 5) → ∃ t, exec .replayEntry s = .next (settle
          (if e.d1 = 0 then tallyAnswer (e.d0 % 16384) t else incTally (e.d0 % 16384) (BitVec.ofNat 32 e.d1) t)) ∧
        t.rcd = { s.rcd with pos := n + 1 } ∧ t.clk.time = due ∧ coreCount t = at' ∧ t.part = s.part ∧ t.tally = s.tally ∧ t.mem = s.mem))

/-- O50. TALLY_WRITE, where the control port takes writes, writes COUNT, OWNED and OWNER (low word) or TARGET, EVT and GEN_WAIT (high word) of its tally, and changes no other tally. TIMER_WRITE writes DEADLINE, or EN, PERIODIC, EVT and PERIOD of its timer with EXPIRED cleared by a 1, and leaves a periodic timer below 40 ns stopped. With the core up and no log written: SURR_TALLY_INCREMENT adds to its tally modulo 2^32 and changes no other; it waits, changing nothing, while SURR is held. TALLY_WAIT answers COUNT and whether the tally is reached where GEN_WAIT is set, and changes nothing else. GEN_STEP changes nothing while SURR is held, and else gives a detector of source 5 on its strobe a rising edge, which latches and counts, saturating. CHERVIL_SLOT in chervil mode moves the core to the first cycle of the slot, and TIME with it, which makes it the slot in force: a partition whose granule has not started and which the slot names for every engine of its instruction then holds those engines. Nothing else changes but what the ports send and the virtual times of the partitions. In throughput mode, or with the core down, it changes nothing. The move of the clocks is the model's choice (log 9), the strobe as one rise its reading (log 111). -/
def Obligations.TallyTimerAndStrobes : Prop :=
  ∀ (s : State),
    let others (n : Nat) (t : State) : Prop := ∀ k, k ≠ n → tallyOf t k = tallyOf s k
    (ctlReady s = true →
      (∀ (n : Fin 16384) (v : Word), let x := tallyOf s n.val
        (∃ t, exec (.tallyWrite n false .full v) s = .next t ∧ others n.val t ∧
          tallyOf t n.val = { x with count := BitVec.ofNat 32 (fld 0 32 v), owned := bit 62 v, owner := fld 52 4 v }) ∧
        (∃ t, exec (.tallyWrite n true .full v) s = .next t ∧ others n.val t ∧
          tallyOf t n.val = { x with target := BitVec.ofNat 32 (fld 0 32 v), evt := bit 62 v, genWait := bit 63 v })) ∧
      (∀ (p : Part) (k : Fin 64) (v : Word), let x := timerOf (partOf s p.val) k.val
        (∃ t, exec (.timerWrite p k false .full v) s = .next t ∧ onlyPart p.val (ctlSeen s) t ∧
          timerOf (partOf t p.val) k.val = { x with deadline := v.toNat } ∧ ∀ j, j ≠ k.val → timerOf (partOf t p.val) j = timerOf (partOf s p.val) j) ∧
        (∃ t, exec (.timerWrite p k true .full v) s = .next t ∧ onlyPart p.val (ctlSeen s) t ∧
          timerOf (partOf t p.val) k.val = { x with
            en := bit 63 v && !(bit 62 v && decide (fld 0 40 v < 40)), periodic := bit 62 v, evt := bit 61 v, period := fld 0 40 v, expired := x.expired && !bit 60 v } ∧
          ∀ j, j ≠ k.val → timerOf (partOf t p.val) j = timerOf (partOf s p.val) j))) ∧
    (coreUp s = true → unlogged s = true →
      (∀ (n : Fin 16384) (k : Half),
        (s.pwr.padHold.testBit 2 = true → exec (.surrTallyIncrement n k) s = .next s ∧ exec (.tallyWait n) s = .next s) ∧
        (s.pwr.padHold.testBit 2 = false →
          (∃ t, exec (.surrTallyIncrement n k) s = .next t ∧ others n.val t ∧ tallyOf t n.val = { tallyOf s n.val with count := (tallyOf s n.val).count + k }) ∧
          exec (.tallyWait n) s = .next (if (tallyOf s n.val).genWait then
            { s with fab := { s.fab with resp := .tally (tallyOf s n.val).count (reached (tallyOf s n.val)) :: s.fab.resp } } else s))) ∧
      (∀ (n : Fin 16), s.pwr.padHold.testBit 2 = true → exec (.genStep n) s = .next s) ∧
      (s.pwr.padHold.testBit 2 = false → ∀ (n : Fin 16), ∃ t, exec (.genStep n) s = .next t ∧ t.tally = s.tally ∧ t.pin.genStep = 0 ∧
        ((s.part.map (·.1)).Nodup → ∀ (p e : Nat) (x : Edge), ((partOf s p).edge.map (·.1)).Nodup → SMap.find (partOf s p).edge e = some x →
          x.src = 5 → x.sel % 16 = n.val → x.level = false → x.kind = 0 →
          edgeOf (partOf t p) e = { x with latched := true, count := min (x.count + 1) 0xFFFF } ∧
          (x.evt = true → (partOf t p).epend.testBit evEdge = true)))) ∧
    (∀ n : Fin 256,
      (s.mode.chervil = false ∨ coreUp s = false → exec (.chervilSlot n) s = .next s) ∧
      (s.mode.chervil = true → coreUp s = true → s.rcd.armed = false →
        let d := (128 * n.val + 32768 - s.clk.cycle % 32768) % 32768
        let m := 40 * ((coreCount s + d) / 80 - coreCount s / 80)
        let u : State := { s with clk := { s.clk with
          time := s.clk.time + m, wall := s.clk.wall + m
          cycle := if coreRuns s then s.clk.cycle + d else s.clk.cycle, gated := if s.pwr.state = .idle then s.clk.gated + d else s.clk.gated } }
        (coreRuns s = true → slotNow u = n.val) ∧
        ∃ t, exec (.chervilSlot n) s = .next (settle t) ∧ t.mode = { s.mode with held := t.mode.held, since := t.mode.since } ∧ t.clk = u.clk ∧
          { t with mode := s.mode, clk := s.clk, fab := s.fab, port := s.port, part := s.part } = s ∧ { t.fab with line := s.fab.line } = s.fab ∧
          (∀ p, { partOf t p with ready := (partOf s p).ready, vt := (partOf s p).vt } = partOf s p) ∧
          (∀ i p, SMap.find s.mode.held i = some p → SMap.find t.mode.held i = some p) ∧
          ((∀ x ∈ s.part, x.2.seq ≠ .long) → t.mode.held = s.mode.held) ∧
          (∀ p l is, (s.part.filter fun x => x.2.seq == .long).map (·.1) = [p] → (partOf s p).long = some l → l.unstarted = false → granuleStarted s p l = false → p ∉ s.upd.lockWait →
            enginesFor u p l.paired (engineOf l.cls l.op) = some is → ∀ i ∈ is, SMap.find t.mode.held i = some p)))

/-- O51. Where the control port takes writes: REGISTER_WRITE and RC_READ at an offset with no register count a breach of contract 9, and the read returns 0. A write of TKJ_REGION_ENT, of the base of a disabled submission queue, or of a memory window of an unbound partition gives each bit of the addressed half, or of the whole word, the value written, leaves every other bit, and changes no other region entry register, queue or partition. RC_READ of a register without RC fields, and of a half of any register, returns its value or that half and changes nothing else; of the whole of TKJ_FABRIC_STAT, TKJ_MEMOP_STAT, TKJ_SVC_STAT, TKJ_MGT_STAT and TKJ_EPOCH_STAT it returns the value, and every RC field reads 0 afterwards; before READY a read returns 0 except for TKJ_ID and TKJ_GSTAT. WAKE_NB on a port in service puts one WAKE frame on that port, with the identity recorded for it; on any other port it does nothing. -/
def Obligations.RegisterAccesses : Prop :=
  ∀ (s : State), unlogged s = true → portsUp s = true →
    let u := ctlSeen s
    let written (a : Acc) (v old new : Word) : Prop := ∀ b, b < 64 → bit b new = match a with
      | .full => bit b v
      | .low => if b < 32 then bit b v else bit b old
      | .high => if 32 ≤ b then bit (b - 32) v else bit b old
    (s.clk.ready = true → ∀ (off : Nat) (a : Acc) (v : Word),
      (regAt off = none → exec (.registerWrite off a v) s = .next (violate 9 u)) ∧
      (∀ k, regAt off = some (.regionEnt k) → ∃ t, exec (.registerWrite off a v) s = .next t ∧ { t with reg := u.reg } = u ∧
        written a v (SMap.look 0 s.reg.ent k) (SMap.look 0 t.reg.ent k) ∧ ∀ j, j ≠ k → SMap.look 0 t.reg.ent j = SMap.look 0 s.reg.ent j) ∧
      (∀ p q, regAt off = some (.psq p q 0) → (sqOf (partOf s p) q).en = false → ∃ t, exec (.registerWrite off a v) s = .next t ∧ onlyPart p u t ∧
        written a v (sqOf (partOf s p) q).base (sqOf (partOf t p) q).base ∧ { sqOf (partOf t p) q with base := (sqOf (partOf s p) q).base } = sqOf (partOf s p) q ∧
        ∀ j, j ≠ q → sqOf (partOf t p) j = sqOf (partOf s p) j) ∧
      (∀ p k, regAt off = some (.pmwin p k 0) → (partOf s p).bound = false → ∃ t, exec (.registerWrite off a v) s = .next t ∧ onlyPart p u t ∧
        written a v (SMap.look {} (partOf s p).mwin k : MWin).w0 (SMap.look {} (partOf t p).mwin k : MWin).w0 ∧
        ∀ j, j ≠ k → (SMap.look {} (partOf t p).mwin j : MWin) = SMap.look {} (partOf s p).mwin j)) ∧
    (∀ (off : Nat) (a : Acc),
      let part (v : Word) : Word := match a with
        | .full => v
        | .low => v &&& 0xFFFFFFFF
        | .high => v >>> 32
      let gives (v : Word) (t : State) : Prop := t = { s with fab := { s.fab with resp := .ctl (part v) :: s.fab.resp } }
      (regAt off = none → exec (.rcRead ⟨off, a⟩) s = .next { violate 9 s with fab := { s.fab with resp := .ctl 0 :: s.fab.resp } }) ∧
      (∀ r, regAt off = some r →
        (s.clk.ready = false → ∃ t, exec (.rcRead ⟨off, a⟩) s = .next t ∧ gives (if r = .gid ∨ r = .gstat then readReg s r else 0) t) ∧
        (s.clk.ready = true → rcFields r = [] ∨ a ≠ .full → ∃ t, exec (.rcRead ⟨off, a⟩) s = .next t ∧ gives (readReg s r) t) ∧
        (s.clk.ready = true → a = .full → r = .fabricStat ∨ r = .memopStat ∨ r = .svcStat ∨ r = .mgtStat ∨ r = .epochStat → ∃ t, exec (.rcRead ⟨off, a⟩) s = .next t ∧
          t.fab.resp = .ctl (readReg s r) :: s.fab.resp ∧ t.mem = s.mem ∧ t.part = s.part ∧ ∀ f ∈ rcFields r, fld f.1 f.2 (readReg t r) = 0))) ∧
    (s.clk.ready = true → ∀ p : Port,
      (portInService (portOf s p.val) = false → exec (.wakeNb p) s = .next u) ∧
      (portInService (portOf s p.val) = true → ∃ (t : State) (f : Frame) (w : WakeMsg), exec (.wakeNb p) s = .next t ∧ t.fab.tx = (p.val, f) :: s.fab.tx ∧
        f.body = .wake w ∧ f.hdr.typ = 14 ∧ f.hdr.tag = 0 ∧ wakeOk w = true ∧ w.identity = (((portOf s p.val).peer.map (·.identity)).getD 0) ∧ t.mem = s.mem ∧ t.part = s.part))

/-- O52. Where the ports are up, READY is set, no log is written and SIDEBAND is not held: a single 64-bit SVC_WRITE, and an I2C_WRITE, of TKJ_SVC_CTL, or outside the power and keep windows while FULL is 0, is counted in DENIED and has no other effect on any register; one that may be written has the effect of a write of that register. An I2C access sets the target's pointer, of 24 bits, to its offset and leaves it 8 further; one at an offset that is no multiple of 8 is answered with NACK and changes nothing else but that the block is no longer addressed. SVC_ADDRESS_WORD of a single 64-bit READ keeps the register's value for the frame and clears nothing; SVC_READ of that frame returns the kept value as two words, low half first, and where the register has no RC field changes nothing else. I2C_READ returns the register's value. SVC_WAKE from the service port, or from the bus, is wake source 3 in SLEEP and in DEEP, where PHOTONIC is released and, at the first wake, the lanes begin to relock, and in RUN and IDLE with no entry in progress it changes nothing. -/
def Obligations.SidebandAccesses : Prop :=
  ∀ (s : State), portsUp s = true → s.clk.ready = true → unlogged s = true → sideHeld s = false →
    let denied : State := { s with side := { s.side with svcStat := bump 0 16 s.side.svcStat } }
    let open' (off : Nat) : Prop := off ≠ 0x010100 ∧ (s.side.full = true ∨ (0x010000 ≤ off ∧ off < 0x030000))
    let quietBus : State := { s with side := { s.side with target := false } }
    let pointed (off : Nat) : State := { s with side := { s.side with target := false, ptr := off % 2 ^ 24 } }
    let next (t : State) : State := { t with side := { t.side with ptr := (t.side.ptr + 8) % 2 ^ 24 } }
    (∀ (f : SvcFrame) (data : List Half), f.size64 = true → f.count = 0 → svcMisplaced f = false →
      let v : Word := (data.getD 0 0).setWidth 64 ||| ((data.getD 1 0).setWidth 64 <<< 32)
      (¬ open' f.offset → exec (.svcWrite f data) s = .next denied) ∧
      (open' f.offset → exec (.svcWrite f data) s = .next (writeAt false false f.offset .full v s)) ∧
      (∀ r, regAt f.offset = some r →
        exec (.svcAddressWord f) s = .next { s with side := { s.side with frame := some (f, [readReg s r]) } } ∧
        (∀ w, s.side.frame = some (f, [w]) → rcFields r = [] → exec (.svcRead f) s = .next { s with
          side := { s.side with frame := none }
          fab := { s.fab with resp := .svcWords [w.setWidth 32, (w >>> 32).setWidth 32] :: s.fab.resp } }))) ∧
    (∀ (off : Nat) (v : Word),
      let nack : State := { quietBus with fab := { s.fab with resp := .i2cNack :: s.fab.resp } }
      let a := off % 2 ^ 24
      (off % 8 ≠ 0 → exec (.i2cWrite off v) s = .next nack ∧ exec (.i2cRead off) s = .next nack) ∧
      (off % 8 = 0 → ¬ open' a → exec (.i2cWrite off v) s = .next
        { denied with side := { denied.side with target := false, ptr := (a + 8) % 2 ^ 24 } }) ∧
      (off % 8 = 0 → open' a → exec (.i2cWrite off v) s = .next (next (writeAt false false a .full v (pointed off)))) ∧
      (∀ r, off % 8 = 0 → regAt a = some r → rcFields r = [] →
        exec (.i2cRead off) s = .next (next { pointed off with fab := { s.fab with resp := .i2c (readReg (pointed off) r) :: s.fab.resp } }))) ∧
    (∀ i2c : Bool, s.pwr.entering = none →
      (s.pwr.state = .run ∨ s.pwr.state = .idle → exec (.svcWake i2c) s = .next s) ∧
      (s.pwr.state = .sleep ∨ s.pwr.state = .deep →
        let t := { s with pwr := { s.pwr with
          wakeSrc := s.pwr.wakeSrc ||| 8, pendingWake := s.pwr.pendingWake ||| 8, wakeFrom := if s.pwr.state = .sleep then 2 else 3
          abortPt := 0, padHold := s.pwr.padHold &&& 0x1D } }
        exec (.svcWake i2c) s = .next (if s.pwr.pendingWake = 0 then portsAll portRelock t else t)))

/-- O53. Where the ports are up: SVC_FRAME_ERROR of each kind of Table 17.4 (SHORT, BADCMD, EXTRA), and a READ or WRITE frame whose offset is misaligned or whose last access lies beyond the window, at its address word, at its end and as a write, drops the frame: no register, no memory and no state outside the frame, the count of that error in TKJ_SVC_STAT and violation class 5 changes, each of the two counts rises by 1, saturating, and the frame that a SHORT or a BADCMD ends is no longer held (after EXTRA the completed frame stands, as Table 17.4 says). I2C_BUS_ERROR (SIDEBAND not held) ends the target's transaction (the block is no longer addressed as a target), is counted in TKJ_MGT_STAT.BUSERR and in violation class 5, and changes nothing else, so that what was already applied stays. -/
def Obligations.SidebandErrorsWriteNothing : Prop :=
  ∀ (s : State), portsUp s = true →
    let counted (t : State) : Prop := SMap.look 0 t.viol 5 = min (SMap.look 0 s.viol 5 + 1) 0xFFFFFFFF ∧ ∀ k, k ≠ 5 → SMap.look 0 t.viol k = SMap.look 0 s.viol k
    let drops (i : Instr) (lo : Nat) (frame : Option (SvcFrame × List Word)) : Prop := ∃ t, exec i s = .next t ∧ counted t ∧
      fld lo 16 t.side.svcStat = min (fld lo 16 s.side.svcStat + 1) 0xFFFF ∧ (∀ b, b < 64 → b < lo ∨ lo + 16 ≤ b → bit b t.side.svcStat = bit b s.side.svcStat) ∧
      t.side = { s.side with svcStat := t.side.svcStat, frame := frame } ∧ { t with side := s.side, viol := s.viol } = s
    drops (.svcFrameError .short) 48 none ∧ drops (.svcFrameError .badCmd) 16 none ∧ drops (.svcFrameError .extra) 32 s.side.frame ∧
    (∀ (f : SvcFrame) (data : List Half), f.offset % (if f.size64 then 8 else 4) ≠ 0 ∨ 0x1000000 ≤ f.offset + (if f.size64 then 8 else 4) * f.count.val →
      drops (.svcAddressWord f) 16 none ∧ drops (.svcWrite f data) 16 none ∧ (sideHeld s = false → drops (.svcRead f) 16 none)) ∧
    (sideHeld s = false → ∃ t, exec .i2cBusError s = .next t ∧ counted t ∧ t.side.target = false ∧
      fld 0 8 t.side.mgtStat = min (fld 0 8 s.side.mgtStat + 1) 0xFF ∧ (∀ b, 8 ≤ b → b < 64 → bit b t.side.mgtStat = bit b s.side.mgtStat) ∧
      t.side = { s.side with target := false, mgtStat := t.side.mgtStat } ∧ { t with side := s.side, viol := s.viol } = s)

/-- O54. Where the ports are up: ALERT n sets CAUSE n; where it rose while ALERT_EN and its mask bit are set and no pulse or hold-off is under way, it queues one message and, where the line is not stuck, pulls GRP_ALERT_N (but for n = 5), at once, or once SIDEBAND is released; during a pulse, a hold-off or a pulse that waits it is kept for afterwards; otherwise it only sets CAUSE. A vigil cycle in which the block does nothing else sends the message at the head of the queue, with the destination and speed that TKJ_MGT_CTL has then. ALERT_PULSE_END releases the line and starts the hold-off; ALERT_HOLDOFF_END with nothing kept only ends it. ARBITRATION_LOST fails an attempt of the message at the head of the queue and counts it in ARB_LOST unless it was a NACK; ALERT_RETRY lets it try again, or after 8 attempts drops it and counts GIVEUP. LINE_STUCK declares a low line stuck, counts it, and queues a message; LINE_OK ends it when the line is high. GRP_ALERT_N follows the drivers of the line. -/
def Obligations.AlertsAndTheLine : Prop :=
  ∀ (s : State),
    let c := s.side.mgtCtl
    let held := sideHeld s
    (portsUp s = true → (∀ n : Fin 10,
      let free := s.side.alert.testBit n.val = false ∧ bit 63 c = true ∧ bit n.val c = true
      (¬ free → exec (.alert n) s = .next (settle { s with side := { s.side with alert := s.side.alert ||| 2 ^ n.val } })) ∧
      (free → s.side.driving = true ∨ s.side.holdoff = true ∨ s.side.owed = true → exec (.alert n) s = .next (settle { s with side := { s.side with
        alert := s.side.alert ||| 2 ^ n.val, rose := s.side.rose ||| 2 ^ n.val } })) ∧
      (free → s.side.driving = false → s.side.holdoff = false → s.side.owed = false → ∃ t, exec (.alert n) s = .next (settle t) ∧ t.mem = s.mem ∧ t.tally = s.tally ∧
        t.side = { s.side with alert := s.side.alert ||| 2 ^ n.val, queue := s.side.queue ++ [(1, 2 ^ n.val)]
                               driving := !(s.side.stuck || decide (n.val = 5) || held), owed := !s.side.stuck && decide (n.val ≠ 5) && held } ∧
        (s.side.stuck = false → n.val ≠ 5 → held = false → t.pin.alertN = false))) ∧
      (ctlReady s = true → held = true → s.side.owed = true → s.side.stuck = false → s.pwr.state = .run → s.rcd.waits = false → (∀ p q, (sqOf (partOf s p) q).owed = []) →
        ∃ t, exec (.padRelease 16) s = .next (settle t) ∧ t.side = { s.side with owed := false, driving := true } ∧ t.pin.alertN = false) ∧
      (s.pending = [] → s.pwr.entering = none → (s.port.all fun x => x.2.cal.isNone) = true → s.tar.issuer.tied = [] → s.exp.restoring = none →
        ∀ m ms, s.side.queue = m :: ms → s.side.lost = false → held = false → ∃ t, step s = .next t ∧ t.mem = s.mem ∧ t.part = s.part ∧
          t.side = { s.side with queue := ms, attempts := 0, sent := ⟨mgtAddr s, m.1, m.2, fld 56 7 c, fld 54 2 c⟩ :: s.side.sent }) ∧
      (s.side.driving = false → exec .alertPulseEnd s = .next (settle s)) ∧
      (s.side.driving = true → ∃ t, exec .alertPulseEnd s = .next (settle t) ∧ t.side = { s.side with driving := false, holdoff := true } ∧
        t.pin = { s.pin with alertN := !s.pin.alertHeld } ∧ t.mem = s.mem) ∧
      (s.side.holdoff = false → exec .alertHoldoffEnd s = .next (settle s)) ∧
      (s.side.holdoff = true → s.side.rose = 0 → exec .alertHoldoffEnd s = .next (settle { s with side := { s.side with holdoff := false } })) ∧
      (s.side.holdoff = true → s.side.rose ≠ 0 → ∃ t, exec .alertHoldoffEnd s = .next (settle t) ∧ t.side.rose = 0 ∧ t.side.holdoff = false ∧
        t.side.queue = s.side.queue ++ [(1, s.side.rose)]) ∧
      (held = false → s.side.queue ≠ [] → s.side.lost = false → ∀ (nack address : Bool) (winner : Nat),
        ∃ t, exec (.arbitrationLost nack address winner) s = .next t ∧ { t with side := s.side } = s ∧ t.side.lost = true ∧ t.side.attempts = s.side.attempts + 1 ∧
          t.side.queue = s.side.queue ∧ fld 32 16 t.side.mgtStat = (if nack then fld 32 16 s.side.mgtStat else min (fld 32 16 s.side.mgtStat + 1) 0xFFFF) ∧
          (nack = false → address = true → winner = mgtAddr s → t.side.target = true)) ∧
      (s.side.lost = false → exec .alertRetry s = .next s) ∧
      (s.side.lost = true → s.side.attempts < 8 → exec .alertRetry s = .next { s with side := { s.side with lost := false } }) ∧
      (s.side.lost = true → 8 ≤ s.side.attempts → ∃ t, exec .alertRetry s = .next t ∧ { t with side := s.side } = s ∧ t.side.lost = false ∧ t.side.attempts = 0 ∧
        t.side.queue = s.side.queue.drop 1 ∧ fld 8 8 t.side.mgtStat = min (fld 8 8 s.side.mgtStat + 1) 0xFF) ∧
      (s.side.driving = true ∨ s.side.stuck = true ∨ s.pin.alertN = true → exec .lineStuck s = .next s) ∧
      (s.side.driving = false → s.side.stuck = false → s.pin.alertN = false → ∃ t, exec .lineStuck s = .next t ∧ t.side.stuck = true ∧ t.side.driving = false ∧
        (2, 0) ∈ t.side.queue ∧ fld 16 16 t.side.mgtStat = min (fld 16 16 s.side.mgtStat + 1) 0xFFFF ∧ t.msg.cause.testBit 5 = true ∧ t.mem = s.mem) ∧
      (s.side.stuck = false ∨ s.pin.alertN = false → exec .lineOk s = .next s) ∧
      (s.side.stuck = true → s.pin.alertN = true → ∃ t, exec .lineOk s = .next t ∧ t.side.stuck = false ∧ (3, 0) ∈ t.side.queue ∧ t.msg.cause.testBit 5 = true ∧ t.mem = s.mem)) ∧
    (unlogged s = true → ∀ low : Bool, ∃ t, exec (.grpAlertN low) s = .next t ∧ t.pin = { s.pin with alertHeld := low, alertN := !(low || s.side.driving) } ∧ t.side = s.side)

/-- O55. Where the ports are up: PORT_BRINGUP_STEP takes an enabled port that is OFF to SEEK, and from SEEK (with laser light) to LOCK, ALIGN and TRAIN (where it sends a training flit about this block), with every lane that has not failed, or with lane 0 alone in SLEEP; in DEEP it changes nothing; in a power-on reset it releases PHOTONIC. LASER_LOW takes a port in service to DOWN. LOCK_LOSS fails a lane in service, which the idle spare replaces; the port stays in its state while 4 good lanes are left. At the end of TRAIN the peer is recorded, and a link that ends elsewhere than R215 has it is counted as miswired and stays in TRAIN. LANE_CALIBRATION in UP with CAL_EN takes the lane out for its calibration at its moment. HOLD_EXIT returns a port that HOLD keeps for a time to UP. FLIT in order raises the next expected number; one past a gap is counted and answered by a NACK that names the number expected; one repeated is counted; one that FEC cannot correct is counted and dropped; corrected symbols are counted; a new acknowledgement frees the replay buffer and ends the run of replays; a lane with more than 2^20 corrected symbols within a second fails. NACK and REPLAY_TIMER send again, in order, every flit without an acknowledgement and count it; with nothing unacknowledged they do nothing; the eighth in a row retrains. HEARTBEAT_SEND puts one valid heartbeat of this block on every enabled port in service. HEARTBEAT_INTERVAL_END clears or counts the missed beats of every enabled port; HEARTBEAT that matches the port's record is heard. WAKE that names this block in SLEEP is wake source 4, and the lanes begin to relock with the first wake; any other is counted HDR_BAD. None but what the block then settles changes a byte of memory. That a miswired port stays in TRAIN (log 93), that an acknowledgement names the next number expected (log 10) and where a gap ends and a repeat begins (log 161) are the model's. -/
def Obligations.PortsAndLinks : Prop :=
  ∀ (s : State), portsUp s = true →
    (∀ (p : Port),
      let x := portOf s p.val
      let served := portInService x = true
      let linkOnly (t : State) : Prop := { t with fab := { t.fab with line := s.fab.line }, port := s.port } = s ∧ ∀ k, k ≠ p.val → portOf t k = portOf s k
      let pads : State := photonicStart s
      let lanes (l : LaneState) (st : PortState) (t : State) : Prop := onlyPort p.val pads t ∧ (portOf t p.val).state = st ∧
        ∀ j, j < 17 → laneOf (portOf t p.val) j = if lowRate s then (if j = 0 then l else laneOf x j) else if laneOf x j = .failed then .failed else l
      ({ pads with pwr := s.pwr } = s ∧ pads.pwr = (if s.clk.reset = .powerOn ∨ s.clk.reset = .fromOff then { s.pwr with padHold := s.pwr.padHold &&& 0x1D } else s.pwr)) ∧
      (∀ peer, portClocks s = false → exec (.portBringupStep p peer) s = .next (settle s)) ∧
      (portClocks s = true → ∀ peer,
        (x.state = .off → x.en = true → ∃ t, exec (.portBringupStep p peer) s = .next (settle t) ∧ onlyPort p.val pads t ∧ (portOf t p.val).state = .seek ∧
          laneOf (portOf t p.val) 0 = .seek ∧ (portOf t p.val).buf = [] ∧ (portOf t p.val).rxNext = 0 ∧ (portOf t p.val).txNext = 0) ∧
        (x.state = .seek → x.laserLow = false → ∃ t, exec (.portBringupStep p peer) s = .next (settle t) ∧ lanes .lock .lock t) ∧
        (x.state = .lock → ∃ t, exec (.portBringupStep p peer) s = .next (settle t) ∧ lanes .lock .align t) ∧
        (x.state = .align → ∃ t g, exec (.portBringupStep p peer) s = .next (settle t) ∧ lanes .lock .train { t with fab := s.fab } ∧
          t.fab = { s.fab with line := (p.val, g) :: s.fab.line } ∧ g.kind = 5 ∧
          g.info = some { identity := s.fuse.identity, inc := s.job.inc, rank := servedRank s, coord := s.fab.coord, port := p }) ∧
        (x.state = .train → ∃ t, exec (.portBringupStep p peer) s = .next (settle t) ∧ (portOf t p.val).peer = some peer ∧ t.mem = s.mem ∧
          ((wiredPorts s).contains p.val = true → wiredRight s p.val peer = false → (portOf t p.val).miswired = true ∧ (portOf t p.val).state = .train ∧
            t.fab = { s.fab with stat := bump 0 8 s.fab.stat }))) ∧
      (served → ∃ t, exec (.laserLow p true) s = .next (settle t) ∧ (portOf t p.val).state = .down ∧ (portOf t p.val).laserLow = true ∧ t.mem = s.mem) ∧
      (∀ l : Fin 17, served → laneOf x l.val ≠ .failed → laneOf x l.val ≠ .off → ∃ t, exec (.lockLoss p l) s = .next (settle t) ∧ t.mem = s.mem ∧
        laneOf (portOf t p.val) l.val = .failed ∧ t.msg.cause.testBit 9 = true ∧
        let left := ((List.range 16).filter fun j => decide (j ≠ l.val) && laneOf x j != .failed).length
        (l.val < 16 → laneOf x 16 = .spare → 3 ≤ left → laneOf (portOf t p.val) 16 = .active ∧ (portOf t p.val).spareFor = l.val ∧ (portOf t p.val).spareUsed = true) ∧
        (4 ≤ left → (portOf t p.val).state = x.state)) ∧
      (∀ l : Fin 17, bit 7 x.ctl.now = true → x.state = .up → laneOf x l.val = .active ∨ laneOf x l.val = .spare → x.cal = none →
        ∃ t, exec (.laneCalibration p l) s = .next (settle t) ∧ laneOf (portOf t p.val) l.val = .cal ∧
          max s.clk.time (calMoment s p.val l.val) ≤ t.clk.time ∧ t.clk.time < max s.clk.time (calMoment s p.val l.val) + 40 ∧
          (portOf t p.val).cal = some (l.val, laneOf x l.val, t.clk.wall + 20000) ∧ t.mem = s.mem) ∧
      (x.state = .hold → (x.holdJob = true → exec (.holdExit p) s = .next (settle s)) ∧
        (x.holdJob = false → ∃ t, exec (.holdExit p) s = .next (settle t) ∧ (portOf t p.val).state = .up ∧ (portOf t p.val).linkFault = false ∧
          max s.clk.wall x.holdTill ≤ t.clk.wall ∧ t.clk.wall < max s.clk.wall x.holdTill + 40 ∧ t.mem = s.mem)) ∧
      (∀ f : Flit, served →
        let d := (x.rxNext + 4096 - f.lseq % 4096) % 4096
        (f.uncorrectable = true → ∃ t, exec (.flit p f) s = .next (settle t) ∧ onlyPort p.val s t ∧ portOf t p.val = { x with fec := bump 16 16 x.fec }) ∧
        (f.uncorrectable = false → f.lkind ≠ 3 →
          let m := (f.ack + 4096 - x.txAck % 4096) % 4096
          let fresh := m ≠ 0 ∧ m ≤ (x.txNext + 4096 - x.txAck % 4096) % 4096
          (x.fixes = [] → (f.fixes.map (·.2)).sum ≤ 1048576 → ∃ t, exec (.flit p f) s = .next (settle t) ∧ linkOnly t ∧ (portOf t p.val).state = x.state ∧
            (portOf t p.val).rxNext = (if d = 0 then (x.rxNext + 1) % 4096 else x.rxNext) ∧
            (portOf t p.val).laneMap = (if d = 0 ∧ f.lkind = 4 then f.lanes else x.laneMap) ∧
            (portOf t p.val).link = (if d = 0 then x.link else if d < 2048 then bump 16 16 x.link else bump 32 16 x.link) ∧
            (portOf t p.val).fec = (if f.fixes = [] then x.fec else bump 32 32 x.fec) ∧
            (fresh → (portOf t p.val).txAck = f.ack % 4096 ∧ (portOf t p.val).replays = 0 ∧ x.buf.drop m <+: (portOf t p.val).buf) ∧
            (¬ fresh → (portOf t p.val).txAck = x.txAck ∧ (portOf t p.val).replays = x.replays ∧ x.buf <+: (portOf t p.val).buf) ∧
            (2048 ≤ d → ∃ g, t.fab.line.head? = some (p.val, g) ∧ g.kind = 3 ∧ g.ack = x.rxNext)) ∧
          (∀ l : Fin 17, x.fixes = [] → (∀ y ∈ f.fixes, y.1 = l) → 1048576 < (f.fixes.map (·.2)).sum → laneOf x l.val ≠ .failed → laneOf x l.val ≠ .off →
            ∃ t, exec (.flit p f) s = .next (settle t) ∧ laneOf (portOf t p.val) l.val = .failed ∧ t.mem = s.mem))) ∧
      (∀ n, exec (.nack p n) s = exec (.replayTimer p) s ∧
        (portInService x = false ∨ x.txNext = x.txAck → exec (.replayTimer p) s = .next (settle s)) ∧
        (served → x.txNext ≠ x.txAck → x.replays < 7 → ∃ t, exec (.replayTimer p) s = .next (settle t) ∧ linkOnly t ∧
          t.fab.line = (x.buf.map fun y => (p.val, { y with ack := x.rxNext })).reverse ++ s.fab.line ∧ (portOf t p.val).replays = x.replays + 1 ∧ (portOf t p.val).link = bump 48 16 x.link ∧ (portOf t p.val).state = x.state) ∧
        (served → x.txNext ≠ x.txAck → 7 ≤ x.replays → ∃ t, exec (.replayTimer p) s = .next (settle t) ∧ (portOf t p.val).state = .lock ∧
          (portOf t p.val).retrain = true ∧ (portOf t p.val).replays = 0 ∧ t.mem = s.mem)) ∧
      (unlogged s = true → portTakes s 8 p.val = true → ∀ (h : FrameHdr) (b : Beat), h.typ = 8 → hdrOk h = true → h.tag = 0 → h.hops < 63 → hbOn s p.val = true →
        (beatOk b = false → exec (.heartbeat p h b) s = .next s) ∧
        (∀ r, beatOk b = true → x.record = some r → b.identity = r.identity → b.inc = r.inc → b.rank = r.rank →
          ∃ t, exec (.heartbeat p h b) s = .next t ∧ (portOf t p.val).gotHb = true ∧ (b.quiet = true → (portOf t p.val).quietPeer = true) ∧ t.mem = s.mem)) ∧
      (unlogged s = true → portTakes s 14 p.val = true → ∀ (h : FrameHdr) (w : WakeMsg), h.typ = 14 → hdrOk h = true → h.tag = 0 → h.hops < 63 →
        (s.pwr.state = .sleep → s.pwr.entering = none → wakeOk w = true → w.identity = s.fuse.identity →
          let t : State := { s with pwr := { s.pwr with wakeSrc := s.pwr.wakeSrc ||| 16, pendingWake := s.pwr.pendingWake ||| 16, wakeFrom := 2
                                                        abortPt := 0, padHold := s.pwr.padHold &&& 0x1D } }
          exec (.wake p h w) s = .next (if s.pwr.pendingWake = 0 then portsAll portRelock t else t)) ∧
        (s.pwr.state ≠ .sleep ∨ wakeOk w = false ∨ w.identity ≠ s.fuse.identity → exec (.wake p h w) s = .next (countHdrBad s)))) ∧
    (∃ t fs, exec .heartbeatSend s = .next (settle t) ∧ t.fab.tx = fs ++ s.fab.tx ∧ t.mem = s.mem ∧
      fs.map (·.1) = ((List.range 8).filter fun p => hbOn s p && portInService (portOf s p)).reverse ∧
      ∀ y ∈ fs, y.2.hdr.typ = 8 ∧ y.2.hdr.tag = 0 ∧ ∃ b, y.2.body = .beat b ∧ beatOk b = true ∧ b.identity = s.fuse.identity ∧ b.inc = s.job.inc) ∧
    (∃ t, exec .heartbeatIntervalEnd s = .next (settle t) ∧ t.mem = s.mem ∧ ∀ p, p < 8 → hbOn s p = true → (portOf t p).gotHb = false ∧
      (portOf t p).missed = if (portOf s p).gotHb then 0 else min 3 ((portOf s p).missed + 1))

/-- O56. For the arrival of a frame of every kind but heartbeats and WAKE frames (44 commands), at any port: where the port does not take frames of its TYPE nothing changes; a frame with a bad HCRC, a reserved TYPE or a payload of another kind is counted HDR_BAD and dropped; one at HOPS 63 is counted HOP_LIMIT and dropped; one for another coordinate whose TAG is not bound here is forwarded; a report that is passed on is merged with those of its key, and a closure takes the count of its key with it. A frame for this coordinate, where no log is written: with a rank that is not served here, unless it is a memory request or a wave on its flood, it is counted in class 3 and dropped; with another binding it is counted in class 1 and dropped; ahead by more than one epoch it is counted in class 4; ahead by one it waits in the ahead area; one that passes every check goes to its engine (deliver), which acts as the rule of its row says. FRAME_FORWARD of any such frame is the same as its arrival. No check changes anything but its count. Counting a payload of another kind (log 16), the wave on its flood (log 67) and the TYPEs that a port takes (log 91) are the model's readings. -/
def Obligations.FrameArrivals : Prop :=
  ∀ (i : Instr) (p : Port) (f : Frame) (s : State), arrival i = some (p, f) →
    let h := f.hdr
    let v := leaveIdle s
    let ans (t : State) : Prop := exec i s = .next t ∧ exec (.frameForward p f) s = .next t
    (portsUp s = false ∨ portTakes s h.typ p.val = false → ans s) ∧
    (portsUp s = true → portTakes s h.typ p.val = true →
      (hdrOk h = false ∨ typeKnown h.typ = false ∨ typeFits h.typ f.body = false → ans { s with fab := { s.fab with stat := bump 16 16 s.fab.stat } }) ∧
      (hopOk f = true → 63 ≤ h.hops → ans { s with fab := { s.fab with stat := bump 8 8 s.fab.stat } }) ∧
      (hopOk f = true → h.hops < 63 → coreUp s = false → ans s) ∧
      (hopOk f = true → h.hops < 63 → coreUp s = true → h.destCoord ≠ s.fab.coord → tagBound s h.tag = false →
        (∀ t r, f.body = .tarra t r → tarraOk t = false ∨ 2 ≤ t.kind) → ans (settle (forward (some p.val) f s))) ∧
      (hopOk f = true → h.hops < 63 → coreUp s = true → h.destCoord ≠ s.fab.coord → ∀ t r, f.body = .tarra t r → tarraOk t = true →
        (t.kind = 0 → ∀ m, mergeReport t v = m → (m.2 = none → ans (settle m.1)) ∧ ∀ t', m.2 = some t' → ans (settle (forward (some p.val) ⟨h, .tarra t' r⟩ m.1))) ∧
        (t.kind = 1 → ans (settle (forward (some p.val) ⟨h, .tarra (closureCount t v).2 r⟩ (closureCount t v).1)))) ∧
      (hopOk f = true → h.hops < 63 → coreUp s = true → h.destCoord = s.fab.coord → unlogged s = true →
        (h.tag = 0 → ans (settle v)) ∧
        (h.tag ≠ 0 → servesRank s h.destRank = false → floodFrame (some p.val) f = false → (∀ m, f.body ≠ .mem m) → ans (settle (violate 3 v))) ∧
        (h.tag ≠ 0 → servesRank s h.destRank = true → tagOk s h = false → ans (settle (violate 1 v))) ∧
        (h.tag ≠ 0 → servesRank s h.destRank = true → tagOk s h = true → h.ebound = true →
          (s.ep.epoch + 1 < h.epoch → ans (settle (violate 4 v))) ∧
          (h.epoch = s.ep.epoch + 1 → aheadLevel s + frameLen f ≤ Config.aheadBytes →
            ans (settle { v with ep := { v.ep with ahead := s.ep.ahead ++ [(p.val, f)], stat := bump 0 32 s.ep.stat } }))))) ∧
    (reaches s p f = true → ans (settle (deliver (some p.val) f v)))

/-- O57. Where the frame reaches its engine: TRAIN and CONTRIB of the present attempt are taken by their holder, of another attempt of the open epoch they are counted and dropped. NOTICE, NEED, QUERY and STATE take their entries one by one, PLAN by stripes; a bad check is counted. CHAIN, AUDIT_FRAME, CHUNK, COLL_NEED, CREDIT, MEMREQ, CANCEL, MEMRSP, GWBULK, COPYRSP and COPY_UNIT go to their engines; a chain or audit train of another attempt of the open epoch is counted and dropped, and an audit train, response or copied unit whose write the coded-store path holds waits with it. Tarragon messages other than waves, among them VERDICT of a group leader and ADMIT_RECORD, go to their actions; one with a bad check is dropped. A wave is sent on at every other port and acts once; a later copy, and a wave of a job torn down here, does nothing. Each then lets the block settle. WHAT THEY DO, of a block out of IDLE: a train or contribution whose columns are all next is written into the parity unit and its header, XORed where the unit stands in its epoch (which header fields are rewritten: model's choice, logs 163, 22); NOTICE lands a contribution; NEED repeats it; QUERY is answered by NOTICE, or by NEED where the contribution is missing; STATE joins its run; PLAN is put in force; a half-chain waits for the other half of its unit; an audit correction of row parity is written (logs 47, 160), a syndrome waits for its stripe's others; a REDUCE piece waits for its span, a GATHER chunk is written into an output of no coded region, COLL_NEED is answered with the kept chunk, CREDIT grants its sends, or is kept for a collective among the next 8; a STORE next in its pair's order is written, alone or out of a gateway's frame; CANCEL of an operation not seen is recorded and answered NOT_APPLIED; a response ends its operation OK and its register takes the data; a copy unit is written; a copy response marks its unit landed, and the last ends the copy OK. -/
def Obligations.FrameEffects : Prop :=
  ∀ (s : State) (p : Port) (h : FrameHdr),
    let run (i : Instr) (b : Payload) (g : State → State) : Prop := reaches s p ⟨h, b⟩ = true → exec i s = .next (settle (g (leaveIdle s)))
    (∀ c : Contrib,
      let stale := c.epoch = s.ep.epoch ∧ c.attempt ≠ s.ep.attempt
      let miss (v : State) : State := { v with cod := { v.cod with codeStat := bump 32 16 v.cod.codeStat } }
      (¬ stale → run (.train p h c) (.contrib c) (holdContrib c) ∧ run (.contrib p h c) (.contrib c) (holdContrib c)) ∧
      (stale → run (.train p h c) (.contrib c) miss ∧ run (.contrib p h c) (.contrib c) miss)) ∧
    (∀ n : NoticeFrame,
      let rows (k : Nat → Instr) : Prop := k 0 = .notice p h n ∧ k 1 = .need p h n ∧ k 2 = .query p h n ∧ k 3 = .stateEntry p h n ∧ k 4 = .plan p h n
      ∀ k : Nat → Instr, rows k →
        (noticeOk n = false → ∀ j, j < 5 → run (k j) (.notice n) fun v => { v with cod := { v.cod with codeStat := bump 16 16 v.cod.codeStat } }) ∧
        (noticeOk n = true → ¬ (n.epoch = s.ep.epoch ∧ n.attempt ≠ s.ep.attempt) →
          (n.typ = 0 → run (k 0) (.notice n) fun v => n.entries.foldl (fun v e => takeNotice n.epoch e v) v) ∧
          (n.typ = 1 → run (k 1) (.notice n) fun v => n.entries.foldl (fun v e => takeNeed n.epoch e v) v) ∧
          (n.typ = 2 → run (k 2) (.notice n) fun v => n.entries.foldl (fun v e => answerQuery n.epoch n.attempt e v) v) ∧
          (n.typ = 3 → n.sub = 0 → run (k 3) (.notice n) fun v => n.entries.foldl (fun v e => takeState h.srcRank n.epoch e v) v) ∧
          (n.typ = 3 → n.sub = 1 → run (k 4) (.notice n) (plansHere h.srcRank n)))) ∧
    let waits (f : Frame) (v : State) : State := { v with cod := { v.cod with heldFrames := v.cod.heldFrames ++ [f] } }
    (∀ x : ChainMsg,
      let stale := x.epoch = s.ep.epoch ∧ x.attempt ≠ s.ep.attempt
      let miss (v : State) : State := { v with cod := { v.cod with codeStat := bump 32 16 v.cod.codeStat } }
      (stale → (h.typ = 4 → run (.chain p h x) (.chain x) miss) ∧ (h.typ = 5 → run (.auditFrame p h x) (.chain x) miss)) ∧
      (¬ stale → (h.typ = 4 → run (.chain p h x) (.chain x) (chainTarget x h.destRank)) ∧
        (h.typ = 5 → fixHeld x (leaveIdle s) = false → run (.auditFrame p h x) (.chain x) (auditHere x)) ∧
        (h.typ = 5 → fixHeld x (leaveIdle s) = true → run (.auditFrame p h x) (.chain x) fun v => markHold 16 (waits ⟨h, .chain x⟩ v)))) ∧
    (∀ c : ChunkMsg, run (.chunk p h c) (.chunk c) (collChunk c) ∧ run (.collNeed p h c) (.chunk c) (collChunk c) ∧ run (.credit p h c) (.chunk c) (collChunk c)) ∧
    (∀ m : MemMsg, (h.typ = 9 → m.op ≠ 13 → run (.memreq p h m) (.mem m) (takeMemreq h m)) ∧ (h.typ = 9 → m.op = 13 → run (.cancel p h m) (.mem m) (takeCancel h m)) ∧
      (h.typ = 10 → respBlocked h m (leaveIdle s) = false → run (.memrsp p h m) (.mem m) (takeMemrsp h m)) ∧
      (h.typ = 10 → respBlocked h m (leaveIdle s) = true → run (.memrsp p h m) (.mem m) fun v => markHold 16 (waits ⟨h, .mem m⟩ v))) ∧
    (∀ ms : List MemMsg, run (.gwbulk p h ms) (.bulk ms) fun v => ms.foldl (fun v m => takeMemreq h m v) v) ∧
    (∀ c : CopyMsg, (h.typ = 12 → run (.copyrsp p h c) (.copyRsp c) (takeCopyrsp h c)) ∧
      (h.typ = 11 → (takeCopyUnit h c (leaveIdle s)).2 = false → run (.copyUnit p h c) (.copy c) fun v => (takeCopyUnit h c v).1) ∧
      (h.typ = 11 → (takeCopyUnit h c (leaveIdle s)).2 = true → run (.copyUnit p h c) (.copy c) fun v => waits ⟨h, .copy c⟩ (takeCopyUnit h c v).1)) ∧
    let u := leaveIdle s
    let goes (i : Instr) (b : Payload) (q : State → Prop) : Prop := reaches s p ⟨h, b⟩ = true → ∃ v, exec i s = .next (settle v) ∧ q v
    (∀ (c : Contrib) (ua ha : Nat), let q := readParHdr u ha
      let r := applied q (parityImg u q ua) c (grpOf u c.slot.val).mode (grpOf u c.slot.val).k
      let took (v : State) : Prop := v.mem = (memWrite ha (parHdrBytes r.2) (memWriteImg ua 4096 r.1 u)).mem
      parityAt u c.slot.val c.stripe c.row.val = some (ua, ha) → ¬ (c.epoch = s.ep.epoch ∧ c.attempt ≠ s.ep.attempt) → squeezedOk c.unit = true → s.exp.state ≠ 2 →
        (∀ k ∈ colsIn c.mask, ∃ n, columnState q k c.epoch = some n ∧ SMap.look 0 c.seq k = n + 1) →
          (q.valid = true → q.epoch = c.epoch → r.1 = xorU (parityImg u q ua) c.unit.bytes) ∧ goes (.train p h c) (.contrib c) took ∧ goes (.contrib p h c) (.contrib c) took) ∧
    (∀ (n : NoticeFrame) (e : NoticeEntry), n.entries = [e] → noticeOk n = true → ¬ (n.epoch = s.ep.epoch ∧ n.attempt ≠ s.ep.attempt) →
      let key := outKey e.slot.val e.stripe e.row.val e.column.val
      (∀ o f, SMap.find s.cod.out key = some o → o.epoch = n.epoch → o.flight = some f →
        (n.typ = 0 → o.pend = none → f.seq ≤ e.seq → goes (.notice p h n) (.notice n) fun v => v = { u with cod := { u.cod with
          out := SMap.put s.cod.out (outKey o.slot o.stripe o.row o.col) { o with flight := none, ready := o.ready.filter fun f => !decide (f.seq ≤ e.seq) } } }) ∧
        (n.typ = 1 → f.seq = e.seq → holderLive u o = true → goes (.need p h n) (.notice n) fun v => v.mem = s.mem ∧ v.cod.noticeStat = bump 0 16 s.cod.noticeStat ∧
          v.cod.out = SMap.put s.cod.out (outKey o.slot o.stripe o.row o.col) { o with flight := some { f with queried := false } })) ∧
      (∀ ua ha, n.typ = 2 → (grpOf u e.slot.val).en = true → parityAt u e.slot.val e.stripe e.row.val = some (ua, ha) →
        let answer (typ k : Nat) (v : State) : Prop := v.mem = s.mem ∧ v = sendEntry typ (columnRank u e.slot.val e.stripe e.column.val) n.epoch n.attempt
          (noticeEntry e.slot.val e.stripe e.row.val e.column.val k) u
        match columnState (readParHdr u ha) e.column.val n.epoch with
        | none => goes (.query p h n) (.notice n) (answer 0 e.seq)
        | some k => (e.seq ≤ k → goes (.query p h n) (.notice n) (answer 0 k)) ∧
            (k < e.seq → goes (.query p h n) (.notice n) fun v => answer 1 e.seq v ∧ v.cod.codeStat = bump 0 16 s.cod.codeStat)) ∧
      (∀ r, n.typ = 3 → n.sub = 0 → e.noImage = false → s.reb.runs = [r] → r.restored = false → (r.decided = false ∨ r.epoch = n.epoch) → plansRun u r = true →
        (∃ j, (e.slot.val, j) ∈ r.slots) → goes (.stateEntry p h n) (.notice n) fun v =>
          let x : StateRec := { slot := e.slot.val, stripe := e.stripe, row := e.row.val, col := e.column.val, count := e.seq
                                past := e.past, suspect := e.suspect, noImage := false, origin := h.srcRank }
          ∃ xs, v = { u with reb := { u.reb with runs := [{ r with states := x :: xs }] } } ∧ (∀ y ∈ xs, y ∈ r.states) ∧
            ∀ y ∈ r.states, (y.slot ≠ x.slot ∨ y.stripe ≠ x.stripe ∨ y.row ≠ x.row ∨ y.col ≠ x.col ∨ y.noImage = true) → y ∈ xs) ∧
      (n.typ = 3 → n.sub = 1 → goes (.plan p h n) (.notice n) fun v => ∃ pl ∈ v.reb.plans, pl.slot = e.slot.val ∧ pl.stripe = e.stripe ∧ pl.target = h.srcRank ∧
        pl.epoch = n.epoch ∧ pl.attempt = n.attempt ∧ pl.cols = [(e.column.val, e.row.val)] ∧ pl.trows = [])) ∧
    (∀ x : ChainMsg, ¬ (x.epoch = s.ep.epoch ∧ x.attempt ≠ s.ep.attempt) → let sl := x.slot.val
      (h.typ = 4 → planFor u x h.destRank = none → goes (.chain p h x) (.chain x) fun v => v = u) ∧
      (∀ pl, h.typ = 4 → planFor u x h.destRank = some pl → halfSources u pl h.destRank 0 ≠ [] → halfSources u pl h.destRank 1 ≠ [] →
        (∀ y ∈ s.reb.halves, y.slot = x.slot → y.stripe = x.stripe → y.tkind = x.tkind → y.index = x.index → y.half = x.half) →
          goes (.chain p h x) (.chain x) fun v => ∃ ys, v = { u with reb := { u.reb with halves := x :: ys } } ∧ ∀ y ∈ ys, y ∈ s.reb.halves) ∧
      (∀ ua ha, h.typ = 5 → x.tkind = 1 → (grpOf u sl).en = true → parityAt u sl x.stripe x.index = some (ua, ha) →
        let q := readParHdr u ha
        let fixed := xorU (parityImg u q ua) x.unit.bytes
        goes (.auditFrame p h x) (.chain x) fun v => v.mem = (memWrite ha (parHdrBytes { q with repaired := true, suspect := false, narrow := false, crc := crcUnit fixed })
          (memWriteImg ua 4096 fixed u)).mem) ∧
      (∀ t, h.typ = 5 → x.tkind = 2 → (grpOf u sl).en = true → x.sources ≠ 0 → parityAt u sl x.stripe x.index = none → t < (grpOf u sl).m → t ≠ x.index →
        (∀ y ∈ s.aud.syn, y.slot = x.slot → y.stripe = x.stripe → y.index ≠ t) →
          goes (.auditFrame p h x) (.chain x) fun v => ∃ ys, v = { u with aud := { u.aud with syn := x :: ys } } ∧ ∀ y ∈ ys, y ∈ s.aud.syn)) ∧
    (∀ (x : ChunkMsg) (c : Coll) (i : Nat), findColl u x.part x.axes x.seq = some c → c.members.findIdx? (· == x.origin) = some i → c.started = true → headFits c x = true →
      let c := { c with same := if c.same.1 = instant u then (c.same.1, c.same.2.1 + 1, c.same.2.2) else (instant u, 1, 0) }
      let w := putColl c u
      (chunkFits c i x = true → crcUnit x.payload = x.crc → (∀ b ∈ x.payload, b.1 < x.bytes) →
        (x.kind = 0 → c.ordered = false → (i, x.span) ∉ c.absorbed →
          let ps := c.pieces.filter (fun z => !(z.origin == i && z.span == x.span && z.piece == x.piece)) ++
            [{ origin := i, kind := 0, span := x.span, piece := x.piece, pieces := x.pieces, bytes := x.bytes, payload := x.payload }]
          let mine := ps.filter fun z => z.origin == i && z.span == x.span
          badPiece mine = none → (∃ k, k < x.pieces ∧ ∀ z ∈ mine, z.piece ≠ k) →
            goes (.chunk p h x) (.chunk x) fun v => v = pump c.part c.axes c.seq (putColl { c with pieces := ps } w)) ∧
        (x.kind = 1 → (i, x.span) ∉ c.gathered → s.exp.state ≠ 2 →
          let d := descOf c.outd
          let ws := streamWrites d ((if c.op = 3 then 0 else boundAt c i / atomElems d * atomBytes d) + 4096 * x.span) (denseU x.bytes 0 x.payload)
          touchedBy ws u = [] → writesBlocked ws w = false → (∀ y ∈ ws, entersSealed u y.1 y.2.length = false) →
            goes (.chunk p h x) (.chunk x) fun v => ∃ z, v = pump c.part c.axes c.seq z ∧ z.mem = (ws.foldl (fun s y => memWrite y.1 y.2 s) u).mem)) ∧
      (∀ y, x.kind = 3 → c.kept.find? (fun y => y.1 == i && y.2.span == x.span && y.2.piece == x.piece && y.2.stage == x.stage) = some y →
        goes (.collNeed p h x) (.chunk x) fun v => v = sendChunk c x.origin y.2 w) ∧
      (x.kind = 4 → goes (.credit p h x) (.chunk x) fun v => v = pumpColls (startData c.part c.axes c.seq (putColl (takeCredit c i x) w)) ∧
        (takeCredit c i x).credits = SMap.put c.credits (creditKey i x.stage) (SMap.look 0 c.credits (creditKey i x.stage) + x.bytes))) ∧
    (∀ x : ChunkMsg, x.kind = 4 → findColl u x.part x.axes x.seq = none → s.coll.openC = [] → SMap.look 0 s.coll.seq (x.part * 16 + x.axes) ≤ x.seq →
      x.seq < SMap.look 0 s.coll.seq (x.part * 16 + x.axes) + 8 → goes (.credit p h x) (.chunk x) fun v =>
        v = { u with coll := { u.coll with credits := s.coll.credits ++ [(x.origin, x)] } }) ∧
    (∀ (m : MemMsg) (x : OpPair), pairFor u h m = some x →
      let stored (v : State) : Prop := v.mem = (pathWrite m.addr.toNat m.data (putPair { x with ops := SMap.put x.ops m.opseq { outcome := 3, msg := some m, hdr := some h } } u)).mem
      (h.typ = 9 → m.op = 1 → x.ops = [] → m.opseq = x.next → memShapeOk m = true → tierOf m.addr.toNat < 2 → padFree s m.addr.toNat = true → inWindow s h.part m.addr.toNat m.size = true →
        writeBlocked m.addr.toNat m.size u = false → goes (.memreq p h m) (.mem m) stored) ∧
      (h.typ = 13 → m.op = 1 → x.ops = [] → m.opseq = x.next → memShapeOk m = true → tierOf m.addr.toNat < 2 → padFree s m.addr.toNat = true → inWindow s h.part m.addr.toNat m.size = true →
        writeBlocked m.addr.toNat m.size u = false → goes (.gwbulk p h [m]) (.bulk [m]) stored) ∧
      (h.typ = 9 → m.op ≠ 13 → SMap.find x.ops m.opseq = none → (m.opseq + 65536 - x.next) % 65536 < 32768 → goes (.memreq p h m) (.mem m) fun v =>
        v = pumpOps x.rank x.part.val (putPair { x with ops := SMap.put x.ops m.opseq { outcome := 3, msg := some m, hdr := some h } } u)) ∧
      (h.typ = 9 → m.op = 13 → SMap.find x.ops m.opseq = none → (m.opseq + 65536 - x.next) % 65536 < 32768 → goes (.cancel p h m) (.mem m) fun v =>
        v = pumpOps x.rank x.part.val (answerMem h m 1 [] (putPair { x with ops := SMap.put x.ops m.opseq { outcome := 2 } } u)))) ∧
    (∀ (m : MemMsg) (o : OpenOp), h.typ = 10 → m.rstat = 0 → findRemote u h.part h.srcRank m.opseq = some o → respBlocked h m u = false →
      goes (.memrsp p h m) (.mem m) fun v => v = remoteEnd h.part o stOk m.data u ∧ o ∉ (partOf v h.part).ops ∧
        ∀ k q g size, o.kind = .remote k q (some g) none size → 0 < g → gReg (partOf v h.part) g = BitVec.ofNat 64 (ofBytes (m.data.take 8))) ∧
    (∀ c : CopyMsg, let a := c.daddr.toNat + 4096 * c.unit
      (h.typ = 11 → tierOf a < 2 → inWindow u h.part a c.bytes = true → crc32c (denseU c.bytes 0 c.payload) = c.crc → padFree u a = true → writeBlocked a c.bytes u = false →
        goes (.copyUnit p h c) (.copy c) fun v => v.mem = (pathWrite a (denseU c.bytes 0 c.payload) u).mem) ∧
      (∀ o, h.typ = 12 → c.rstat = 0 → findCopy u h.part h.srcRank c.copyId = some o →
        let all := if o.landed.contains c.unit then o.landed else c.unit :: o.landed
        (all.length < c.units → goes (.copyrsp p h c) (.copyRsp c) fun v => v = swapOp h.part o { o with landed := all } u) ∧
        (c.units ≤ all.length → goes (.copyrsp p h c) (.copyRsp c) fun v => v = slotOutcome h.part o stOk 0 (dropOp h.part o u)))) ∧
    (∀ (t : Tarra) (r : AdmitRec), let b : Payload := .tarra t none
      (tarraOk t = false → ∀ i ∈ [Instr.report p h t, .probe p h t, .closure p h t, .verdict p h t, .vote p h t, .commitWave p h t], run i b id) ∧
      (tarraOk t = true →
        (t.kind = 0 → run (.report p h t) b (takeReport t)) ∧ (t.kind = 1 → run (.closure p h t) b (takeClosure t)) ∧
        (t.kind = 2 → t.data.testBit 0 = false → t.data.testBit 2 = false → run (.verdict p h t) b (takeVerdict t)) ∧
        (t.kind = 3 → run (.probe p h t) b (takeProbe t)) ∧ (t.kind = 4 → run (.probeAnswer p h t) b (takeAnswer t)) ∧
        (t.kind = 5 → run (.vote p h t) b (takeVote t)) ∧ (t.kind = 7 → run (.guarded p h t) b (takeGuarded t)) ∧
        (t.kind = 8 → run (.groupGuarded p h t) b (takeGroupGuarded t)) ∧ (t.kind = 10 → run (.landed p h t) b (takeLanded t)) ∧
        (t.kind = 13 → run (.restored p h t) b (takeRestored t)) ∧ (t.kind = 15 → run (.quiet p h t) b (takeQuiet t)) ∧
        (t.kind = 16 → run (.collReport p h t) b (takeCollReport (bitsOf 44 4 t.data) (bitsOf 40 4 t.data) (bitsOf 0 32 t.data) (bitsOf 32 8 t.data) t.origin t.epoch)) ∧
        (t.kind = 17 → run (.collDone p h t) b (rootDone (bitsOf 44 4 t.data) (bitsOf 40 4 t.data) (bitsOf 0 32 t.data) t.origin t.epoch)) ∧
        (t.kind = 18 → run (.collOutcome p h t) b (collOutcome (bitsOf 44 4 t.data) (bitsOf 40 4 t.data) (bitsOf 0 32 t.data) (bitsOf 32 8 t.data) t.rank)) ∧
        (t.kind = 20 → run (.admitRecord p h t r) (.tarra t (some r)) (takeAdmit t r)) ∧
        (t.kind = 21 → run (.ready p h t) b (takeReady t.rank t.origin)) ∧ (t.kind = 22 → run (.handover p h t) b (takeHandover t)) ∧
        let flood (v : State) : State := floodOut h.tag t (some p.val) { v with fab := { v.fab with floods := floodKey t :: v.fab.floods } }
        let wave (i : Instr) (k : Nat) (g : State → State) : Prop := t.kind = k →
          (s.pwr.torndown.contains h.tag = true ∨ s.fab.floods.contains (floodKey t) = true → run i b id) ∧
          (s.pwr.torndown.contains h.tag = false → s.fab.floods.contains (floodKey t) = false → run i b fun v => g (flood v))
        wave (.voteResult p h t) 6 (takeVoteResult t) ∧ wave (.guardWave p h t) 9 (takeGuardWave t) ∧ wave (.commitWave p h t) 11 (takeCommitWave t) ∧
        wave (.abortWave p h t) 12 (takeAbortWave t) ∧ wave (.rerunWave p h t) 14 (takeRerunWave t) ∧ wave (.groupLost p h t) 19 (takeGroupLost t)))

/-- O58. Where a wave of the open epoch and attempt, of a job that no TEARDOWN has ended here, reaches the block with a good check and for the first time: VOTE_RESULT PROCEED takes an epoch that has no result to phase guard, SKIP to phase land with SKIP set. GUARD_WAVE takes it to phase update and marks the guard. COMMIT_WAVE makes the epoch durable: the committed epoch is the one that was open, the next one is open in phase gather with attempt 0 and nothing closed, reported or voted, and a slot table that waited is in force (R350); with the last epoch none opens and the epoch limit is set. ABORT_WAVE before the guard wave puts the epoch back to gather in the next attempt, marked for re-run; RERUN_WAVE clears that mark. A wave of another epoch or attempt changes nothing but what it floods. GROUP_LOST marks the group lost and ends the rebuilds, and one already known changes nothing more. THE OTHER MESSAGES, of a block out of IDLE: a COLL_REPORT decides its sequence at the root or is answered with the decision; COLL_DONE is entered, and the last member's decides OK; COLL_OUTCOME ends a started collective and is kept for one that has not started; REPORT starts a probe, joins the reporters of one under way, or for causes 2 and 5 issues the verdict at once; PROBE is answered with the identity; PROBE_ANSWER of the right incarnation and identity ends the probe and is counted; CLOSURE ends report and suspect and puts each UP port that raised it into HOLD (log 72); VERDICT SLOW or QUIET of a leader is noted in TKJ_VERDICT; QUIET enters the rank; GUARDED, VOTE, GROUP_GUARDED, LANDED, HANDOVER and RESTORED of the open epoch are entered at their leader, issuer or spread home; READY enters the survivor; an ADMIT record enters its peer, and an entry of a step record joins the runs that this block plans (the place of an ADMIT record in a message, and step-record entries as messages, are the model's choice, logs 32 and 69). -/
def Obligations.EpochWaves : Prop :=
  (∀ (s : State) (p : Port) (h : FrameHdr) (t : Tarra), tarraOk t = true → reaches s p ⟨h, .tarra t none⟩ = true → s.fab.floods.contains (floodKey t) = false → s.pwr.torndown.contains h.tag = false →
    let n := s.ep.epoch
    let flooded : State := floodOut h.tag t (some p.val) { leaveIdle s with fab := { (leaveIdle s).fab with floods := floodKey t :: s.fab.floods } }
    (current s t = false →
      (t.kind = 6 → exec (.voteResult p h t) s = .next (settle flooded)) ∧ (t.kind = 9 → exec (.guardWave p h t) s = .next (settle flooded)) ∧
      (t.kind = 11 → exec (.commitWave p h t) s = .next (settle flooded)) ∧ (t.kind = 12 → exec (.abortWave p h t) s = .next (settle flooded)) ∧
      (t.kind = 14 → exec (.rerunWave p h t) s = .next (settle flooded))) ∧
    (current s t = true →
      (t.kind = 6 → s.ep.vote = 0 → ∃ v, exec (.voteResult p h t) s = .next (settle v) ∧ v.ep.skip = t.data.testBit 0 ∧
        v.ep.vote = (if t.data.testBit 0 then 2 else 1) ∧ v.ep.phase = (if t.data.testBit 0 then 6 else 4) ∧ v.ep.epoch = n) ∧
      (t.kind = 9 → s.ep.guardWave = false → ∃ v, exec (.guardWave p h t) s = .next (settle v) ∧ v.ep.guardWave = true ∧ v.ep.phase = 5 ∧ v.ep.epoch = n) ∧
      (t.kind = 11 → ∃ v, exec (.commitWave p h t) s = .next (settle v) ∧ v.ep.committed = n ∧ v.ep.attempt = 0 ∧ v.ep.closed = false ∧ v.ep.landedRep = false ∧
        v.ep.voted = false ∧ v.ep.vote = 0 ∧ v.ep.guardWave = false ∧ v.ep.epoch = (if n = 0xFFFFFFFE then n else n + 1) ∧
        v.ep.phase = (if n = 0xFFFFFFFE then 0 else 1) ∧ v.ep.limit = decide (n = 0xFFFFFFFE) ∧
        (∀ b, s.mode.tableNext = some b → v.mode.table = some b ∧ v.mode.tableNext = none ∧ v.mode.tableCrc = crc32c b)) ∧
      (t.kind = 12 → s.ep.guardWave = false → isIssuer s = false → ∃ v, exec (.abortWave p h t) s = .next (settle v) ∧ v.ep.rerun = true ∧ v.ep.phase = 1 ∧
        v.ep.attempt = (s.ep.attempt + 1) % 256 ∧ v.ep.epoch = n ∧ v.ep.closed = false ∧ v.ep.vote = 0) ∧
      (t.kind = 14 → s.ep.rerun = true → ∃ v, exec (.rerunWave p h t) s = .next (settle v) ∧ v.ep.rerun = false ∧ v.ep.phase = s.ep.phase ∧ v.ep.epoch = n)) ∧
    let hit := (slotsOn s).filter fun sl => (grpOf s sl).rank0 == t.rank && (grpOf s sl).axis == t.data % 4
    (t.kind = 19 → hit ≠ [] → (∀ sl ∈ hit, (grpOf s sl).lost = true) → exec (.groupLost p h t) s = .next (settle flooded)) ∧
    (t.kind = 19 → (hit = [] ∨ ∃ sl ∈ hit, (grpOf s sl).lost = false) → ∃ v, exec (.groupLost p h t) s = .next (settle v) ∧ v.reb.active = false ∧ v.reb.plans = [] ∧
      v.reb.halves = [] ∧ (∀ r ∈ v.reb.runs, r.closed = true) ∧ v.tar.issuer.awaiting = true ∧
      (s.coll.openC = [] → s.ep.phase = 0 ∨ (t.epoch = s.ep.epoch ∧ t.attempt ≠ s.ep.attempt) →
        (∀ x ∈ s.part, x.2.ops = [] ∧ x.2.long = none ∧ x.2.cur = none ∧ x.2.wait = none) → ∀ sl ∈ hit, (grpOf v sl).lost = true))) ∧
  ∀ (s : State) (p : Port) (h : FrameHdr) (t : Tarra), tarraOk t = true → reaches s p ⟨h, .tarra t none⟩ = true →
    let u := leaveIdle s
    let goes (i : Instr) (q : State → Prop) : Prop := ∃ v, exec i s = .next (settle v) ∧ q v
    let part := bitsOf 44 4 t.data
    let axes := bitsOf 40 4 t.data
    let seq := bitsOf 0 32 t.data
    let st := bitsOf 32 8 t.data
    (t.kind = 16 → (∀ k, (collOuts s part axes).find? (fun k => k.seq == seq) = some k → goes (.collReport p h t) fun v => v = sendColl 18 t.origin k.rank t.epoch seq k.status axes part u) ∧
      ((∀ k ∈ collOuts s part axes, k.seq ≠ seq) → (collOuts s part axes).length < 16 → st ≠ stCollTimeout → goes (.collReport p h t) fun v =>
        { part := part, axes := axes, seq := seq, status := st, rank := t.origin } ∈ collOuts v part axes ∧ ∀ r ∈ v.coll.roots, ¬ (r.part = part ∧ r.axes = axes ∧ r.seq = seq))) ∧
    (t.kind = 17 → (∀ k ∈ collOuts s part axes, k.seq ≠ seq) → ∀ r : CollRoot, r.part = part → r.axes = axes → r.seq = seq →
      (s.coll.roots.find? (fun y => y.part == part && y.axes == axes && y.seq == seq) = some r ∨ (r.done = [] ∧ ∀ y ∈ s.coll.roots, ¬ (y.part = part ∧ y.axes = axes ∧ y.seq = seq))) →
        let done := if r.done.contains t.origin then r.done else t.origin :: r.done
        ((∃ m ∈ memberSet u axes, m ∉ done) → goes (.collDone p h t) fun v => { r with done := done } ∈ v.coll.roots ∧ v.coll.decided = s.coll.decided) ∧
        ((∀ m ∈ memberSet u axes, m ∈ done) → goes (.collDone p h t) fun v => { part := part, axes := axes, seq := seq, status := stOk, rank := servedRank s } ∈ v.coll.decided)) ∧
    (t.kind = 18 → (findColl s part axes seq = none → SMap.look 0 s.coll.seq (part * 16 + axes) ≤ seq → (∀ k ∈ s.coll.kept, k.part = part → k.axes = axes → k.seq ≠ seq) →
        (s.coll.kept.filter fun k => k.part == part && k.axes == axes).length < 16 → goes (.collOutcome p h t) fun v =>
          v = { u with coll := { u.coll with kept := ⟨part, axes, seq, st, t.rank⟩ :: s.coll.kept } }) ∧
      (∀ c, findColl s part axes seq = some c → c.started = true → let late := if c.same.1 = instant u then c.same.2 else (0, 0)
        goes (.collOutcome p h t) fun v => v = startWaiting (collEnd c st t.rank { u with coll := { u.coll with
          stat := bumpBy 32 16 late.1 (setFld 48 16 (chunkBad s - late.2) s.coll.stat) } }))) ∧
    (t.kind = 0 → s.ep.phase = 0 → goes (.report p h t) fun v => v = u) ∧
    (t.kind = 0 → s.ep.phase ≠ 0 → (∀ q, SMap.find s.job.peers t.rank = some q → q.inc ≤ t.inc) → let storm := bumpBy 32 32 t.count s.tar.storm
      let again := s.tar.counted.contains (t.rank, t.inc)
      let tar : Tar := { s.tar with storm := if again then storm else bump 0 32 storm, counted := if again then s.tar.counted else (t.rank, t.inc) :: s.tar.counted }
      (∀ y, s.tar.probes.find? (fun y => y.rank == t.rank && y.inc == t.inc) = some y → t.cause ≠ 2 → t.cause ≠ 5 → y.reporters.contains t.origin = false →
        goes (.report p h t) fun v => v = { u with tar := { u.tar with storm := storm, probes := { y with reporters := t.origin :: y.reporters } :: s.tar.probes.filter (· != y) } }) ∧
      ((∀ y ∈ s.tar.probes, ¬ (y.rank = t.rank ∧ y.inc = t.inc)) → s.tar.failed.contains (t.rank, t.inc) = false →
        (t.cause ≠ 2 → t.cause ≠ 5 → goes (.report p h t) fun v => v.mem = s.mem ∧
          v.tar = { tar with probes := { rank := t.rank, inc := t.inc, reporters := [t.origin] } :: s.tar.probes }) ∧
        (t.cause = 2 ∨ t.cause = 5 → goes (.report p h t) fun v => v = issueVerdict (if t.cause = 2 then 3 else 1) t.rank t.inc { u with tar := tar }))) ∧
    (t.kind = 3 → goes (.probe p h t) fun v => v = sendTarra t.origin { tarraOf u 4 (servedRank s) s.job.inc s.ep.epoch with data := s.fuse.identity.toNat } u) ∧
    (∀ y, t.kind = 4 → s.tar.probes.find? (fun y => y.rank == t.rank) = some y → t.inc = y.inc → (∀ q, SMap.find s.job.peers t.rank = some q → t.data = q.identity.toNat) →
      goes (.probeAnswer p h t) fun v => v.tar.probes = s.tar.probes.filter (· != y) ∧ v.tar.verdict = bump 32 12 s.tar.verdict ∧ v.mem = s.mem) ∧
    (t.kind = 1 → goes (.closure p h t) fun v => (∀ r ∈ v.tar.reports, ¬ (r.rank = t.rank ∧ r.inc = t.inc)) ∧ (t.rank, t.inc) ∉ v.tar.suspects ∧
      ∀ q, q < 8 → let x := portOf s q
        ((∀ r, x.record = some r → r.rank = t.rank → x.suspect = false) → portOf v q = x) ∧
        (∀ r, x.record = some r → r.rank = t.rank → x.suspect = true → (portOf v q).suspect = false ∧ (portOf v q).missed = 0 ∧
          (x.state = .up → (portOf v q).state = .hold ∧ (portOf v q).holdTill = s.clk.wall + 100000000) ∧ (x.state ≠ .up → (portOf v q).state = x.state))) ∧
    (t.kind = 2 → t.data.testBit 0 = false → t.data.testBit 2 = false →
      (s.ep.phase = 0 → goes (.verdict p h t) fun v => v = u) ∧
      (s.ep.phase ≠ 0 → t.cause = 2 ∨ t.cause = 4 → isIssuer s = false → s.tar.heard.contains (t.cause, t.rank, t.inc) = true → goes (.verdict p h t) fun v =>
        v.tar.verdict = s.tar.verdict ∧ v.tar.quiet = s.tar.quiet ∧ v.keep = s.keep) ∧
      (s.ep.phase ≠ 0 → t.cause = 2 ∨ t.cause = 4 → isIssuer s = false → s.tar.heard.contains (t.cause, t.rank, t.inc) = false → goes (.verdict p h t) fun v =>
        v.tar.verdict = BitVec.ofNat 64 (pack [(32, t.inc), (12, fld 32 12 s.tar.verdict), (17, t.rank), (3, t.cause)]) ∧ v.tar.failed = s.tar.failed ∧
          v.tar.quiet = if t.cause = 4 then t.rank :: s.tar.quiet.filter (· != t.rank) else s.tar.quiet)) ∧
    (t.kind = 15 → goes (.quiet p h t) fun v => v.tar.quiet = t.rank :: s.tar.quiet.filter (· != t.rank) ∧ v.mem = s.mem) ∧
    (current s t = true →
      (t.kind = 7 → goes (.guarded p h t) fun v => v.mem = s.mem ∧ v.tar.leader.guarded = (t.origin, t.epoch, t.attempt) :: s.tar.leader.guarded.filter fun x => x.1 != t.origin && x.2.1 == t.epoch) ∧
      (isIssuer s = true →
        (t.kind = 5 → goes (.vote p h t) fun v => v.mem = s.mem ∧ v.tar.issuer.votes = SMap.put s.tar.issuer.votes t.origin (t.data.testBit 0)) ∧
        (t.kind = 8 → goes (.groupGuarded p h t) fun v => v.mem = s.mem ∧
          v.tar.issuer.groups = (t.rank, t.cause % 4) :: s.tar.issuer.groups.filter (· != (t.rank, t.cause % 4))) ∧
        (t.kind = 10 → goes (.landed p h t) fun v => v.mem = s.mem ∧ v.tar.issuer.landed = t.origin :: s.tar.issuer.landed.filter (· != t.origin)) ∧
        (t.kind = 22 → s.tar.issuer.taking = false → goes (.handover p h t) fun v =>
          v = setIssuer (fun i => { i with handover := SMap.put i.handover t.origin (t.epoch, t.attempt, t.data) }) u))) ∧
    (t.kind = 13 → (∀ r, rebOf s t.rank = some r → r.spread = true → plansRun s r = true → t.origin ≠ runRank r → goes (.restored p h t) fun v =>
        v = putRun { r with hostsDone := t.origin :: r.hostsDone.filter (· != t.origin), event := if r.event = 0 then t.data else r.event } u) ∧
      (rebOf s t.rank = none → isIssuer s = true → goes (.restored p h t) fun v => v.mem = s.mem ∧ v.tar.issuer.restored = t.rank :: s.tar.issuer.restored.filter (· != t.rank))) ∧
    (∀ r, t.kind = 21 → rebOf s t.rank = some r → plansRun s r = true → goes (.ready p h t) fun v => v = putRun { r with ready := t.origin :: r.ready.filter (· != t.origin) } u) ∧
    (∀ r : AdmitRec, t.kind = 20 → reaches s p ⟨h, .tarra t (some r)⟩ = true →
      (∀ id, r = .identity id → s.job.exchanged = false → goes (.admitRecord p h t r) fun v => ∃ w : State, v = exchangeStep w ∧
        w.job.peers = SMap.put s.job.peers t.rank { SMap.look {} s.job.peers t.rank with identity := id, inc := t.inc }) ∧
      (r = .done → s.job.exchanged = false → goes (.admitRecord p h t r) fun v => ∃ w : State, v = exchangeStep w ∧
        w.job.peers = SMap.put s.job.peers t.rank { SMap.look {} s.job.peers t.rank with done := true, inc := t.inc }) ∧
      (∀ i e, r = .step i e →
        let joined (x : Rebuild) : Rebuild := if !x.restored && !x.rolled && (!x.decided || x.epoch == t.epoch) && plansRun s x then { x with steps := SMap.put x.steps i e } else x
        goes (.admitRecord p h t r) fun v => v = { u with reb := { u.reb with runs := s.reb.runs.map joined } }))

/-- O59. While the core is down these 19 events change nothing. Otherwise each answers a next state in which the block settles. TRAIN_WINDOW_EXPIRY sends the stored train on and counts a bypass where this block still owed a term. RELAY_TRAIN sends a ready contribution as a train. NOTICE_BATCH_TIMER empties the batch of a rank. NOTICE_TIMER_EXPIRY queries an unlanded contribution, and repeats it at the next expiry, and counts both. EPOCH_CLOSE closes the epoch, REPORT_LANDED and REPORT_GUARDED report once, where their conditions hold. AUDIT_LAP_START starts a lap, which ends at once where no stripe is this block's to decide (the model's reading, log 181). REBUILD_START starts a run whose survivors are ready; ROLL_FORWARD rolls a run forward once; RESTORE_COMPLETE ends a run. COLL_TIMER_EXPIRY before DONE reports COLL_TIMEOUT and counts it, once. REPORT_RESEND sends an own report again. MERGE_KEY_EXPIRY ends a merge key. PROBE_TIMEOUT ends the probe. RSP_TIMEOUT counts a CANCEL, and after four ends the operation CHECK_FAIL. GW_FLUSH sends what the gateway holds. FRAME_HOLD_EXPIRY reroutes a held frame or fails its operation. DRAIN_UNIT takes one unit of an export, in chervil mode in a slot that gives the tier mover to its partition (R351), past shards that this block does not write. Where the condition of an event does not hold it has no effect of its own. -/
def Obligations.EngineEvents : Prop :=
  ∀ s : State,
    (coreUp s = false → ∀ i ∈ [Instr.noticeBatchTimer 0, .epochClose, .reportLanded, .reportGuarded, .auditLapStart, .rebuildStart, .rollForward, .restoreComplete, .drainUnit], exec i s = .next s) ∧
    (coreUp s = false → ∀ (g : Slot) (st r inc n : Nat) (t : Fin 4) (c : Fin 16) (p : Part), ∀ i ∈ [Instr.trainWindowExpiry g st t, .relayTrain g st t, .noticeBatchTimer r,
      .noticeTimerExpiry g st t c, .collTimerExpiry p c n, .reportResend r inc, .mergeKeyExpiry r inc, .probeTimeout r inc, .rspTimeout p r n, .gwFlush r, .frameHoldExpiry n], exec i s = .next s) ∧
    (coreUp s = true →
      let run (i : Instr) (q : State → Prop) : Prop := ∃ v, exec i s = .next (settle v) ∧ v.mem = s.mem ∧ q v
      let idle (i : Instr) : Prop := exec i s = .next (settle s);
      (∀ (g : Slot) (st : Nat) (t : Fin 4),
        (s.cod.store.find? (trainIs s g.val st t.val) = none → idle (.trainWindowExpiry g st t)) ∧
        (∀ x c, s.cod.store.find? (trainIs s g.val st t.val) = some x → x.frame.body = .contrib c →
          let u : State := { s with cod := { s.cod with store := s.cod.store.filter (· != x) } }
          let owed := (ownedCols u c.slot.val c.stripe).filter (stillOwed u c.slot.val c.stripe c.row.val)
          run (.trainWindowExpiry g st t) fun v => v.cod.store = u.cod.store ∧ v.cod.trainStat = if owed = [] then s.cod.trainStat else bump 48 16 s.cod.trainStat) ∧
        ((∀ c ∈ ownedCols s g.val st, (outFor s s.ep.epoch g.val st t.val c).ready = none) → idle (.relayTrain g st t)) ∧
        (∀ c f, ownedCols s g.val st = [c] → let o := outFor s s.ep.epoch g.val st t.val c;
          o.ready = some f → o.bypassed = false → holderLive s o = true → run (.relayTrain g st t) fun v => v.cod.trainStat = bump 32 16 s.cod.trainStat ∧
            v.cod.out = SMap.put s.cod.out (outKey o.slot o.stripe o.row o.col) { o with ready := none, flight := some f }) ∧
        ∀ c : Fin 16, let e := SMap.find s.cod.out (outKey g.val st t.val c.val);
          ((∀ o, e = some o → o.flight = none ∨ holderLive s o = false) → idle (.noticeTimerExpiry g st t c)) ∧
          (∀ o f, e = some o → o.flight = some f → holderLive s o = true → run (.noticeTimerExpiry g st t c) fun v =>
            v.cod.out = SMap.put s.cod.out (outKey o.slot o.stripe o.row o.col) { o with flight := some { f with queried := !f.queried } } ∧
            v.cod.noticeStat = if f.queried then bump 0 16 s.cod.noticeStat else bump 16 16 s.cod.noticeStat)) ∧
      (∀ r, run (.noticeBatchTimer r) fun v => v.cod.batches = SMap.del s.cod.batches r ∧ v.part = s.part) ∧
      (let may := s.ep.phase = 6 ∧ s.ep.closed = false ∧ (s.ep.skip = true ∨ s.ep.updEnded = true) ∧ stepStands s = false ∧ s.ep.rerun = false;
        (may → run .epochClose fun v => v.ep = { s.ep with closed := true }) ∧ (¬ may → idle .epochClose)) ∧
      (landedNow s = true → ∃ v, exec .reportLanded s = .next (settle v) ∧ v.ep.landedRep = true ∧ v.ep.phase = 7) ∧ (landedNow s = false → idle .reportLanded) ∧
      (guardedNow s = true → run .reportGuarded fun v => v.ep = { s.ep with guardedRep := true }) ∧ (guardedNow s = false → idle .reportGuarded) ∧
      (maintSlot s 1 = false → exec .auditLapStart s = .next s) ∧
      (maintSlot s 1 = true → bit 63 s.aud.ctl.now = true → codingOn s = true → auditPaused s = false →
        run .auditLapStart fun v => v.aud.lapStart = s.clk.wall ∧ (v.aud.running = true ∨ (v.aud.left = [] ∧ v.aud.lapEnd = s.clk.wall))) ∧
      (let may (r : Rebuild) := plansRun s r = true ∧ r.restored = false ∧ (∀ q ∈ s.reb.runs, q.restored = true ∨ q.decided = true) ∧ ∀ m ∈ survivors s r, m ∈ r.ready;
        ((∀ r ∈ s.reb.runs, ¬ may r) → idle .rebuildStart) ∧
        (∀ r, s.reb.runs = [r] → may r → ∃ v, exec .rebuildStart s = .next (settle v) ∧ v.reb.active = true ∧ (rebOf v r.failed).map (·.started) = some true)) ∧
      (let may (r : Rebuild) := writesRun s r = true ∧ r.decided = true ∧ r.aborted = false ∧ r.rolled = false ∧ r.restored = false ∧ (r.started = true ∨ r.spread = true) ∧ r.epoch = s.ep.epoch ∧
          ∀ u ∈ unitsToWrite s r, u ∈ r.doneU;
        ((∀ r ∈ s.reb.runs, ¬ may r) → idle .rollForward) ∧
        (∀ r, s.reb.runs = [r] → may r → ∃ v, exec .rollForward s = .next (settle v) ∧ v.reb.runs = [{ r with rolled := true }])) ∧
      (let may (r : Rebuild) := writesRun s r = true ∧ r.restored = false ∧ partDone s r = true ∧
          (plansRun s r = true → r.spread = true → ∀ m ∈ survivors s r, m ≠ selfRank s → m ≠ runRank r → m ∈ r.hostsDone);
        ((∀ r ∈ s.reb.runs, ¬ may r) → idle .restoreComplete) ∧
        (∀ r, s.reb.runs = [r] → may r → ∃ v, exec .restoreComplete s = .next (settle v) ∧ v.reb.runs = [{ r with restored := true }] ∧ v.reb.active = false)) ∧
      (∀ (p : Part) (a : Fin 16) (n : Nat), let may (c : Coll) := c.started = true ∧ c.doneSent = false ∧ c.timedOut = false;
        ((∀ c, findColl s p.val a.val n = some c → ¬ may c) → idle (.collTimerExpiry p a n)) ∧
        (∀ c, findColl s p.val a.val n = some c → may c → run (.collTimerExpiry p a n) fun v => v.coll.stat = bump 0 16 s.coll.stat ∧
          findColl v p.val a.val n = some { c with timedOut := true, reportSent := true })) ∧
      (∀ r inc, let own := s.tar.reports.find? fun x => x.rank == r && x.inc == inc;
        (own = none → idle (.reportResend r inc)) ∧ (∀ x, own = some x → exec (.reportResend r inc) s = .next (settle (sendReportOf x s)) ∧ (sendReportOf x s).tar = s.tar ∧
          (sendReportOf x s).mem = s.mem) ∧
        exec (.mergeKeyExpiry r inc) s = .next { s with tar := { s.tar with merge := s.tar.merge.filterMap fun k =>
          if k.rank = r ∧ k.inc = inc then (if k.count = 0 then none else some { k with live := false }) else some k } } ∧
        let is (x : Probe) : Bool := x.rank == r && x.inc == inc;
        (s.tar.probes.any is = false → idle (.probeTimeout r inc)) ∧
        (s.tar.probes.any is = true → run (.probeTimeout r inc) fun v => v = issueVerdict 1 r inc { s with tar := { s.tar with probes := s.tar.probes.filter fun x => !is x } } ∧
          v.tar.probes.any is = false)) ∧
      (∀ (p : Part) (r n : Nat), (findRemote s p.val r n = none → idle (.rspTimeout p r n)) ∧
        ∀ o, findRemote s p.val r n = some o →
          (o.cancels < 4 → run (.rspTimeout p r n) fun v => v.fab.memopStat = bump 48 16 s.fab.memopStat ∧
            partOf v p.val = { partOf s p.val with ops := (partOf s p.val).ops.map fun y => if y = o then { o with cancels := o.cancels + 1 } else y }) ∧
          (4 ≤ o.cancels → ∃ v, exec (.rspTimeout p r n) s = .next (settle v) ∧ v = remoteEnd p.val o stCheckFail [] { s with fab := { s.fab with memopStat := bump 32 16 s.fab.memopStat } } ∧
            o ∉ (partOf v p.val).ops)) ∧
      (∀ r, (gwHeld s r = [] → idle (.gwFlush r)) ∧ (∀ x c, gwHeld s r = [x] → translate s r = some c → run (.gwFlush r) fun v =>
        v.fab.gw = SMap.del s.fab.gw r ∧ v.fab.memopStat = bump 0 16 s.fab.memopStat)) ∧
      (∀ n, (s.fab.held[n]? = none → idle (.frameHoldExpiry n)) ∧ ∀ p f, s.fab.held[n]? = some (p, f) →
        let u : State := { s with fab := { s.fab with held := s.fab.held.eraseIdx n } }
        let alt := (alternatives u f.hdr p).find? fun x => portServes u f.hdr.typ x.1;
        (∀ x, alt = some x → run (.frameHoldExpiry n) fun v => v = countReroute (transmit none x.1 ⟨x.2, f.body⟩ u)) ∧
        (alt = none → exec (.frameHoldExpiry n) s = .next (settle (frameFails f u)))) ∧
      (s.exp.state ≠ 2 → exec .drainUnit s = .next s) ∧
      (s.exp.state = 2 → s.exp.stream = false → moverFree s s.exp.part.val = false → exec .drainUnit s = .next s) ∧
      (s.exp.state = 2 → s.exp.stream = false → s.exp.out = [] → moverFree s s.exp.part.val = true → ∀ m, s.exp.map[s.exp.shard]? = some m →
        (s.exp.own.contains m = false → s.exp.shard + 1 < s.exp.map.length → ∃ v, exec .drainUnit s = .next v ∧ v.exp = { s.exp with shard := s.exp.shard + 1, unit := 0 } ∧
          v.mem = s.mem ∧ (regionOf v m.region).exportPend = false) ∧
        (s.exp.own.contains m = true → 4096 * (s.exp.unit + 1) < storedLen (cutRegion s m.region) m.elems → (∀ a, (memTouch a 4096 s).2 = false) →
          (∀ a, pendLocked a 4096 s = false) → s.badWrite = [] →
          ∃ v, exec .drainUnit s = .next v ∧ v.exp.state = 2 ∧ v.exp.unit = s.exp.unit + 1 ∧ v.exp.doneU = s.exp.doneU + 1 ∧ v.exp.shard = s.exp.shard ∧
            v.exp.taken.contains (m.region, s.exp.unit) = true)))

/-- O60. A write of the surroundings into a shared, sealed or free EXPERIENCE page is not applied and is counted in class 7, on the coded-store path and by a tap. A coded-store write that the path cannot take is held; one outside coded regions writes its bytes and no others. A tap write waits while TAP is held, else writes its bytes. Neither reaches the block's own areas of T0. TAP_POISON counts and marks the line of T1 and starts its repair; none comes while TAP is held (the model's choice, log 198). ACQUIRE counts a reader of the active bay and answers with it, unless the count is full; READER_RELEASE counts one down, and counts one too many. ALLOC gives the lowest free page with count 1, or answers NO_ROOM and counts it. OPEN of a page of one reference and not sealed answers that page; of another it takes a reference and starts a copy in the lowest free page, or answers NO_ROOM; with no reference it answers NO_ROOM and counts (the model's choice, log 36). RETAIN adds a reference, RELEASE takes one; RETAIN of a free page, and RELEASE without a reference, count as ignored. COW_COPY_DONE gives the copy a reference, takes both references off its source, and answers it. SEAL_ACCEPT seals a page that still has a reference; OPEN, RETAIN and RELEASE of a page whose SEAL stands wait for it. PREFETCH_START starts the eligible transfer that is next of its schedule and has room among the 64 in the order in which transfers became eligible, in chervil mode at the first cycle of a slot that gives the tier mover to its partition, which then holds it; one that leaves its partition's windows, or that would write T2 or T3 while a partition is bound, marks the fault (the model's choice, log 177). PREFETCH_ARRIVAL puts the bytes at DST and adds 1 to its tally and to no other, or marks the fault; it waits while a granule holds a unit of the export (R398). -/
def Obligations.TapWritesAndSurroundings : Prop :=
  ∀ s : State, MemCanonical s →
    let v := leaveIdle s
    let wrote (a : Nat) (bs : List Byte) (u : State) : Prop := sameMemBut a bs.length s u ∧ ∀ k, k < bs.length → uget u.mem (a + k) = bs.getD k 0;
    (∀ (a : Word) (bs : List Byte), let n := a.toNat;
      (inBlockArea n bs.length = true → exec (.codedStoreWrite a bs) s = .fault .blockArea ∧ exec (.experienceTapWrite a bs) s = .fault .blockArea) ∧
      (inBlockArea n bs.length = false →
        (coreUp s = true → unlogged s = true → s.pwr.padHold.testBit 0 = false →
          let clash := s.cod.held.any fun k => decide (k.addr.toNat < n + bs.length ∧ n < k.addr.toNat + k.data.length)
          let blocked := clash || writeBlocked n bs.length s;
          (pageWriteOk s n bs.length = false → exec (.codedStoreWrite a bs) s = .next (settle (violate 7 v))) ∧
          (pageWriteOk s n bs.length = true → blocked = true →
            exec (.codedStoreWrite a bs) s = .next (settle (holdWrite a bs (if touchesCoded s n bs.length then countCsWrite v else v)))) ∧
          (pageWriteOk s n bs.length = true → blocked = false → exec (.codedStoreWrite a bs) s = .next (settle (pathWrite n bs v)) ∧
            (plainWrite s n bs.length = true → wrote n bs (pathWrite n bs v)))) ∧
        (tapFree s = false → exec (.experienceTapWrite a bs) s = .next s) ∧
        (tapFree s = true → pageWriteOk s n bs.length = false → exec (.experienceTapWrite a bs) s = .next (violate 7 s)) ∧
        (tapFree s = true → pageWriteOk s n bs.length = true → (tierOf n = 0 → splitOn s = false) →
          ∃ u, exec (.experienceTapWrite a bs) s = .next u ∧ u.part = s.part ∧ u.cod = s.cod ∧ wrote n bs u)) ∧
      let l := n / 64 * 64
      let u : State := { s with poison := if s.poison.contains l then s.poison else l :: s.poison, tap := { s.tap with stat := bump 48 16 s.tap.stat } };
      (tierOf n ≠ 1 ∨ coreUp s = false ∨ tapFree s = false → exec (.tapPoison a) s = .next s) ∧
      (tierOf n = 1 → coreUp s = true → tapFree s = true → exec (.tapPoison a) s = .next (settle (repairLine l u)))) ∧
    (coreUp s = true → unlogged s = true → s.pwr.padHold.testBit 2 = false →
      let run (i : Instr) (q : State → Prop) : Prop := ∃ u, exec i s = .next (settle u) ∧ u.mem = s.mem ∧ u.part = s.part ∧ q u
      let answered (r : Resp) (u : State) : Prop := u.fab = { s.fab with resp := r :: s.fab.resp };
      (∀ e : Fin 32, let x := pubOf s e.val
        let b := activeB s x
        let full := 65535 ≤ if b then x.readersB else x.readersA;
        (full → run (.acquire e) fun u => onlyPub e.val { v with fab := u.fab } u ∧ pubOf u e.val = { x with cnt := bump 0 16 x.cnt } ∧ answered .refusedBay u) ∧
        (¬ full → run (.acquire e) fun u => onlyPub e.val { v with fab := u.fab } u ∧
          pubOf u e.val = (if b then { x with readersB := x.readersB + 1 } else { x with readersA := x.readersA + 1 }) ∧
          answered (.bay b (if b then x.bayB else x.bayA) (if b then x.epochB else x.epochA)) u) ∧
        (∀ c : Bool, run (.readerRelease e c) fun u => onlyPub e.val v u ∧
          pubOf u e.val = if (if c then x.readersB else x.readersA) = 0 then { x with cnt := bump 0 16 x.cnt }
            else if c then { x with readersB := x.readersB - 1 } else { x with readersA := x.readersA - 1 })) ∧
      (lowestFree s = none → run .alloc fun u => answered .noRoom u ∧ u.page = (countNoRoom s).page) ∧
      (∀ n, lowestFree s = some n → run .alloc fun u => answered (.page n) u ∧ pageOf u n = { pageOf s n with ref := 1, isSealed := false } ∧ ∀ k, k ≠ n → pageOf u k = pageOf s k) ∧
      (∀ n, s.page.seals.contains n = true → let waits (i : Instr) (k : Nat) : Prop := run i fun u => u.page = { s.page with waiting := s.page.waiting ++ [(k, n)] };
        waits (.openPage n) 1 ∧ waits (.retain n) 2 ∧ waits (.release n) 3) ∧
      (∀ n, s.page.seals.contains n = false → let x := pageOf s n;
        (x.ref = 0 → run (.openPage n) (fun u => answered .noRoom u ∧ u.page = (countIgnored s).page) ∧
          run (.release n) fun u => u.page = (countIgnored s).page) ∧
        (recFree x = true → run (.retain n) fun u => u.page = (countIgnored s).page) ∧
        (x.ref = 1 → x.isSealed = false → run (.openPage n) fun u => answered (.page n) u ∧ u.page = s.page) ∧
        (x.ref ≠ 0 → (x.ref ≠ 1 ∨ x.isSealed = true) → (lowestFree s = none → run (.openPage n) fun u => answered .noRoom u ∧ u.page = (countNoRoom s).page) ∧
          ∀ d, lowestFree s = some d → run (.openPage n) fun u => u.page.cow = s.page.cow ++ [(n, d)] ∧ (pageOf u n).ref = x.ref + 1 ∧ (pageOf u d).copying = true) ∧
        (recFree x = false → (65535 ≤ x.ref → run (.retain n) fun u => answered .noRoom u ∧ u.page = s.page) ∧
          (x.ref < 65535 → run (.retain n) fun u => pageOf u n = { x with ref := x.ref + 1 } ∧ ∀ k, k ≠ n → pageOf u k = pageOf s k)) ∧
        (x.ref ≠ 0 → run (.release n) fun u => (pageOf u n).ref = x.ref - 1 ∧ (pageOf u n).retiring = (x.retiring || (decide (x.ref = 1) && x.isSealed)) ∧
            ∀ k, k ≠ n → pageOf u k = pageOf s k))) ∧
    (coreUp s = true →
      (∀ d, (s.page.cow.find? (fun x => x.2 == d) = none → exec (.cowCopyDone d) s = .next (settle s)) ∧
        ∀ n a b r q, s.page.cow.find? (fun x => x.2 == d) = some (n, d) → pageLoc s n = some (r, q, a) → (∃ r' q', pageLoc s d = some (r', q', b)) → n ≠ d → cleanRead s a 65536 = true → tierOf b = 1 →
          s.exp.state ≠ 2 → pendLocked b 65536 s = false → ∃ u, exec (.cowCopyDone d) s = .next (settle u) ∧ pageOf u d = { pageOf s d with ref := (pageOf s d).ref + 1, isSealed := false, copying := false } ∧
            (pageOf u n).ref = (pageOf s n).ref - 2 ∧ u.fab.resp.head? = some (.page d) ∧ sameMemBut b 65536 s u ∧ ∀ k, k < 65536 → uget u.mem (b + k) = uget s.mem (a + k)) ∧
      (∀ n, (n ∉ s.page.seals → exec (.sealAccept n) s = .next (settle s)) ∧ (n ∈ s.page.seals → (∀ x ∈ s.page.waiting, x.2 ≠ n) →
        ∃ u, exec (.sealAccept n) s = .next (settle u) ∧ u.page.seals = s.page.seals.filter (· != n) ∧ u.mem = s.mem ∧
          pageOf u n = if (pageOf s n).ref = 0 then pageOf s n else { pageOf s n with isSealed := true })) ∧
      (∀ (p : Part) (n : Nat), let f := (partOf s p.val).pf;
        (f.entries[n]? = none → exec (.prefetchStart p n) s = .next s ∧ exec (.prefetchArrival p n) s = .next s) ∧
        ∀ e, f.entries[n]? = some e →
          let may := moverFree s p.val = true ∧ padFree s e.src.toNat = true ∧ padFree s e.dst.toNat = true ∧ pfNext s f n = true ∧ pfInFlight s + pfPlace s p.val < Config.maxTransfers;
          (¬ may → exec (.prefetchStart p n) s = .next s) ∧
          (may → pfAllowed s p.val e = true → ∃ u, exec (.prefetchStart p n) s = .next u ∧ onlyPart p.val s { u with tap := s.tap, mode := s.mode } ∧
            { u.mode with held := s.mode.held } = s.mode ∧ (s.mode.chervil = true → SMap.find u.mode.held 29 = some p.val) ∧
            partOf u p.val = { partOf s p.val with pf := { f with entries := f.entries.set n { e with flying := true, began := coreCount s } } }) ∧
          (may → pfAllowed s p.val e = false → ∃ u, exec (.prefetchStart p n) s = .next u ∧ (partOf u p.val).pf.fault = true ∧ u.mem = s.mem ∧
            (partOf u p.val).pf.armed = (f.armed && ((f.entries.set n { e with flying := false }).any (·.flying)))) ∧
          (e.flying = false ∨ pendLocked e.dst.toNat e.size s = true → exec (.prefetchArrival p n) s = .next s) ∧
          (e.flying = true → pfAllowed s p.val e = true → cleanRead s e.src.toNat e.size = true → plainWrite s e.dst.toNat e.size = true → (∀ k, (partOf s k).wait = none) →
            ∃ u, exec (.prefetchArrival p n) s = .next u ∧ ((partOf u p.val).pf.entries[n]?).map (·.pass) = some (e.pass + 1) ∧
              (tallyOf u e.tally).count = (tallyOf s e.tally).count + 1 ∧ (∀ k, k ≠ e.tally → tallyOf u k = tallyOf s k) ∧ sameMemBut e.dst.toNat e.size s u ∧
              ∀ k, k < e.size → uget u.mem (e.dst.toNat + k) = uget s.mem (e.src.toNat + k)) ∧
          (e.flying = true → pendLocked e.dst.toNat e.size s = false → pfAllowed s p.val e = false ∨ (memFetch e.src.toNat e.size s).2.1 = true → ∃ u, exec (.prefetchArrival p n) s = .next u ∧ (partOf u p.val).pf.fault = true ∧
            (partOf u p.val).pf.armed = (f.armed && ((f.entries.set n { e with flying := false }).any (·.flying))))))
end

