-- ==== Sys2Proof/Laws/Word.lean ====
section
/-! SUPPORT. Laws of sparse maps: what a read returns after a write, and that writes to one key collapse. -/

namespace Sys2Proof

@[simp] theorem SMap.look_nil {α : Type} (d : α) (k : Nat) : SMap.look d [] k = d := rfl

@[simp] theorem SMap.look_put {α : Type} (d : α) (m : SMap α) (k : Nat) (v : α) : SMap.look d (SMap.put m k v) k = v := by
  induction m with
  | nil => simp [SMap.put, SMap.look]
  | cons x m ih =>
    unfold SMap.put
    split
    · simp [SMap.look]
    · split
      · simp [SMap.look]
      · rename_i h1 h2
        simp [SMap.look, ih, Ne.symm h2]

theorem SMap.look_put_ne {α : Type} (d : α) (m : SMap α) {k j : Nat} (v : α) (h : j ≠ k) :
    SMap.look d (SMap.put m k v) j = SMap.look d m j := by
  induction m with
  | nil => simp [SMap.put, SMap.look, Ne.symm h]
  | cons x m ih =>
    unfold SMap.put
    split
    · simp [SMap.look, Ne.symm h]
    · split
      · rename_i h1 h2
        subst h2
        simp [SMap.look, Ne.symm h]
      · simp [SMap.look, ih]

@[simp] theorem SMap.put_put {α : Type} (m : SMap α) (k : Nat) (v w : α) : SMap.put (SMap.put m k v) k w = SMap.put m k w := by
  induction m with
  | nil => simp [SMap.put]
  | cons x m ih =>
    obtain ⟨i, y⟩ := x
    by_cases h1 : k < i
    · simp [SMap.put, h1]
    · by_cases h2 : k = i
      · simp [SMap.put, h2]
      · simp [SMap.put, h1, h2, ih]

end Sys2Proof
end

