-- ==== Sys2Proof/Laws/State.lean ====
section
/-! SUPPORT. What the updates of one part of State leave in every field: one lemma per field per update, and reads of the part after an update of it. -/

namespace Sys2Proof.Machine

@[simp] theorem modPart_pending (p : Nat) (f : PartSt → PartSt) (s : State) : (modPart p f s).pending = s.pending := rfl
@[simp] theorem modPart_mem (p : Nat) (f : PartSt → PartSt) (s : State) : (modPart p f s).mem = s.mem := rfl
@[simp] theorem modPart_poison (p : Nat) (f : PartSt → PartSt) (s : State) : (modPart p f s).poison = s.poison := rfl
@[simp] theorem modPart_badRead (p : Nat) (f : PartSt → PartSt) (s : State) : (modPart p f s).badRead = s.badRead := rfl
@[simp] theorem modPart_badWrite (p : Nat) (f : PartSt → PartSt) (s : State) : (modPart p f s).badWrite = s.badWrite := rfl
@[simp] theorem modPart_fuse (p : Nat) (f : PartSt → PartSt) (s : State) : (modPart p f s).fuse = s.fuse := rfl
@[simp] theorem modPart_clk (p : Nat) (f : PartSt → PartSt) (s : State) : (modPart p f s).clk = s.clk := rfl
@[simp] theorem modPart_pwr (p : Nat) (f : PartSt → PartSt) (s : State) : (modPart p f s).pwr = s.pwr := rfl
@[simp] theorem modPart_pin (p : Nat) (f : PartSt → PartSt) (s : State) : (modPart p f s).pin = s.pin := rfl
@[simp] theorem modPart_mode (p : Nat) (f : PartSt → PartSt) (s : State) : (modPart p f s).mode = s.mode := rfl
@[simp] theorem modPart_dig (p : Nat) (f : PartSt → PartSt) (s : State) : (modPart p f s).dig = s.dig := rfl
@[simp] theorem modPart_rcd (p : Nat) (f : PartSt → PartSt) (s : State) : (modPart p f s).rcd = s.rcd := rfl
@[simp] theorem modPart_msg (p : Nat) (f : PartSt → PartSt) (s : State) : (modPart p f s).msg = s.msg := rfl
@[simp] theorem modPart_side (p : Nat) (f : PartSt → PartSt) (s : State) : (modPart p f s).side = s.side := rfl
@[simp] theorem modPart_keep (p : Nat) (f : PartSt → PartSt) (s : State) : (modPart p f s).keep = s.keep := rfl
@[simp] theorem modPart_sram (p : Nat) (f : PartSt → PartSt) (s : State) : (modPart p f s).sram = s.sram := rfl
@[simp] theorem modPart_fab (p : Nat) (f : PartSt → PartSt) (s : State) : (modPart p f s).fab = s.fab := rfl
@[simp] theorem modPart_port (p : Nat) (f : PartSt → PartSt) (s : State) : (modPart p f s).port = s.port := rfl
@[simp] theorem modPart_reg (p : Nat) (f : PartSt → PartSt) (s : State) : (modPart p f s).reg = s.reg := rfl
@[simp] theorem modPart_grp (p : Nat) (f : PartSt → PartSt) (s : State) : (modPart p f s).grp = s.grp := rfl
@[simp] theorem modPart_ep (p : Nat) (f : PartSt → PartSt) (s : State) : (modPart p f s).ep = s.ep := rfl
@[simp] theorem modPart_job (p : Nat) (f : PartSt → PartSt) (s : State) : (modPart p f s).job = s.job := rfl
@[simp] theorem modPart_fid (p : Nat) (f : PartSt → PartSt) (s : State) : (modPart p f s).fid = s.fid := rfl
@[simp] theorem modPart_cod (p : Nat) (f : PartSt → PartSt) (s : State) : (modPart p f s).cod = s.cod := rfl
@[simp] theorem modPart_upd (p : Nat) (f : PartSt → PartSt) (s : State) : (modPart p f s).upd = s.upd := rfl
@[simp] theorem modPart_coll (p : Nat) (f : PartSt → PartSt) (s : State) : (modPart p f s).coll = s.coll := rfl
@[simp] theorem modPart_tar (p : Nat) (f : PartSt → PartSt) (s : State) : (modPart p f s).tar = s.tar := rfl
@[simp] theorem modPart_reb (p : Nat) (f : PartSt → PartSt) (s : State) : (modPart p f s).reb = s.reb := rfl
@[simp] theorem modPart_aud (p : Nat) (f : PartSt → PartSt) (s : State) : (modPart p f s).aud = s.aud := rfl
@[simp] theorem modPart_tally (p : Nat) (f : PartSt → PartSt) (s : State) : (modPart p f s).tally = s.tally := rfl
@[simp] theorem modPart_pub (p : Nat) (f : PartSt → PartSt) (s : State) : (modPart p f s).pub = s.pub := rfl
@[simp] theorem modPart_page (p : Nat) (f : PartSt → PartSt) (s : State) : (modPart p f s).page = s.page := rfl
@[simp] theorem modPart_tap (p : Nat) (f : PartSt → PartSt) (s : State) : (modPart p f s).tap = s.tap := rfl
@[simp] theorem modPart_exp (p : Nat) (f : PartSt → PartSt) (s : State) : (modPart p f s).exp = s.exp := rfl
@[simp] theorem modPart_viol (p : Nat) (f : PartSt → PartSt) (s : State) : (modPart p f s).viol = s.viol := rfl
@[simp] theorem modPart_freeCtr (p : Nat) (f : PartSt → PartSt) (s : State) : (modPart p f s).freeCtr = s.freeCtr := rfl

@[simp] theorem modPort_pending (p : Nat) (f : PortSt → PortSt) (s : State) : (modPort p f s).pending = s.pending := rfl
@[simp] theorem modPort_mem (p : Nat) (f : PortSt → PortSt) (s : State) : (modPort p f s).mem = s.mem := rfl
@[simp] theorem modPort_poison (p : Nat) (f : PortSt → PortSt) (s : State) : (modPort p f s).poison = s.poison := rfl
@[simp] theorem modPort_badRead (p : Nat) (f : PortSt → PortSt) (s : State) : (modPort p f s).badRead = s.badRead := rfl
@[simp] theorem modPort_badWrite (p : Nat) (f : PortSt → PortSt) (s : State) : (modPort p f s).badWrite = s.badWrite := rfl
@[simp] theorem modPort_fuse (p : Nat) (f : PortSt → PortSt) (s : State) : (modPort p f s).fuse = s.fuse := rfl
@[simp] theorem modPort_clk (p : Nat) (f : PortSt → PortSt) (s : State) : (modPort p f s).clk = s.clk := rfl
@[simp] theorem modPort_pwr (p : Nat) (f : PortSt → PortSt) (s : State) : (modPort p f s).pwr = s.pwr := rfl
@[simp] theorem modPort_pin (p : Nat) (f : PortSt → PortSt) (s : State) : (modPort p f s).pin = s.pin := rfl
@[simp] theorem modPort_mode (p : Nat) (f : PortSt → PortSt) (s : State) : (modPort p f s).mode = s.mode := rfl
@[simp] theorem modPort_dig (p : Nat) (f : PortSt → PortSt) (s : State) : (modPort p f s).dig = s.dig := rfl
@[simp] theorem modPort_rcd (p : Nat) (f : PortSt → PortSt) (s : State) : (modPort p f s).rcd = s.rcd := rfl
@[simp] theorem modPort_msg (p : Nat) (f : PortSt → PortSt) (s : State) : (modPort p f s).msg = s.msg := rfl
@[simp] theorem modPort_side (p : Nat) (f : PortSt → PortSt) (s : State) : (modPort p f s).side = s.side := rfl
@[simp] theorem modPort_keep (p : Nat) (f : PortSt → PortSt) (s : State) : (modPort p f s).keep = s.keep := rfl
@[simp] theorem modPort_sram (p : Nat) (f : PortSt → PortSt) (s : State) : (modPort p f s).sram = s.sram := rfl
@[simp] theorem modPort_fab (p : Nat) (f : PortSt → PortSt) (s : State) : (modPort p f s).fab = s.fab := rfl
@[simp] theorem modPort_reg (p : Nat) (f : PortSt → PortSt) (s : State) : (modPort p f s).reg = s.reg := rfl
@[simp] theorem modPort_grp (p : Nat) (f : PortSt → PortSt) (s : State) : (modPort p f s).grp = s.grp := rfl
@[simp] theorem modPort_ep (p : Nat) (f : PortSt → PortSt) (s : State) : (modPort p f s).ep = s.ep := rfl
@[simp] theorem modPort_job (p : Nat) (f : PortSt → PortSt) (s : State) : (modPort p f s).job = s.job := rfl
@[simp] theorem modPort_fid (p : Nat) (f : PortSt → PortSt) (s : State) : (modPort p f s).fid = s.fid := rfl
@[simp] theorem modPort_cod (p : Nat) (f : PortSt → PortSt) (s : State) : (modPort p f s).cod = s.cod := rfl
@[simp] theorem modPort_upd (p : Nat) (f : PortSt → PortSt) (s : State) : (modPort p f s).upd = s.upd := rfl
@[simp] theorem modPort_coll (p : Nat) (f : PortSt → PortSt) (s : State) : (modPort p f s).coll = s.coll := rfl
@[simp] theorem modPort_tar (p : Nat) (f : PortSt → PortSt) (s : State) : (modPort p f s).tar = s.tar := rfl
@[simp] theorem modPort_reb (p : Nat) (f : PortSt → PortSt) (s : State) : (modPort p f s).reb = s.reb := rfl
@[simp] theorem modPort_aud (p : Nat) (f : PortSt → PortSt) (s : State) : (modPort p f s).aud = s.aud := rfl
@[simp] theorem modPort_part (p : Nat) (f : PortSt → PortSt) (s : State) : (modPort p f s).part = s.part := rfl
@[simp] theorem modPort_tally (p : Nat) (f : PortSt → PortSt) (s : State) : (modPort p f s).tally = s.tally := rfl
@[simp] theorem modPort_pub (p : Nat) (f : PortSt → PortSt) (s : State) : (modPort p f s).pub = s.pub := rfl
@[simp] theorem modPort_page (p : Nat) (f : PortSt → PortSt) (s : State) : (modPort p f s).page = s.page := rfl
@[simp] theorem modPort_tap (p : Nat) (f : PortSt → PortSt) (s : State) : (modPort p f s).tap = s.tap := rfl
@[simp] theorem modPort_exp (p : Nat) (f : PortSt → PortSt) (s : State) : (modPort p f s).exp = s.exp := rfl
@[simp] theorem modPort_viol (p : Nat) (f : PortSt → PortSt) (s : State) : (modPort p f s).viol = s.viol := rfl
@[simp] theorem modPort_freeCtr (p : Nat) (f : PortSt → PortSt) (s : State) : (modPort p f s).freeCtr = s.freeCtr := rfl

@[simp] theorem modTally_pending (n : Nat) (f : Tally → Tally) (s : State) : (modTally n f s).pending = s.pending := rfl
@[simp] theorem modTally_mem (n : Nat) (f : Tally → Tally) (s : State) : (modTally n f s).mem = s.mem := rfl
@[simp] theorem modTally_poison (n : Nat) (f : Tally → Tally) (s : State) : (modTally n f s).poison = s.poison := rfl
@[simp] theorem modTally_badRead (n : Nat) (f : Tally → Tally) (s : State) : (modTally n f s).badRead = s.badRead := rfl
@[simp] theorem modTally_badWrite (n : Nat) (f : Tally → Tally) (s : State) : (modTally n f s).badWrite = s.badWrite := rfl
@[simp] theorem modTally_fuse (n : Nat) (f : Tally → Tally) (s : State) : (modTally n f s).fuse = s.fuse := rfl
@[simp] theorem modTally_clk (n : Nat) (f : Tally → Tally) (s : State) : (modTally n f s).clk = s.clk := rfl
@[simp] theorem modTally_pwr (n : Nat) (f : Tally → Tally) (s : State) : (modTally n f s).pwr = s.pwr := rfl
@[simp] theorem modTally_pin (n : Nat) (f : Tally → Tally) (s : State) : (modTally n f s).pin = s.pin := rfl
@[simp] theorem modTally_mode (n : Nat) (f : Tally → Tally) (s : State) : (modTally n f s).mode = s.mode := rfl
@[simp] theorem modTally_dig (n : Nat) (f : Tally → Tally) (s : State) : (modTally n f s).dig = s.dig := rfl
@[simp] theorem modTally_rcd (n : Nat) (f : Tally → Tally) (s : State) : (modTally n f s).rcd = s.rcd := rfl
@[simp] theorem modTally_msg (n : Nat) (f : Tally → Tally) (s : State) : (modTally n f s).msg = s.msg := rfl
@[simp] theorem modTally_side (n : Nat) (f : Tally → Tally) (s : State) : (modTally n f s).side = s.side := rfl
@[simp] theorem modTally_keep (n : Nat) (f : Tally → Tally) (s : State) : (modTally n f s).keep = s.keep := rfl
@[simp] theorem modTally_sram (n : Nat) (f : Tally → Tally) (s : State) : (modTally n f s).sram = s.sram := rfl
@[simp] theorem modTally_fab (n : Nat) (f : Tally → Tally) (s : State) : (modTally n f s).fab = s.fab := rfl
@[simp] theorem modTally_port (n : Nat) (f : Tally → Tally) (s : State) : (modTally n f s).port = s.port := rfl
@[simp] theorem modTally_reg (n : Nat) (f : Tally → Tally) (s : State) : (modTally n f s).reg = s.reg := rfl
@[simp] theorem modTally_grp (n : Nat) (f : Tally → Tally) (s : State) : (modTally n f s).grp = s.grp := rfl
@[simp] theorem modTally_ep (n : Nat) (f : Tally → Tally) (s : State) : (modTally n f s).ep = s.ep := rfl
@[simp] theorem modTally_job (n : Nat) (f : Tally → Tally) (s : State) : (modTally n f s).job = s.job := rfl
@[simp] theorem modTally_fid (n : Nat) (f : Tally → Tally) (s : State) : (modTally n f s).fid = s.fid := rfl
@[simp] theorem modTally_cod (n : Nat) (f : Tally → Tally) (s : State) : (modTally n f s).cod = s.cod := rfl
@[simp] theorem modTally_upd (n : Nat) (f : Tally → Tally) (s : State) : (modTally n f s).upd = s.upd := rfl
@[simp] theorem modTally_coll (n : Nat) (f : Tally → Tally) (s : State) : (modTally n f s).coll = s.coll := rfl
@[simp] theorem modTally_tar (n : Nat) (f : Tally → Tally) (s : State) : (modTally n f s).tar = s.tar := rfl
@[simp] theorem modTally_reb (n : Nat) (f : Tally → Tally) (s : State) : (modTally n f s).reb = s.reb := rfl
@[simp] theorem modTally_aud (n : Nat) (f : Tally → Tally) (s : State) : (modTally n f s).aud = s.aud := rfl
@[simp] theorem modTally_part (n : Nat) (f : Tally → Tally) (s : State) : (modTally n f s).part = s.part := rfl
@[simp] theorem modTally_pub (n : Nat) (f : Tally → Tally) (s : State) : (modTally n f s).pub = s.pub := rfl
@[simp] theorem modTally_page (n : Nat) (f : Tally → Tally) (s : State) : (modTally n f s).page = s.page := rfl
@[simp] theorem modTally_tap (n : Nat) (f : Tally → Tally) (s : State) : (modTally n f s).tap = s.tap := rfl
@[simp] theorem modTally_exp (n : Nat) (f : Tally → Tally) (s : State) : (modTally n f s).exp = s.exp := rfl
@[simp] theorem modTally_viol (n : Nat) (f : Tally → Tally) (s : State) : (modTally n f s).viol = s.viol := rfl
@[simp] theorem modTally_freeCtr (n : Nat) (f : Tally → Tally) (s : State) : (modTally n f s).freeCtr = s.freeCtr := rfl

@[simp] theorem modGrp_pending (g : Nat) (f : Group → Group) (s : State) : (modGrp g f s).pending = s.pending := rfl
@[simp] theorem modGrp_mem (g : Nat) (f : Group → Group) (s : State) : (modGrp g f s).mem = s.mem := rfl
@[simp] theorem modGrp_poison (g : Nat) (f : Group → Group) (s : State) : (modGrp g f s).poison = s.poison := rfl
@[simp] theorem modGrp_badRead (g : Nat) (f : Group → Group) (s : State) : (modGrp g f s).badRead = s.badRead := rfl
@[simp] theorem modGrp_badWrite (g : Nat) (f : Group → Group) (s : State) : (modGrp g f s).badWrite = s.badWrite := rfl
@[simp] theorem modGrp_fuse (g : Nat) (f : Group → Group) (s : State) : (modGrp g f s).fuse = s.fuse := rfl
@[simp] theorem modGrp_clk (g : Nat) (f : Group → Group) (s : State) : (modGrp g f s).clk = s.clk := rfl
@[simp] theorem modGrp_pwr (g : Nat) (f : Group → Group) (s : State) : (modGrp g f s).pwr = s.pwr := rfl
@[simp] theorem modGrp_pin (g : Nat) (f : Group → Group) (s : State) : (modGrp g f s).pin = s.pin := rfl
@[simp] theorem modGrp_mode (g : Nat) (f : Group → Group) (s : State) : (modGrp g f s).mode = s.mode := rfl
@[simp] theorem modGrp_dig (g : Nat) (f : Group → Group) (s : State) : (modGrp g f s).dig = s.dig := rfl
@[simp] theorem modGrp_rcd (g : Nat) (f : Group → Group) (s : State) : (modGrp g f s).rcd = s.rcd := rfl
@[simp] theorem modGrp_msg (g : Nat) (f : Group → Group) (s : State) : (modGrp g f s).msg = s.msg := rfl
@[simp] theorem modGrp_side (g : Nat) (f : Group → Group) (s : State) : (modGrp g f s).side = s.side := rfl
@[simp] theorem modGrp_keep (g : Nat) (f : Group → Group) (s : State) : (modGrp g f s).keep = s.keep := rfl
@[simp] theorem modGrp_sram (g : Nat) (f : Group → Group) (s : State) : (modGrp g f s).sram = s.sram := rfl
@[simp] theorem modGrp_fab (g : Nat) (f : Group → Group) (s : State) : (modGrp g f s).fab = s.fab := rfl
@[simp] theorem modGrp_port (g : Nat) (f : Group → Group) (s : State) : (modGrp g f s).port = s.port := rfl
@[simp] theorem modGrp_reg (g : Nat) (f : Group → Group) (s : State) : (modGrp g f s).reg = s.reg := rfl
@[simp] theorem modGrp_ep (g : Nat) (f : Group → Group) (s : State) : (modGrp g f s).ep = s.ep := rfl
@[simp] theorem modGrp_job (g : Nat) (f : Group → Group) (s : State) : (modGrp g f s).job = s.job := rfl
@[simp] theorem modGrp_fid (g : Nat) (f : Group → Group) (s : State) : (modGrp g f s).fid = s.fid := rfl
@[simp] theorem modGrp_cod (g : Nat) (f : Group → Group) (s : State) : (modGrp g f s).cod = s.cod := rfl
@[simp] theorem modGrp_upd (g : Nat) (f : Group → Group) (s : State) : (modGrp g f s).upd = s.upd := rfl
@[simp] theorem modGrp_coll (g : Nat) (f : Group → Group) (s : State) : (modGrp g f s).coll = s.coll := rfl
@[simp] theorem modGrp_tar (g : Nat) (f : Group → Group) (s : State) : (modGrp g f s).tar = s.tar := rfl
@[simp] theorem modGrp_reb (g : Nat) (f : Group → Group) (s : State) : (modGrp g f s).reb = s.reb := rfl
@[simp] theorem modGrp_aud (g : Nat) (f : Group → Group) (s : State) : (modGrp g f s).aud = s.aud := rfl
@[simp] theorem modGrp_part (g : Nat) (f : Group → Group) (s : State) : (modGrp g f s).part = s.part := rfl
@[simp] theorem modGrp_tally (g : Nat) (f : Group → Group) (s : State) : (modGrp g f s).tally = s.tally := rfl
@[simp] theorem modGrp_pub (g : Nat) (f : Group → Group) (s : State) : (modGrp g f s).pub = s.pub := rfl
@[simp] theorem modGrp_page (g : Nat) (f : Group → Group) (s : State) : (modGrp g f s).page = s.page := rfl
@[simp] theorem modGrp_tap (g : Nat) (f : Group → Group) (s : State) : (modGrp g f s).tap = s.tap := rfl
@[simp] theorem modGrp_exp (g : Nat) (f : Group → Group) (s : State) : (modGrp g f s).exp = s.exp := rfl
@[simp] theorem modGrp_viol (g : Nat) (f : Group → Group) (s : State) : (modGrp g f s).viol = s.viol := rfl
@[simp] theorem modGrp_freeCtr (g : Nat) (f : Group → Group) (s : State) : (modGrp g f s).freeCtr = s.freeCtr := rfl

@[simp] theorem modRegion_pending (i : Nat) (f : Region → Region) (s : State) : (modRegion i f s).pending = s.pending := rfl
@[simp] theorem modRegion_mem (i : Nat) (f : Region → Region) (s : State) : (modRegion i f s).mem = s.mem := rfl
@[simp] theorem modRegion_poison (i : Nat) (f : Region → Region) (s : State) : (modRegion i f s).poison = s.poison := rfl
@[simp] theorem modRegion_badRead (i : Nat) (f : Region → Region) (s : State) : (modRegion i f s).badRead = s.badRead := rfl
@[simp] theorem modRegion_badWrite (i : Nat) (f : Region → Region) (s : State) : (modRegion i f s).badWrite = s.badWrite := rfl
@[simp] theorem modRegion_fuse (i : Nat) (f : Region → Region) (s : State) : (modRegion i f s).fuse = s.fuse := rfl
@[simp] theorem modRegion_clk (i : Nat) (f : Region → Region) (s : State) : (modRegion i f s).clk = s.clk := rfl
@[simp] theorem modRegion_pwr (i : Nat) (f : Region → Region) (s : State) : (modRegion i f s).pwr = s.pwr := rfl
@[simp] theorem modRegion_pin (i : Nat) (f : Region → Region) (s : State) : (modRegion i f s).pin = s.pin := rfl
@[simp] theorem modRegion_mode (i : Nat) (f : Region → Region) (s : State) : (modRegion i f s).mode = s.mode := rfl
@[simp] theorem modRegion_dig (i : Nat) (f : Region → Region) (s : State) : (modRegion i f s).dig = s.dig := rfl
@[simp] theorem modRegion_rcd (i : Nat) (f : Region → Region) (s : State) : (modRegion i f s).rcd = s.rcd := rfl
@[simp] theorem modRegion_msg (i : Nat) (f : Region → Region) (s : State) : (modRegion i f s).msg = s.msg := rfl
@[simp] theorem modRegion_side (i : Nat) (f : Region → Region) (s : State) : (modRegion i f s).side = s.side := rfl
@[simp] theorem modRegion_keep (i : Nat) (f : Region → Region) (s : State) : (modRegion i f s).keep = s.keep := rfl
@[simp] theorem modRegion_sram (i : Nat) (f : Region → Region) (s : State) : (modRegion i f s).sram = s.sram := rfl
@[simp] theorem modRegion_fab (i : Nat) (f : Region → Region) (s : State) : (modRegion i f s).fab = s.fab := rfl
@[simp] theorem modRegion_port (i : Nat) (f : Region → Region) (s : State) : (modRegion i f s).port = s.port := rfl
@[simp] theorem modRegion_grp (i : Nat) (f : Region → Region) (s : State) : (modRegion i f s).grp = s.grp := rfl
@[simp] theorem modRegion_ep (i : Nat) (f : Region → Region) (s : State) : (modRegion i f s).ep = s.ep := rfl
@[simp] theorem modRegion_job (i : Nat) (f : Region → Region) (s : State) : (modRegion i f s).job = s.job := rfl
@[simp] theorem modRegion_fid (i : Nat) (f : Region → Region) (s : State) : (modRegion i f s).fid = s.fid := rfl
@[simp] theorem modRegion_cod (i : Nat) (f : Region → Region) (s : State) : (modRegion i f s).cod = s.cod := rfl
@[simp] theorem modRegion_upd (i : Nat) (f : Region → Region) (s : State) : (modRegion i f s).upd = s.upd := rfl
@[simp] theorem modRegion_coll (i : Nat) (f : Region → Region) (s : State) : (modRegion i f s).coll = s.coll := rfl
@[simp] theorem modRegion_tar (i : Nat) (f : Region → Region) (s : State) : (modRegion i f s).tar = s.tar := rfl
@[simp] theorem modRegion_reb (i : Nat) (f : Region → Region) (s : State) : (modRegion i f s).reb = s.reb := rfl
@[simp] theorem modRegion_aud (i : Nat) (f : Region → Region) (s : State) : (modRegion i f s).aud = s.aud := rfl
@[simp] theorem modRegion_part (i : Nat) (f : Region → Region) (s : State) : (modRegion i f s).part = s.part := rfl
@[simp] theorem modRegion_tally (i : Nat) (f : Region → Region) (s : State) : (modRegion i f s).tally = s.tally := rfl
@[simp] theorem modRegion_pub (i : Nat) (f : Region → Region) (s : State) : (modRegion i f s).pub = s.pub := rfl
@[simp] theorem modRegion_page (i : Nat) (f : Region → Region) (s : State) : (modRegion i f s).page = s.page := rfl
@[simp] theorem modRegion_tap (i : Nat) (f : Region → Region) (s : State) : (modRegion i f s).tap = s.tap := rfl
@[simp] theorem modRegion_exp (i : Nat) (f : Region → Region) (s : State) : (modRegion i f s).exp = s.exp := rfl
@[simp] theorem modRegion_viol (i : Nat) (f : Region → Region) (s : State) : (modRegion i f s).viol = s.viol := rfl
@[simp] theorem modRegion_freeCtr (i : Nat) (f : Region → Region) (s : State) : (modRegion i f s).freeCtr = s.freeCtr := rfl

@[simp] theorem modPub_pending (e : Nat) (f : Pub → Pub) (s : State) : (modPub e f s).pending = s.pending := rfl
@[simp] theorem modPub_mem (e : Nat) (f : Pub → Pub) (s : State) : (modPub e f s).mem = s.mem := rfl
@[simp] theorem modPub_poison (e : Nat) (f : Pub → Pub) (s : State) : (modPub e f s).poison = s.poison := rfl
@[simp] theorem modPub_badRead (e : Nat) (f : Pub → Pub) (s : State) : (modPub e f s).badRead = s.badRead := rfl
@[simp] theorem modPub_badWrite (e : Nat) (f : Pub → Pub) (s : State) : (modPub e f s).badWrite = s.badWrite := rfl
@[simp] theorem modPub_fuse (e : Nat) (f : Pub → Pub) (s : State) : (modPub e f s).fuse = s.fuse := rfl
@[simp] theorem modPub_clk (e : Nat) (f : Pub → Pub) (s : State) : (modPub e f s).clk = s.clk := rfl
@[simp] theorem modPub_pwr (e : Nat) (f : Pub → Pub) (s : State) : (modPub e f s).pwr = s.pwr := rfl
@[simp] theorem modPub_pin (e : Nat) (f : Pub → Pub) (s : State) : (modPub e f s).pin = s.pin := rfl
@[simp] theorem modPub_mode (e : Nat) (f : Pub → Pub) (s : State) : (modPub e f s).mode = s.mode := rfl
@[simp] theorem modPub_dig (e : Nat) (f : Pub → Pub) (s : State) : (modPub e f s).dig = s.dig := rfl
@[simp] theorem modPub_rcd (e : Nat) (f : Pub → Pub) (s : State) : (modPub e f s).rcd = s.rcd := rfl
@[simp] theorem modPub_msg (e : Nat) (f : Pub → Pub) (s : State) : (modPub e f s).msg = s.msg := rfl
@[simp] theorem modPub_side (e : Nat) (f : Pub → Pub) (s : State) : (modPub e f s).side = s.side := rfl
@[simp] theorem modPub_keep (e : Nat) (f : Pub → Pub) (s : State) : (modPub e f s).keep = s.keep := rfl
@[simp] theorem modPub_sram (e : Nat) (f : Pub → Pub) (s : State) : (modPub e f s).sram = s.sram := rfl
@[simp] theorem modPub_fab (e : Nat) (f : Pub → Pub) (s : State) : (modPub e f s).fab = s.fab := rfl
@[simp] theorem modPub_port (e : Nat) (f : Pub → Pub) (s : State) : (modPub e f s).port = s.port := rfl
@[simp] theorem modPub_reg (e : Nat) (f : Pub → Pub) (s : State) : (modPub e f s).reg = s.reg := rfl
@[simp] theorem modPub_grp (e : Nat) (f : Pub → Pub) (s : State) : (modPub e f s).grp = s.grp := rfl
@[simp] theorem modPub_ep (e : Nat) (f : Pub → Pub) (s : State) : (modPub e f s).ep = s.ep := rfl
@[simp] theorem modPub_job (e : Nat) (f : Pub → Pub) (s : State) : (modPub e f s).job = s.job := rfl
@[simp] theorem modPub_fid (e : Nat) (f : Pub → Pub) (s : State) : (modPub e f s).fid = s.fid := rfl
@[simp] theorem modPub_cod (e : Nat) (f : Pub → Pub) (s : State) : (modPub e f s).cod = s.cod := rfl
@[simp] theorem modPub_upd (e : Nat) (f : Pub → Pub) (s : State) : (modPub e f s).upd = s.upd := rfl
@[simp] theorem modPub_coll (e : Nat) (f : Pub → Pub) (s : State) : (modPub e f s).coll = s.coll := rfl
@[simp] theorem modPub_tar (e : Nat) (f : Pub → Pub) (s : State) : (modPub e f s).tar = s.tar := rfl
@[simp] theorem modPub_reb (e : Nat) (f : Pub → Pub) (s : State) : (modPub e f s).reb = s.reb := rfl
@[simp] theorem modPub_aud (e : Nat) (f : Pub → Pub) (s : State) : (modPub e f s).aud = s.aud := rfl
@[simp] theorem modPub_part (e : Nat) (f : Pub → Pub) (s : State) : (modPub e f s).part = s.part := rfl
@[simp] theorem modPub_tally (e : Nat) (f : Pub → Pub) (s : State) : (modPub e f s).tally = s.tally := rfl
@[simp] theorem modPub_page (e : Nat) (f : Pub → Pub) (s : State) : (modPub e f s).page = s.page := rfl
@[simp] theorem modPub_tap (e : Nat) (f : Pub → Pub) (s : State) : (modPub e f s).tap = s.tap := rfl
@[simp] theorem modPub_exp (e : Nat) (f : Pub → Pub) (s : State) : (modPub e f s).exp = s.exp := rfl
@[simp] theorem modPub_viol (e : Nat) (f : Pub → Pub) (s : State) : (modPub e f s).viol = s.viol := rfl
@[simp] theorem modPub_freeCtr (e : Nat) (f : Pub → Pub) (s : State) : (modPub e f s).freeCtr = s.freeCtr := rfl

@[simp] theorem modPage_pending (n : Nat) (f : Page → Page) (s : State) : (modPage n f s).pending = s.pending := rfl
@[simp] theorem modPage_mem (n : Nat) (f : Page → Page) (s : State) : (modPage n f s).mem = s.mem := rfl
@[simp] theorem modPage_poison (n : Nat) (f : Page → Page) (s : State) : (modPage n f s).poison = s.poison := rfl
@[simp] theorem modPage_badRead (n : Nat) (f : Page → Page) (s : State) : (modPage n f s).badRead = s.badRead := rfl
@[simp] theorem modPage_badWrite (n : Nat) (f : Page → Page) (s : State) : (modPage n f s).badWrite = s.badWrite := rfl
@[simp] theorem modPage_fuse (n : Nat) (f : Page → Page) (s : State) : (modPage n f s).fuse = s.fuse := rfl
@[simp] theorem modPage_clk (n : Nat) (f : Page → Page) (s : State) : (modPage n f s).clk = s.clk := rfl
@[simp] theorem modPage_pwr (n : Nat) (f : Page → Page) (s : State) : (modPage n f s).pwr = s.pwr := rfl
@[simp] theorem modPage_pin (n : Nat) (f : Page → Page) (s : State) : (modPage n f s).pin = s.pin := rfl
@[simp] theorem modPage_mode (n : Nat) (f : Page → Page) (s : State) : (modPage n f s).mode = s.mode := rfl
@[simp] theorem modPage_dig (n : Nat) (f : Page → Page) (s : State) : (modPage n f s).dig = s.dig := rfl
@[simp] theorem modPage_rcd (n : Nat) (f : Page → Page) (s : State) : (modPage n f s).rcd = s.rcd := rfl
@[simp] theorem modPage_msg (n : Nat) (f : Page → Page) (s : State) : (modPage n f s).msg = s.msg := rfl
@[simp] theorem modPage_side (n : Nat) (f : Page → Page) (s : State) : (modPage n f s).side = s.side := rfl
@[simp] theorem modPage_keep (n : Nat) (f : Page → Page) (s : State) : (modPage n f s).keep = s.keep := rfl
@[simp] theorem modPage_sram (n : Nat) (f : Page → Page) (s : State) : (modPage n f s).sram = s.sram := rfl
@[simp] theorem modPage_fab (n : Nat) (f : Page → Page) (s : State) : (modPage n f s).fab = s.fab := rfl
@[simp] theorem modPage_port (n : Nat) (f : Page → Page) (s : State) : (modPage n f s).port = s.port := rfl
@[simp] theorem modPage_reg (n : Nat) (f : Page → Page) (s : State) : (modPage n f s).reg = s.reg := rfl
@[simp] theorem modPage_grp (n : Nat) (f : Page → Page) (s : State) : (modPage n f s).grp = s.grp := rfl
@[simp] theorem modPage_ep (n : Nat) (f : Page → Page) (s : State) : (modPage n f s).ep = s.ep := rfl
@[simp] theorem modPage_job (n : Nat) (f : Page → Page) (s : State) : (modPage n f s).job = s.job := rfl
@[simp] theorem modPage_fid (n : Nat) (f : Page → Page) (s : State) : (modPage n f s).fid = s.fid := rfl
@[simp] theorem modPage_cod (n : Nat) (f : Page → Page) (s : State) : (modPage n f s).cod = s.cod := rfl
@[simp] theorem modPage_upd (n : Nat) (f : Page → Page) (s : State) : (modPage n f s).upd = s.upd := rfl
@[simp] theorem modPage_coll (n : Nat) (f : Page → Page) (s : State) : (modPage n f s).coll = s.coll := rfl
@[simp] theorem modPage_tar (n : Nat) (f : Page → Page) (s : State) : (modPage n f s).tar = s.tar := rfl
@[simp] theorem modPage_reb (n : Nat) (f : Page → Page) (s : State) : (modPage n f s).reb = s.reb := rfl
@[simp] theorem modPage_aud (n : Nat) (f : Page → Page) (s : State) : (modPage n f s).aud = s.aud := rfl
@[simp] theorem modPage_part (n : Nat) (f : Page → Page) (s : State) : (modPage n f s).part = s.part := rfl
@[simp] theorem modPage_tally (n : Nat) (f : Page → Page) (s : State) : (modPage n f s).tally = s.tally := rfl
@[simp] theorem modPage_pub (n : Nat) (f : Page → Page) (s : State) : (modPage n f s).pub = s.pub := rfl
@[simp] theorem modPage_tap (n : Nat) (f : Page → Page) (s : State) : (modPage n f s).tap = s.tap := rfl
@[simp] theorem modPage_exp (n : Nat) (f : Page → Page) (s : State) : (modPage n f s).exp = s.exp := rfl
@[simp] theorem modPage_viol (n : Nat) (f : Page → Page) (s : State) : (modPage n f s).viol = s.viol := rfl
@[simp] theorem modPage_freeCtr (n : Nat) (f : Page → Page) (s : State) : (modPage n f s).freeCtr = s.freeCtr := rfl

@[simp] theorem violate_pending (c : Nat) (s : State) : (violate c s).pending = s.pending := rfl
@[simp] theorem violate_mem (c : Nat) (s : State) : (violate c s).mem = s.mem := rfl
@[simp] theorem violate_poison (c : Nat) (s : State) : (violate c s).poison = s.poison := rfl
@[simp] theorem violate_badRead (c : Nat) (s : State) : (violate c s).badRead = s.badRead := rfl
@[simp] theorem violate_badWrite (c : Nat) (s : State) : (violate c s).badWrite = s.badWrite := rfl
@[simp] theorem violate_fuse (c : Nat) (s : State) : (violate c s).fuse = s.fuse := rfl
@[simp] theorem violate_clk (c : Nat) (s : State) : (violate c s).clk = s.clk := rfl
@[simp] theorem violate_pwr (c : Nat) (s : State) : (violate c s).pwr = s.pwr := rfl
@[simp] theorem violate_pin (c : Nat) (s : State) : (violate c s).pin = s.pin := rfl
@[simp] theorem violate_mode (c : Nat) (s : State) : (violate c s).mode = s.mode := rfl
@[simp] theorem violate_dig (c : Nat) (s : State) : (violate c s).dig = s.dig := rfl
@[simp] theorem violate_rcd (c : Nat) (s : State) : (violate c s).rcd = s.rcd := rfl
@[simp] theorem violate_msg (c : Nat) (s : State) : (violate c s).msg = s.msg := rfl
@[simp] theorem violate_side (c : Nat) (s : State) : (violate c s).side = s.side := rfl
@[simp] theorem violate_keep (c : Nat) (s : State) : (violate c s).keep = s.keep := rfl
@[simp] theorem violate_sram (c : Nat) (s : State) : (violate c s).sram = s.sram := rfl
@[simp] theorem violate_fab (c : Nat) (s : State) : (violate c s).fab = s.fab := rfl
@[simp] theorem violate_port (c : Nat) (s : State) : (violate c s).port = s.port := rfl
@[simp] theorem violate_reg (c : Nat) (s : State) : (violate c s).reg = s.reg := rfl
@[simp] theorem violate_grp (c : Nat) (s : State) : (violate c s).grp = s.grp := rfl
@[simp] theorem violate_ep (c : Nat) (s : State) : (violate c s).ep = s.ep := rfl
@[simp] theorem violate_job (c : Nat) (s : State) : (violate c s).job = s.job := rfl
@[simp] theorem violate_fid (c : Nat) (s : State) : (violate c s).fid = s.fid := rfl
@[simp] theorem violate_cod (c : Nat) (s : State) : (violate c s).cod = s.cod := rfl
@[simp] theorem violate_upd (c : Nat) (s : State) : (violate c s).upd = s.upd := rfl
@[simp] theorem violate_coll (c : Nat) (s : State) : (violate c s).coll = s.coll := rfl
@[simp] theorem violate_tar (c : Nat) (s : State) : (violate c s).tar = s.tar := rfl
@[simp] theorem violate_reb (c : Nat) (s : State) : (violate c s).reb = s.reb := rfl
@[simp] theorem violate_aud (c : Nat) (s : State) : (violate c s).aud = s.aud := rfl
@[simp] theorem violate_part (c : Nat) (s : State) : (violate c s).part = s.part := rfl
@[simp] theorem violate_tally (c : Nat) (s : State) : (violate c s).tally = s.tally := rfl
@[simp] theorem violate_pub (c : Nat) (s : State) : (violate c s).pub = s.pub := rfl
@[simp] theorem violate_page (c : Nat) (s : State) : (violate c s).page = s.page := rfl
@[simp] theorem violate_tap (c : Nat) (s : State) : (violate c s).tap = s.tap := rfl
@[simp] theorem violate_exp (c : Nat) (s : State) : (violate c s).exp = s.exp := rfl
@[simp] theorem violate_freeCtr (c : Nat) (s : State) : (violate c s).freeCtr = s.freeCtr := rfl

@[simp] theorem frozen_pending (s : State) : (frozen s).pending = s.pending := rfl
@[simp] theorem frozen_mem (s : State) : (frozen s).mem = s.mem := rfl
@[simp] theorem frozen_poison (s : State) : (frozen s).poison = s.poison := rfl
@[simp] theorem frozen_badRead (s : State) : (frozen s).badRead = s.badRead := rfl
@[simp] theorem frozen_badWrite (s : State) : (frozen s).badWrite = s.badWrite := rfl
@[simp] theorem frozen_fuse (s : State) : (frozen s).fuse = s.fuse := rfl
@[simp] theorem frozen_pwr (s : State) : (frozen s).pwr = s.pwr := rfl
@[simp] theorem frozen_pin (s : State) : (frozen s).pin = s.pin := rfl
@[simp] theorem frozen_mode (s : State) : (frozen s).mode = s.mode := rfl
@[simp] theorem frozen_dig (s : State) : (frozen s).dig = s.dig := rfl
@[simp] theorem frozen_rcd (s : State) : (frozen s).rcd = s.rcd := rfl
@[simp] theorem frozen_msg (s : State) : (frozen s).msg = s.msg := rfl
@[simp] theorem frozen_side (s : State) : (frozen s).side = s.side := rfl
@[simp] theorem frozen_keep (s : State) : (frozen s).keep = s.keep := rfl
@[simp] theorem frozen_sram (s : State) : (frozen s).sram = s.sram := rfl
@[simp] theorem frozen_fab (s : State) : (frozen s).fab = s.fab := rfl
@[simp] theorem frozen_port (s : State) : (frozen s).port = s.port := rfl
@[simp] theorem frozen_reg (s : State) : (frozen s).reg = s.reg := rfl
@[simp] theorem frozen_grp (s : State) : (frozen s).grp = s.grp := rfl
@[simp] theorem frozen_ep (s : State) : (frozen s).ep = s.ep := rfl
@[simp] theorem frozen_job (s : State) : (frozen s).job = s.job := rfl
@[simp] theorem frozen_fid (s : State) : (frozen s).fid = s.fid := rfl
@[simp] theorem frozen_cod (s : State) : (frozen s).cod = s.cod := rfl
@[simp] theorem frozen_upd (s : State) : (frozen s).upd = s.upd := rfl
@[simp] theorem frozen_coll (s : State) : (frozen s).coll = s.coll := rfl
@[simp] theorem frozen_tar (s : State) : (frozen s).tar = s.tar := rfl
@[simp] theorem frozen_reb (s : State) : (frozen s).reb = s.reb := rfl
@[simp] theorem frozen_aud (s : State) : (frozen s).aud = s.aud := rfl
@[simp] theorem frozen_part (s : State) : (frozen s).part = s.part := rfl
@[simp] theorem frozen_tally (s : State) : (frozen s).tally = s.tally := rfl
@[simp] theorem frozen_pub (s : State) : (frozen s).pub = s.pub := rfl
@[simp] theorem frozen_page (s : State) : (frozen s).page = s.page := rfl
@[simp] theorem frozen_tap (s : State) : (frozen s).tap = s.tap := rfl
@[simp] theorem frozen_exp (s : State) : (frozen s).exp = s.exp := rfl
@[simp] theorem frozen_viol (s : State) : (frozen s).viol = s.viol := rfl
@[simp] theorem frozen_freeCtr (s : State) : (frozen s).freeCtr = s.freeCtr := rfl

@[simp] theorem outResp_pending (r : Resp) (s : State) : (outResp r s).pending = s.pending := rfl
@[simp] theorem outResp_mem (r : Resp) (s : State) : (outResp r s).mem = s.mem := rfl
@[simp] theorem outResp_poison (r : Resp) (s : State) : (outResp r s).poison = s.poison := rfl
@[simp] theorem outResp_badRead (r : Resp) (s : State) : (outResp r s).badRead = s.badRead := rfl
@[simp] theorem outResp_badWrite (r : Resp) (s : State) : (outResp r s).badWrite = s.badWrite := rfl
@[simp] theorem outResp_fuse (r : Resp) (s : State) : (outResp r s).fuse = s.fuse := rfl
@[simp] theorem outResp_clk (r : Resp) (s : State) : (outResp r s).clk = s.clk := rfl
@[simp] theorem outResp_pwr (r : Resp) (s : State) : (outResp r s).pwr = s.pwr := rfl
@[simp] theorem outResp_pin (r : Resp) (s : State) : (outResp r s).pin = s.pin := rfl
@[simp] theorem outResp_mode (r : Resp) (s : State) : (outResp r s).mode = s.mode := rfl
@[simp] theorem outResp_dig (r : Resp) (s : State) : (outResp r s).dig = s.dig := rfl
@[simp] theorem outResp_rcd (r : Resp) (s : State) : (outResp r s).rcd = s.rcd := rfl
@[simp] theorem outResp_msg (r : Resp) (s : State) : (outResp r s).msg = s.msg := rfl
@[simp] theorem outResp_side (r : Resp) (s : State) : (outResp r s).side = s.side := rfl
@[simp] theorem outResp_keep (r : Resp) (s : State) : (outResp r s).keep = s.keep := rfl
@[simp] theorem outResp_sram (r : Resp) (s : State) : (outResp r s).sram = s.sram := rfl
@[simp] theorem outResp_port (r : Resp) (s : State) : (outResp r s).port = s.port := rfl
@[simp] theorem outResp_reg (r : Resp) (s : State) : (outResp r s).reg = s.reg := rfl
@[simp] theorem outResp_grp (r : Resp) (s : State) : (outResp r s).grp = s.grp := rfl
@[simp] theorem outResp_ep (r : Resp) (s : State) : (outResp r s).ep = s.ep := rfl
@[simp] theorem outResp_job (r : Resp) (s : State) : (outResp r s).job = s.job := rfl
@[simp] theorem outResp_fid (r : Resp) (s : State) : (outResp r s).fid = s.fid := rfl
@[simp] theorem outResp_cod (r : Resp) (s : State) : (outResp r s).cod = s.cod := rfl
@[simp] theorem outResp_upd (r : Resp) (s : State) : (outResp r s).upd = s.upd := rfl
@[simp] theorem outResp_coll (r : Resp) (s : State) : (outResp r s).coll = s.coll := rfl
@[simp] theorem outResp_tar (r : Resp) (s : State) : (outResp r s).tar = s.tar := rfl
@[simp] theorem outResp_reb (r : Resp) (s : State) : (outResp r s).reb = s.reb := rfl
@[simp] theorem outResp_aud (r : Resp) (s : State) : (outResp r s).aud = s.aud := rfl
@[simp] theorem outResp_part (r : Resp) (s : State) : (outResp r s).part = s.part := rfl
@[simp] theorem outResp_tally (r : Resp) (s : State) : (outResp r s).tally = s.tally := rfl
@[simp] theorem outResp_pub (r : Resp) (s : State) : (outResp r s).pub = s.pub := rfl
@[simp] theorem outResp_page (r : Resp) (s : State) : (outResp r s).page = s.page := rfl
@[simp] theorem outResp_tap (r : Resp) (s : State) : (outResp r s).tap = s.tap := rfl
@[simp] theorem outResp_exp (r : Resp) (s : State) : (outResp r s).exp = s.exp := rfl
@[simp] theorem outResp_viol (r : Resp) (s : State) : (outResp r s).viol = s.viol := rfl
@[simp] theorem outResp_freeCtr (r : Resp) (s : State) : (outResp r s).freeCtr = s.freeCtr := rfl

@[simp] theorem bumpLife_pending (i : Nat) (s : State) : (bumpLife i s).pending = s.pending := rfl
@[simp] theorem bumpLife_mem (i : Nat) (s : State) : (bumpLife i s).mem = s.mem := rfl
@[simp] theorem bumpLife_poison (i : Nat) (s : State) : (bumpLife i s).poison = s.poison := rfl
@[simp] theorem bumpLife_badRead (i : Nat) (s : State) : (bumpLife i s).badRead = s.badRead := rfl
@[simp] theorem bumpLife_badWrite (i : Nat) (s : State) : (bumpLife i s).badWrite = s.badWrite := rfl
@[simp] theorem bumpLife_fuse (i : Nat) (s : State) : (bumpLife i s).fuse = s.fuse := rfl
@[simp] theorem bumpLife_clk (i : Nat) (s : State) : (bumpLife i s).clk = s.clk := rfl
@[simp] theorem bumpLife_pwr (i : Nat) (s : State) : (bumpLife i s).pwr = s.pwr := rfl
@[simp] theorem bumpLife_pin (i : Nat) (s : State) : (bumpLife i s).pin = s.pin := rfl
@[simp] theorem bumpLife_mode (i : Nat) (s : State) : (bumpLife i s).mode = s.mode := rfl
@[simp] theorem bumpLife_dig (i : Nat) (s : State) : (bumpLife i s).dig = s.dig := rfl
@[simp] theorem bumpLife_rcd (i : Nat) (s : State) : (bumpLife i s).rcd = s.rcd := rfl
@[simp] theorem bumpLife_msg (i : Nat) (s : State) : (bumpLife i s).msg = s.msg := rfl
@[simp] theorem bumpLife_side (i : Nat) (s : State) : (bumpLife i s).side = s.side := rfl
@[simp] theorem bumpLife_sram (i : Nat) (s : State) : (bumpLife i s).sram = s.sram := rfl
@[simp] theorem bumpLife_fab (i : Nat) (s : State) : (bumpLife i s).fab = s.fab := rfl
@[simp] theorem bumpLife_port (i : Nat) (s : State) : (bumpLife i s).port = s.port := rfl
@[simp] theorem bumpLife_reg (i : Nat) (s : State) : (bumpLife i s).reg = s.reg := rfl
@[simp] theorem bumpLife_grp (i : Nat) (s : State) : (bumpLife i s).grp = s.grp := rfl
@[simp] theorem bumpLife_ep (i : Nat) (s : State) : (bumpLife i s).ep = s.ep := rfl
@[simp] theorem bumpLife_job (i : Nat) (s : State) : (bumpLife i s).job = s.job := rfl
@[simp] theorem bumpLife_fid (i : Nat) (s : State) : (bumpLife i s).fid = s.fid := rfl
@[simp] theorem bumpLife_cod (i : Nat) (s : State) : (bumpLife i s).cod = s.cod := rfl
@[simp] theorem bumpLife_upd (i : Nat) (s : State) : (bumpLife i s).upd = s.upd := rfl
@[simp] theorem bumpLife_coll (i : Nat) (s : State) : (bumpLife i s).coll = s.coll := rfl
@[simp] theorem bumpLife_tar (i : Nat) (s : State) : (bumpLife i s).tar = s.tar := rfl
@[simp] theorem bumpLife_reb (i : Nat) (s : State) : (bumpLife i s).reb = s.reb := rfl
@[simp] theorem bumpLife_aud (i : Nat) (s : State) : (bumpLife i s).aud = s.aud := rfl
@[simp] theorem bumpLife_part (i : Nat) (s : State) : (bumpLife i s).part = s.part := rfl
@[simp] theorem bumpLife_tally (i : Nat) (s : State) : (bumpLife i s).tally = s.tally := rfl
@[simp] theorem bumpLife_pub (i : Nat) (s : State) : (bumpLife i s).pub = s.pub := rfl
@[simp] theorem bumpLife_page (i : Nat) (s : State) : (bumpLife i s).page = s.page := rfl
@[simp] theorem bumpLife_tap (i : Nat) (s : State) : (bumpLife i s).tap = s.tap := rfl
@[simp] theorem bumpLife_exp (i : Nat) (s : State) : (bumpLife i s).exp = s.exp := rfl
@[simp] theorem bumpLife_viol (i : Nat) (s : State) : (bumpLife i s).viol = s.viol := rfl
@[simp] theorem bumpLife_freeCtr (i : Nat) (s : State) : (bumpLife i s).freeCtr = s.freeCtr := rfl

@[simp] theorem countLive_pending (s : State) : (countLive s).pending = s.pending := rfl
@[simp] theorem countLive_mem (s : State) : (countLive s).mem = s.mem := rfl
@[simp] theorem countLive_poison (s : State) : (countLive s).poison = s.poison := rfl
@[simp] theorem countLive_badRead (s : State) : (countLive s).badRead = s.badRead := rfl
@[simp] theorem countLive_badWrite (s : State) : (countLive s).badWrite = s.badWrite := rfl
@[simp] theorem countLive_fuse (s : State) : (countLive s).fuse = s.fuse := rfl
@[simp] theorem countLive_clk (s : State) : (countLive s).clk = s.clk := rfl
@[simp] theorem countLive_pwr (s : State) : (countLive s).pwr = s.pwr := rfl
@[simp] theorem countLive_pin (s : State) : (countLive s).pin = s.pin := rfl
@[simp] theorem countLive_mode (s : State) : (countLive s).mode = s.mode := rfl
@[simp] theorem countLive_dig (s : State) : (countLive s).dig = s.dig := rfl
@[simp] theorem countLive_msg (s : State) : (countLive s).msg = s.msg := rfl
@[simp] theorem countLive_side (s : State) : (countLive s).side = s.side := rfl
@[simp] theorem countLive_keep (s : State) : (countLive s).keep = s.keep := rfl
@[simp] theorem countLive_sram (s : State) : (countLive s).sram = s.sram := rfl
@[simp] theorem countLive_fab (s : State) : (countLive s).fab = s.fab := rfl
@[simp] theorem countLive_port (s : State) : (countLive s).port = s.port := rfl
@[simp] theorem countLive_reg (s : State) : (countLive s).reg = s.reg := rfl
@[simp] theorem countLive_grp (s : State) : (countLive s).grp = s.grp := rfl
@[simp] theorem countLive_ep (s : State) : (countLive s).ep = s.ep := rfl
@[simp] theorem countLive_job (s : State) : (countLive s).job = s.job := rfl
@[simp] theorem countLive_fid (s : State) : (countLive s).fid = s.fid := rfl
@[simp] theorem countLive_cod (s : State) : (countLive s).cod = s.cod := rfl
@[simp] theorem countLive_upd (s : State) : (countLive s).upd = s.upd := rfl
@[simp] theorem countLive_coll (s : State) : (countLive s).coll = s.coll := rfl
@[simp] theorem countLive_tar (s : State) : (countLive s).tar = s.tar := rfl
@[simp] theorem countLive_reb (s : State) : (countLive s).reb = s.reb := rfl
@[simp] theorem countLive_aud (s : State) : (countLive s).aud = s.aud := rfl
@[simp] theorem countLive_part (s : State) : (countLive s).part = s.part := rfl
@[simp] theorem countLive_tally (s : State) : (countLive s).tally = s.tally := rfl
@[simp] theorem countLive_pub (s : State) : (countLive s).pub = s.pub := rfl
@[simp] theorem countLive_page (s : State) : (countLive s).page = s.page := rfl
@[simp] theorem countLive_tap (s : State) : (countLive s).tap = s.tap := rfl
@[simp] theorem countLive_exp (s : State) : (countLive s).exp = s.exp := rfl
@[simp] theorem countLive_viol (s : State) : (countLive s).viol = s.viol := rfl
@[simp] theorem countLive_freeCtr (s : State) : (countLive s).freeCtr = s.freeCtr := rfl

@[simp] theorem coreOn_pending (n : Nat) (s : State) : (coreOn n s).pending = s.pending := rfl
@[simp] theorem coreOn_mem (n : Nat) (s : State) : (coreOn n s).mem = s.mem := rfl
@[simp] theorem coreOn_poison (n : Nat) (s : State) : (coreOn n s).poison = s.poison := rfl
@[simp] theorem coreOn_badRead (n : Nat) (s : State) : (coreOn n s).badRead = s.badRead := rfl
@[simp] theorem coreOn_badWrite (n : Nat) (s : State) : (coreOn n s).badWrite = s.badWrite := rfl
@[simp] theorem coreOn_fuse (n : Nat) (s : State) : (coreOn n s).fuse = s.fuse := rfl
@[simp] theorem coreOn_pwr (n : Nat) (s : State) : (coreOn n s).pwr = s.pwr := rfl
@[simp] theorem coreOn_pin (n : Nat) (s : State) : (coreOn n s).pin = s.pin := rfl
@[simp] theorem coreOn_mode (n : Nat) (s : State) : (coreOn n s).mode = s.mode := rfl
@[simp] theorem coreOn_dig (n : Nat) (s : State) : (coreOn n s).dig = s.dig := rfl
@[simp] theorem coreOn_rcd (n : Nat) (s : State) : (coreOn n s).rcd = s.rcd := rfl
@[simp] theorem coreOn_msg (n : Nat) (s : State) : (coreOn n s).msg = s.msg := rfl
@[simp] theorem coreOn_side (n : Nat) (s : State) : (coreOn n s).side = s.side := rfl
@[simp] theorem coreOn_keep (n : Nat) (s : State) : (coreOn n s).keep = s.keep := rfl
@[simp] theorem coreOn_sram (n : Nat) (s : State) : (coreOn n s).sram = s.sram := rfl
@[simp] theorem coreOn_fab (n : Nat) (s : State) : (coreOn n s).fab = s.fab := rfl
@[simp] theorem coreOn_port (n : Nat) (s : State) : (coreOn n s).port = s.port := rfl
@[simp] theorem coreOn_reg (n : Nat) (s : State) : (coreOn n s).reg = s.reg := rfl
@[simp] theorem coreOn_grp (n : Nat) (s : State) : (coreOn n s).grp = s.grp := rfl
@[simp] theorem coreOn_ep (n : Nat) (s : State) : (coreOn n s).ep = s.ep := rfl
@[simp] theorem coreOn_job (n : Nat) (s : State) : (coreOn n s).job = s.job := rfl
@[simp] theorem coreOn_fid (n : Nat) (s : State) : (coreOn n s).fid = s.fid := rfl
@[simp] theorem coreOn_cod (n : Nat) (s : State) : (coreOn n s).cod = s.cod := rfl
@[simp] theorem coreOn_upd (n : Nat) (s : State) : (coreOn n s).upd = s.upd := rfl
@[simp] theorem coreOn_coll (n : Nat) (s : State) : (coreOn n s).coll = s.coll := rfl
@[simp] theorem coreOn_tar (n : Nat) (s : State) : (coreOn n s).tar = s.tar := rfl
@[simp] theorem coreOn_reb (n : Nat) (s : State) : (coreOn n s).reb = s.reb := rfl
@[simp] theorem coreOn_aud (n : Nat) (s : State) : (coreOn n s).aud = s.aud := rfl
@[simp] theorem coreOn_part (n : Nat) (s : State) : (coreOn n s).part = s.part := rfl
@[simp] theorem coreOn_tally (n : Nat) (s : State) : (coreOn n s).tally = s.tally := rfl
@[simp] theorem coreOn_pub (n : Nat) (s : State) : (coreOn n s).pub = s.pub := rfl
@[simp] theorem coreOn_page (n : Nat) (s : State) : (coreOn n s).page = s.page := rfl
@[simp] theorem coreOn_tap (n : Nat) (s : State) : (coreOn n s).tap = s.tap := rfl
@[simp] theorem coreOn_exp (n : Nat) (s : State) : (coreOn n s).exp = s.exp := rfl
@[simp] theorem coreOn_viol (n : Nat) (s : State) : (coreOn n s).viol = s.viol := rfl
@[simp] theorem coreOn_freeCtr (n : Nat) (s : State) : (coreOn n s).freeCtr = s.freeCtr := rfl

@[simp] theorem unfixByte_pending (a : Nat) (s : State) : (unfixByte a s).pending = s.pending := rfl
@[simp] theorem unfixByte_mem (a : Nat) (s : State) : (unfixByte a s).mem = s.mem := rfl
@[simp] theorem unfixByte_poison (a : Nat) (s : State) : (unfixByte a s).poison = s.poison := rfl
@[simp] theorem unfixByte_badRead (a : Nat) (s : State) : (unfixByte a s).badRead = s.badRead := rfl
@[simp] theorem unfixByte_badWrite (a : Nat) (s : State) : (unfixByte a s).badWrite = s.badWrite := rfl
@[simp] theorem unfixByte_fuse (a : Nat) (s : State) : (unfixByte a s).fuse = s.fuse := rfl
@[simp] theorem unfixByte_clk (a : Nat) (s : State) : (unfixByte a s).clk = s.clk := rfl
@[simp] theorem unfixByte_pwr (a : Nat) (s : State) : (unfixByte a s).pwr = s.pwr := rfl
@[simp] theorem unfixByte_pin (a : Nat) (s : State) : (unfixByte a s).pin = s.pin := rfl
@[simp] theorem unfixByte_mode (a : Nat) (s : State) : (unfixByte a s).mode = s.mode := rfl
@[simp] theorem unfixByte_dig (a : Nat) (s : State) : (unfixByte a s).dig = s.dig := rfl
@[simp] theorem unfixByte_rcd (a : Nat) (s : State) : (unfixByte a s).rcd = s.rcd := rfl
@[simp] theorem unfixByte_msg (a : Nat) (s : State) : (unfixByte a s).msg = s.msg := rfl
@[simp] theorem unfixByte_side (a : Nat) (s : State) : (unfixByte a s).side = s.side := rfl
@[simp] theorem unfixByte_keep (a : Nat) (s : State) : (unfixByte a s).keep = s.keep := rfl
@[simp] theorem unfixByte_fab (a : Nat) (s : State) : (unfixByte a s).fab = s.fab := rfl
@[simp] theorem unfixByte_port (a : Nat) (s : State) : (unfixByte a s).port = s.port := rfl
@[simp] theorem unfixByte_reg (a : Nat) (s : State) : (unfixByte a s).reg = s.reg := rfl
@[simp] theorem unfixByte_grp (a : Nat) (s : State) : (unfixByte a s).grp = s.grp := rfl
@[simp] theorem unfixByte_ep (a : Nat) (s : State) : (unfixByte a s).ep = s.ep := rfl
@[simp] theorem unfixByte_job (a : Nat) (s : State) : (unfixByte a s).job = s.job := rfl
@[simp] theorem unfixByte_fid (a : Nat) (s : State) : (unfixByte a s).fid = s.fid := rfl
@[simp] theorem unfixByte_cod (a : Nat) (s : State) : (unfixByte a s).cod = s.cod := rfl
@[simp] theorem unfixByte_upd (a : Nat) (s : State) : (unfixByte a s).upd = s.upd := rfl
@[simp] theorem unfixByte_coll (a : Nat) (s : State) : (unfixByte a s).coll = s.coll := rfl
@[simp] theorem unfixByte_tar (a : Nat) (s : State) : (unfixByte a s).tar = s.tar := rfl
@[simp] theorem unfixByte_reb (a : Nat) (s : State) : (unfixByte a s).reb = s.reb := rfl
@[simp] theorem unfixByte_aud (a : Nat) (s : State) : (unfixByte a s).aud = s.aud := rfl
@[simp] theorem unfixByte_part (a : Nat) (s : State) : (unfixByte a s).part = s.part := rfl
@[simp] theorem unfixByte_tally (a : Nat) (s : State) : (unfixByte a s).tally = s.tally := rfl
@[simp] theorem unfixByte_pub (a : Nat) (s : State) : (unfixByte a s).pub = s.pub := rfl
@[simp] theorem unfixByte_page (a : Nat) (s : State) : (unfixByte a s).page = s.page := rfl
@[simp] theorem unfixByte_tap (a : Nat) (s : State) : (unfixByte a s).tap = s.tap := rfl
@[simp] theorem unfixByte_exp (a : Nat) (s : State) : (unfixByte a s).exp = s.exp := rfl
@[simp] theorem unfixByte_viol (a : Nat) (s : State) : (unfixByte a s).viol = s.viol := rfl
@[simp] theorem unfixByte_freeCtr (a : Nat) (s : State) : (unfixByte a s).freeCtr = s.freeCtr := rfl

@[simp] theorem sideRelease_pending (s : State) : (sideRelease s).pending = s.pending := rfl
@[simp] theorem sideRelease_mem (s : State) : (sideRelease s).mem = s.mem := rfl
@[simp] theorem sideRelease_poison (s : State) : (sideRelease s).poison = s.poison := rfl
@[simp] theorem sideRelease_badRead (s : State) : (sideRelease s).badRead = s.badRead := rfl
@[simp] theorem sideRelease_badWrite (s : State) : (sideRelease s).badWrite = s.badWrite := rfl
@[simp] theorem sideRelease_fuse (s : State) : (sideRelease s).fuse = s.fuse := rfl
@[simp] theorem sideRelease_clk (s : State) : (sideRelease s).clk = s.clk := rfl
@[simp] theorem sideRelease_pwr (s : State) : (sideRelease s).pwr = s.pwr := rfl
@[simp] theorem sideRelease_mode (s : State) : (sideRelease s).mode = s.mode := rfl
@[simp] theorem sideRelease_dig (s : State) : (sideRelease s).dig = s.dig := rfl
@[simp] theorem sideRelease_rcd (s : State) : (sideRelease s).rcd = s.rcd := rfl
@[simp] theorem sideRelease_msg (s : State) : (sideRelease s).msg = s.msg := rfl
@[simp] theorem sideRelease_keep (s : State) : (sideRelease s).keep = s.keep := rfl
@[simp] theorem sideRelease_sram (s : State) : (sideRelease s).sram = s.sram := rfl
@[simp] theorem sideRelease_fab (s : State) : (sideRelease s).fab = s.fab := rfl
@[simp] theorem sideRelease_port (s : State) : (sideRelease s).port = s.port := rfl
@[simp] theorem sideRelease_reg (s : State) : (sideRelease s).reg = s.reg := rfl
@[simp] theorem sideRelease_grp (s : State) : (sideRelease s).grp = s.grp := rfl
@[simp] theorem sideRelease_ep (s : State) : (sideRelease s).ep = s.ep := rfl
@[simp] theorem sideRelease_job (s : State) : (sideRelease s).job = s.job := rfl
@[simp] theorem sideRelease_fid (s : State) : (sideRelease s).fid = s.fid := rfl
@[simp] theorem sideRelease_cod (s : State) : (sideRelease s).cod = s.cod := rfl
@[simp] theorem sideRelease_upd (s : State) : (sideRelease s).upd = s.upd := rfl
@[simp] theorem sideRelease_coll (s : State) : (sideRelease s).coll = s.coll := rfl
@[simp] theorem sideRelease_tar (s : State) : (sideRelease s).tar = s.tar := rfl
@[simp] theorem sideRelease_reb (s : State) : (sideRelease s).reb = s.reb := rfl
@[simp] theorem sideRelease_aud (s : State) : (sideRelease s).aud = s.aud := rfl
@[simp] theorem sideRelease_part (s : State) : (sideRelease s).part = s.part := rfl
@[simp] theorem sideRelease_tally (s : State) : (sideRelease s).tally = s.tally := rfl
@[simp] theorem sideRelease_pub (s : State) : (sideRelease s).pub = s.pub := rfl
@[simp] theorem sideRelease_page (s : State) : (sideRelease s).page = s.page := rfl
@[simp] theorem sideRelease_tap (s : State) : (sideRelease s).tap = s.tap := rfl
@[simp] theorem sideRelease_exp (s : State) : (sideRelease s).exp = s.exp := rfl
@[simp] theorem sideRelease_viol (s : State) : (sideRelease s).viol = s.viol := rfl
@[simp] theorem sideRelease_freeCtr (s : State) : (sideRelease s).freeCtr = s.freeCtr := rfl

@[simp] theorem leaveIdle_pending (s : State) : (leaveIdle s).pending = s.pending := by
  unfold leaveIdle
  split <;> rfl
@[simp] theorem leaveIdle_mem (s : State) : (leaveIdle s).mem = s.mem := by
  unfold leaveIdle
  split <;> rfl
@[simp] theorem leaveIdle_poison (s : State) : (leaveIdle s).poison = s.poison := by
  unfold leaveIdle
  split <;> rfl
@[simp] theorem leaveIdle_badRead (s : State) : (leaveIdle s).badRead = s.badRead := by
  unfold leaveIdle
  split <;> rfl
@[simp] theorem leaveIdle_badWrite (s : State) : (leaveIdle s).badWrite = s.badWrite := by
  unfold leaveIdle
  split <;> rfl
@[simp] theorem leaveIdle_fuse (s : State) : (leaveIdle s).fuse = s.fuse := by
  unfold leaveIdle
  split <;> rfl
@[simp] theorem leaveIdle_clk (s : State) : (leaveIdle s).clk = s.clk := by
  unfold leaveIdle
  split <;> rfl
@[simp] theorem leaveIdle_pin (s : State) : (leaveIdle s).pin = s.pin := by
  unfold leaveIdle
  split <;> rfl
@[simp] theorem leaveIdle_mode (s : State) : (leaveIdle s).mode = s.mode := by
  unfold leaveIdle
  split <;> rfl
@[simp] theorem leaveIdle_dig (s : State) : (leaveIdle s).dig = s.dig := by
  unfold leaveIdle
  split <;> rfl
@[simp] theorem leaveIdle_rcd (s : State) : (leaveIdle s).rcd = s.rcd := by
  unfold leaveIdle
  split <;> rfl
@[simp] theorem leaveIdle_msg (s : State) : (leaveIdle s).msg = s.msg := by
  unfold leaveIdle
  split <;> rfl
@[simp] theorem leaveIdle_side (s : State) : (leaveIdle s).side = s.side := by
  unfold leaveIdle
  split <;> rfl
@[simp] theorem leaveIdle_keep (s : State) : (leaveIdle s).keep = s.keep := by
  unfold leaveIdle
  split <;> rfl
@[simp] theorem leaveIdle_sram (s : State) : (leaveIdle s).sram = s.sram := by
  unfold leaveIdle
  split <;> rfl
@[simp] theorem leaveIdle_fab (s : State) : (leaveIdle s).fab = s.fab := by
  unfold leaveIdle
  split <;> rfl
@[simp] theorem leaveIdle_port (s : State) : (leaveIdle s).port = s.port := by
  unfold leaveIdle
  split <;> rfl
@[simp] theorem leaveIdle_reg (s : State) : (leaveIdle s).reg = s.reg := by
  unfold leaveIdle
  split <;> rfl
@[simp] theorem leaveIdle_grp (s : State) : (leaveIdle s).grp = s.grp := by
  unfold leaveIdle
  split <;> rfl
@[simp] theorem leaveIdle_ep (s : State) : (leaveIdle s).ep = s.ep := by
  unfold leaveIdle
  split <;> rfl
@[simp] theorem leaveIdle_job (s : State) : (leaveIdle s).job = s.job := by
  unfold leaveIdle
  split <;> rfl
@[simp] theorem leaveIdle_fid (s : State) : (leaveIdle s).fid = s.fid := by
  unfold leaveIdle
  split <;> rfl
@[simp] theorem leaveIdle_cod (s : State) : (leaveIdle s).cod = s.cod := by
  unfold leaveIdle
  split <;> rfl
@[simp] theorem leaveIdle_upd (s : State) : (leaveIdle s).upd = s.upd := by
  unfold leaveIdle
  split <;> rfl
@[simp] theorem leaveIdle_coll (s : State) : (leaveIdle s).coll = s.coll := by
  unfold leaveIdle
  split <;> rfl
@[simp] theorem leaveIdle_tar (s : State) : (leaveIdle s).tar = s.tar := by
  unfold leaveIdle
  split <;> rfl
@[simp] theorem leaveIdle_reb (s : State) : (leaveIdle s).reb = s.reb := by
  unfold leaveIdle
  split <;> rfl
@[simp] theorem leaveIdle_aud (s : State) : (leaveIdle s).aud = s.aud := by
  unfold leaveIdle
  split <;> rfl
@[simp] theorem leaveIdle_part (s : State) : (leaveIdle s).part = s.part := by
  unfold leaveIdle
  split <;> rfl
@[simp] theorem leaveIdle_tally (s : State) : (leaveIdle s).tally = s.tally := by
  unfold leaveIdle
  split <;> rfl
@[simp] theorem leaveIdle_pub (s : State) : (leaveIdle s).pub = s.pub := by
  unfold leaveIdle
  split <;> rfl
@[simp] theorem leaveIdle_page (s : State) : (leaveIdle s).page = s.page := by
  unfold leaveIdle
  split <;> rfl
@[simp] theorem leaveIdle_tap (s : State) : (leaveIdle s).tap = s.tap := by
  unfold leaveIdle
  split <;> rfl
@[simp] theorem leaveIdle_exp (s : State) : (leaveIdle s).exp = s.exp := by
  unfold leaveIdle
  split <;> rfl
@[simp] theorem leaveIdle_viol (s : State) : (leaveIdle s).viol = s.viol := by
  unfold leaveIdle
  split <;> rfl
@[simp] theorem leaveIdle_freeCtr (s : State) : (leaveIdle s).freeCtr = s.freeCtr := by
  unfold leaveIdle
  split <;> rfl

@[simp] theorem setIssuer_pending (f : Issuer → Issuer) (s : State) : (setIssuer f s).pending = s.pending := rfl
@[simp] theorem setIssuer_mem (f : Issuer → Issuer) (s : State) : (setIssuer f s).mem = s.mem := rfl
@[simp] theorem setIssuer_poison (f : Issuer → Issuer) (s : State) : (setIssuer f s).poison = s.poison := rfl
@[simp] theorem setIssuer_badRead (f : Issuer → Issuer) (s : State) : (setIssuer f s).badRead = s.badRead := rfl
@[simp] theorem setIssuer_badWrite (f : Issuer → Issuer) (s : State) : (setIssuer f s).badWrite = s.badWrite := rfl
@[simp] theorem setIssuer_fuse (f : Issuer → Issuer) (s : State) : (setIssuer f s).fuse = s.fuse := rfl
@[simp] theorem setIssuer_clk (f : Issuer → Issuer) (s : State) : (setIssuer f s).clk = s.clk := rfl
@[simp] theorem setIssuer_pwr (f : Issuer → Issuer) (s : State) : (setIssuer f s).pwr = s.pwr := rfl
@[simp] theorem setIssuer_pin (f : Issuer → Issuer) (s : State) : (setIssuer f s).pin = s.pin := rfl
@[simp] theorem setIssuer_mode (f : Issuer → Issuer) (s : State) : (setIssuer f s).mode = s.mode := rfl
@[simp] theorem setIssuer_dig (f : Issuer → Issuer) (s : State) : (setIssuer f s).dig = s.dig := rfl
@[simp] theorem setIssuer_rcd (f : Issuer → Issuer) (s : State) : (setIssuer f s).rcd = s.rcd := rfl
@[simp] theorem setIssuer_msg (f : Issuer → Issuer) (s : State) : (setIssuer f s).msg = s.msg := rfl
@[simp] theorem setIssuer_side (f : Issuer → Issuer) (s : State) : (setIssuer f s).side = s.side := rfl
@[simp] theorem setIssuer_keep (f : Issuer → Issuer) (s : State) : (setIssuer f s).keep = s.keep := rfl
@[simp] theorem setIssuer_sram (f : Issuer → Issuer) (s : State) : (setIssuer f s).sram = s.sram := rfl
@[simp] theorem setIssuer_fab (f : Issuer → Issuer) (s : State) : (setIssuer f s).fab = s.fab := rfl
@[simp] theorem setIssuer_port (f : Issuer → Issuer) (s : State) : (setIssuer f s).port = s.port := rfl
@[simp] theorem setIssuer_reg (f : Issuer → Issuer) (s : State) : (setIssuer f s).reg = s.reg := rfl
@[simp] theorem setIssuer_grp (f : Issuer → Issuer) (s : State) : (setIssuer f s).grp = s.grp := rfl
@[simp] theorem setIssuer_ep (f : Issuer → Issuer) (s : State) : (setIssuer f s).ep = s.ep := rfl
@[simp] theorem setIssuer_job (f : Issuer → Issuer) (s : State) : (setIssuer f s).job = s.job := rfl
@[simp] theorem setIssuer_fid (f : Issuer → Issuer) (s : State) : (setIssuer f s).fid = s.fid := rfl
@[simp] theorem setIssuer_cod (f : Issuer → Issuer) (s : State) : (setIssuer f s).cod = s.cod := rfl
@[simp] theorem setIssuer_upd (f : Issuer → Issuer) (s : State) : (setIssuer f s).upd = s.upd := rfl
@[simp] theorem setIssuer_coll (f : Issuer → Issuer) (s : State) : (setIssuer f s).coll = s.coll := rfl
@[simp] theorem setIssuer_reb (f : Issuer → Issuer) (s : State) : (setIssuer f s).reb = s.reb := rfl
@[simp] theorem setIssuer_aud (f : Issuer → Issuer) (s : State) : (setIssuer f s).aud = s.aud := rfl
@[simp] theorem setIssuer_part (f : Issuer → Issuer) (s : State) : (setIssuer f s).part = s.part := rfl
@[simp] theorem setIssuer_tally (f : Issuer → Issuer) (s : State) : (setIssuer f s).tally = s.tally := rfl
@[simp] theorem setIssuer_pub (f : Issuer → Issuer) (s : State) : (setIssuer f s).pub = s.pub := rfl
@[simp] theorem setIssuer_page (f : Issuer → Issuer) (s : State) : (setIssuer f s).page = s.page := rfl
@[simp] theorem setIssuer_tap (f : Issuer → Issuer) (s : State) : (setIssuer f s).tap = s.tap := rfl
@[simp] theorem setIssuer_exp (f : Issuer → Issuer) (s : State) : (setIssuer f s).exp = s.exp := rfl
@[simp] theorem setIssuer_viol (f : Issuer → Issuer) (s : State) : (setIssuer f s).viol = s.viol := rfl
@[simp] theorem setIssuer_freeCtr (f : Issuer → Issuer) (s : State) : (setIssuer f s).freeCtr = s.freeCtr := rfl

@[simp] theorem setLeader_pending (f : Leader → Leader) (s : State) : (setLeader f s).pending = s.pending := rfl
@[simp] theorem setLeader_mem (f : Leader → Leader) (s : State) : (setLeader f s).mem = s.mem := rfl
@[simp] theorem setLeader_poison (f : Leader → Leader) (s : State) : (setLeader f s).poison = s.poison := rfl
@[simp] theorem setLeader_badRead (f : Leader → Leader) (s : State) : (setLeader f s).badRead = s.badRead := rfl
@[simp] theorem setLeader_badWrite (f : Leader → Leader) (s : State) : (setLeader f s).badWrite = s.badWrite := rfl
@[simp] theorem setLeader_fuse (f : Leader → Leader) (s : State) : (setLeader f s).fuse = s.fuse := rfl
@[simp] theorem setLeader_clk (f : Leader → Leader) (s : State) : (setLeader f s).clk = s.clk := rfl
@[simp] theorem setLeader_pwr (f : Leader → Leader) (s : State) : (setLeader f s).pwr = s.pwr := rfl
@[simp] theorem setLeader_pin (f : Leader → Leader) (s : State) : (setLeader f s).pin = s.pin := rfl
@[simp] theorem setLeader_mode (f : Leader → Leader) (s : State) : (setLeader f s).mode = s.mode := rfl
@[simp] theorem setLeader_dig (f : Leader → Leader) (s : State) : (setLeader f s).dig = s.dig := rfl
@[simp] theorem setLeader_rcd (f : Leader → Leader) (s : State) : (setLeader f s).rcd = s.rcd := rfl
@[simp] theorem setLeader_msg (f : Leader → Leader) (s : State) : (setLeader f s).msg = s.msg := rfl
@[simp] theorem setLeader_side (f : Leader → Leader) (s : State) : (setLeader f s).side = s.side := rfl
@[simp] theorem setLeader_keep (f : Leader → Leader) (s : State) : (setLeader f s).keep = s.keep := rfl
@[simp] theorem setLeader_sram (f : Leader → Leader) (s : State) : (setLeader f s).sram = s.sram := rfl
@[simp] theorem setLeader_fab (f : Leader → Leader) (s : State) : (setLeader f s).fab = s.fab := rfl
@[simp] theorem setLeader_port (f : Leader → Leader) (s : State) : (setLeader f s).port = s.port := rfl
@[simp] theorem setLeader_reg (f : Leader → Leader) (s : State) : (setLeader f s).reg = s.reg := rfl
@[simp] theorem setLeader_grp (f : Leader → Leader) (s : State) : (setLeader f s).grp = s.grp := rfl
@[simp] theorem setLeader_ep (f : Leader → Leader) (s : State) : (setLeader f s).ep = s.ep := rfl
@[simp] theorem setLeader_job (f : Leader → Leader) (s : State) : (setLeader f s).job = s.job := rfl
@[simp] theorem setLeader_fid (f : Leader → Leader) (s : State) : (setLeader f s).fid = s.fid := rfl
@[simp] theorem setLeader_cod (f : Leader → Leader) (s : State) : (setLeader f s).cod = s.cod := rfl
@[simp] theorem setLeader_upd (f : Leader → Leader) (s : State) : (setLeader f s).upd = s.upd := rfl
@[simp] theorem setLeader_coll (f : Leader → Leader) (s : State) : (setLeader f s).coll = s.coll := rfl
@[simp] theorem setLeader_reb (f : Leader → Leader) (s : State) : (setLeader f s).reb = s.reb := rfl
@[simp] theorem setLeader_aud (f : Leader → Leader) (s : State) : (setLeader f s).aud = s.aud := rfl
@[simp] theorem setLeader_part (f : Leader → Leader) (s : State) : (setLeader f s).part = s.part := rfl
@[simp] theorem setLeader_tally (f : Leader → Leader) (s : State) : (setLeader f s).tally = s.tally := rfl
@[simp] theorem setLeader_pub (f : Leader → Leader) (s : State) : (setLeader f s).pub = s.pub := rfl
@[simp] theorem setLeader_page (f : Leader → Leader) (s : State) : (setLeader f s).page = s.page := rfl
@[simp] theorem setLeader_tap (f : Leader → Leader) (s : State) : (setLeader f s).tap = s.tap := rfl
@[simp] theorem setLeader_exp (f : Leader → Leader) (s : State) : (setLeader f s).exp = s.exp := rfl
@[simp] theorem setLeader_viol (f : Leader → Leader) (s : State) : (setLeader f s).viol = s.viol := rfl
@[simp] theorem setLeader_freeCtr (f : Leader → Leader) (s : State) : (setLeader f s).freeCtr = s.freeCtr := rfl

@[simp] theorem putRun_pending (r : Rebuild) (s : State) : (putRun r s).pending = s.pending := rfl
@[simp] theorem putRun_mem (r : Rebuild) (s : State) : (putRun r s).mem = s.mem := rfl
@[simp] theorem putRun_poison (r : Rebuild) (s : State) : (putRun r s).poison = s.poison := rfl
@[simp] theorem putRun_badRead (r : Rebuild) (s : State) : (putRun r s).badRead = s.badRead := rfl
@[simp] theorem putRun_badWrite (r : Rebuild) (s : State) : (putRun r s).badWrite = s.badWrite := rfl
@[simp] theorem putRun_fuse (r : Rebuild) (s : State) : (putRun r s).fuse = s.fuse := rfl
@[simp] theorem putRun_clk (r : Rebuild) (s : State) : (putRun r s).clk = s.clk := rfl
@[simp] theorem putRun_pwr (r : Rebuild) (s : State) : (putRun r s).pwr = s.pwr := rfl
@[simp] theorem putRun_pin (r : Rebuild) (s : State) : (putRun r s).pin = s.pin := rfl
@[simp] theorem putRun_mode (r : Rebuild) (s : State) : (putRun r s).mode = s.mode := rfl
@[simp] theorem putRun_dig (r : Rebuild) (s : State) : (putRun r s).dig = s.dig := rfl
@[simp] theorem putRun_rcd (r : Rebuild) (s : State) : (putRun r s).rcd = s.rcd := rfl
@[simp] theorem putRun_msg (r : Rebuild) (s : State) : (putRun r s).msg = s.msg := rfl
@[simp] theorem putRun_side (r : Rebuild) (s : State) : (putRun r s).side = s.side := rfl
@[simp] theorem putRun_keep (r : Rebuild) (s : State) : (putRun r s).keep = s.keep := rfl
@[simp] theorem putRun_sram (r : Rebuild) (s : State) : (putRun r s).sram = s.sram := rfl
@[simp] theorem putRun_fab (r : Rebuild) (s : State) : (putRun r s).fab = s.fab := rfl
@[simp] theorem putRun_port (r : Rebuild) (s : State) : (putRun r s).port = s.port := rfl
@[simp] theorem putRun_reg (r : Rebuild) (s : State) : (putRun r s).reg = s.reg := rfl
@[simp] theorem putRun_grp (r : Rebuild) (s : State) : (putRun r s).grp = s.grp := rfl
@[simp] theorem putRun_ep (r : Rebuild) (s : State) : (putRun r s).ep = s.ep := rfl
@[simp] theorem putRun_job (r : Rebuild) (s : State) : (putRun r s).job = s.job := rfl
@[simp] theorem putRun_fid (r : Rebuild) (s : State) : (putRun r s).fid = s.fid := rfl
@[simp] theorem putRun_cod (r : Rebuild) (s : State) : (putRun r s).cod = s.cod := rfl
@[simp] theorem putRun_upd (r : Rebuild) (s : State) : (putRun r s).upd = s.upd := rfl
@[simp] theorem putRun_coll (r : Rebuild) (s : State) : (putRun r s).coll = s.coll := rfl
@[simp] theorem putRun_tar (r : Rebuild) (s : State) : (putRun r s).tar = s.tar := rfl
@[simp] theorem putRun_aud (r : Rebuild) (s : State) : (putRun r s).aud = s.aud := rfl
@[simp] theorem putRun_part (r : Rebuild) (s : State) : (putRun r s).part = s.part := rfl
@[simp] theorem putRun_tally (r : Rebuild) (s : State) : (putRun r s).tally = s.tally := rfl
@[simp] theorem putRun_pub (r : Rebuild) (s : State) : (putRun r s).pub = s.pub := rfl
@[simp] theorem putRun_page (r : Rebuild) (s : State) : (putRun r s).page = s.page := rfl
@[simp] theorem putRun_tap (r : Rebuild) (s : State) : (putRun r s).tap = s.tap := rfl
@[simp] theorem putRun_exp (r : Rebuild) (s : State) : (putRun r s).exp = s.exp := rfl
@[simp] theorem putRun_viol (r : Rebuild) (s : State) : (putRun r s).viol = s.viol := rfl
@[simp] theorem putRun_freeCtr (r : Rebuild) (s : State) : (putRun r s).freeCtr = s.freeCtr := rfl

@[simp] theorem putColl_pending (c : Coll) (s : State) : (putColl c s).pending = s.pending := rfl
@[simp] theorem putColl_mem (c : Coll) (s : State) : (putColl c s).mem = s.mem := rfl
@[simp] theorem putColl_poison (c : Coll) (s : State) : (putColl c s).poison = s.poison := rfl
@[simp] theorem putColl_badRead (c : Coll) (s : State) : (putColl c s).badRead = s.badRead := rfl
@[simp] theorem putColl_badWrite (c : Coll) (s : State) : (putColl c s).badWrite = s.badWrite := rfl
@[simp] theorem putColl_fuse (c : Coll) (s : State) : (putColl c s).fuse = s.fuse := rfl
@[simp] theorem putColl_clk (c : Coll) (s : State) : (putColl c s).clk = s.clk := rfl
@[simp] theorem putColl_pwr (c : Coll) (s : State) : (putColl c s).pwr = s.pwr := rfl
@[simp] theorem putColl_pin (c : Coll) (s : State) : (putColl c s).pin = s.pin := rfl
@[simp] theorem putColl_mode (c : Coll) (s : State) : (putColl c s).mode = s.mode := rfl
@[simp] theorem putColl_dig (c : Coll) (s : State) : (putColl c s).dig = s.dig := rfl
@[simp] theorem putColl_rcd (c : Coll) (s : State) : (putColl c s).rcd = s.rcd := rfl
@[simp] theorem putColl_msg (c : Coll) (s : State) : (putColl c s).msg = s.msg := rfl
@[simp] theorem putColl_side (c : Coll) (s : State) : (putColl c s).side = s.side := rfl
@[simp] theorem putColl_keep (c : Coll) (s : State) : (putColl c s).keep = s.keep := rfl
@[simp] theorem putColl_sram (c : Coll) (s : State) : (putColl c s).sram = s.sram := rfl
@[simp] theorem putColl_fab (c : Coll) (s : State) : (putColl c s).fab = s.fab := rfl
@[simp] theorem putColl_port (c : Coll) (s : State) : (putColl c s).port = s.port := rfl
@[simp] theorem putColl_reg (c : Coll) (s : State) : (putColl c s).reg = s.reg := rfl
@[simp] theorem putColl_grp (c : Coll) (s : State) : (putColl c s).grp = s.grp := rfl
@[simp] theorem putColl_ep (c : Coll) (s : State) : (putColl c s).ep = s.ep := rfl
@[simp] theorem putColl_job (c : Coll) (s : State) : (putColl c s).job = s.job := rfl
@[simp] theorem putColl_fid (c : Coll) (s : State) : (putColl c s).fid = s.fid := rfl
@[simp] theorem putColl_cod (c : Coll) (s : State) : (putColl c s).cod = s.cod := rfl
@[simp] theorem putColl_upd (c : Coll) (s : State) : (putColl c s).upd = s.upd := rfl
@[simp] theorem putColl_tar (c : Coll) (s : State) : (putColl c s).tar = s.tar := rfl
@[simp] theorem putColl_reb (c : Coll) (s : State) : (putColl c s).reb = s.reb := rfl
@[simp] theorem putColl_aud (c : Coll) (s : State) : (putColl c s).aud = s.aud := rfl
@[simp] theorem putColl_part (c : Coll) (s : State) : (putColl c s).part = s.part := rfl
@[simp] theorem putColl_tally (c : Coll) (s : State) : (putColl c s).tally = s.tally := rfl
@[simp] theorem putColl_pub (c : Coll) (s : State) : (putColl c s).pub = s.pub := rfl
@[simp] theorem putColl_page (c : Coll) (s : State) : (putColl c s).page = s.page := rfl
@[simp] theorem putColl_tap (c : Coll) (s : State) : (putColl c s).tap = s.tap := rfl
@[simp] theorem putColl_exp (c : Coll) (s : State) : (putColl c s).exp = s.exp := rfl
@[simp] theorem putColl_viol (c : Coll) (s : State) : (putColl c s).viol = s.viol := rfl
@[simp] theorem putColl_freeCtr (c : Coll) (s : State) : (putColl c s).freeCtr = s.freeCtr := rfl

@[simp] theorem putPair_pending (x : OpPair) (s : State) : (putPair x s).pending = s.pending := rfl
@[simp] theorem putPair_mem (x : OpPair) (s : State) : (putPair x s).mem = s.mem := rfl
@[simp] theorem putPair_poison (x : OpPair) (s : State) : (putPair x s).poison = s.poison := rfl
@[simp] theorem putPair_badRead (x : OpPair) (s : State) : (putPair x s).badRead = s.badRead := rfl
@[simp] theorem putPair_badWrite (x : OpPair) (s : State) : (putPair x s).badWrite = s.badWrite := rfl
@[simp] theorem putPair_fuse (x : OpPair) (s : State) : (putPair x s).fuse = s.fuse := rfl
@[simp] theorem putPair_clk (x : OpPair) (s : State) : (putPair x s).clk = s.clk := rfl
@[simp] theorem putPair_pwr (x : OpPair) (s : State) : (putPair x s).pwr = s.pwr := rfl
@[simp] theorem putPair_pin (x : OpPair) (s : State) : (putPair x s).pin = s.pin := rfl
@[simp] theorem putPair_mode (x : OpPair) (s : State) : (putPair x s).mode = s.mode := rfl
@[simp] theorem putPair_dig (x : OpPair) (s : State) : (putPair x s).dig = s.dig := rfl
@[simp] theorem putPair_rcd (x : OpPair) (s : State) : (putPair x s).rcd = s.rcd := rfl
@[simp] theorem putPair_msg (x : OpPair) (s : State) : (putPair x s).msg = s.msg := rfl
@[simp] theorem putPair_side (x : OpPair) (s : State) : (putPair x s).side = s.side := rfl
@[simp] theorem putPair_keep (x : OpPair) (s : State) : (putPair x s).keep = s.keep := rfl
@[simp] theorem putPair_sram (x : OpPair) (s : State) : (putPair x s).sram = s.sram := rfl
@[simp] theorem putPair_port (x : OpPair) (s : State) : (putPair x s).port = s.port := rfl
@[simp] theorem putPair_reg (x : OpPair) (s : State) : (putPair x s).reg = s.reg := rfl
@[simp] theorem putPair_grp (x : OpPair) (s : State) : (putPair x s).grp = s.grp := rfl
@[simp] theorem putPair_ep (x : OpPair) (s : State) : (putPair x s).ep = s.ep := rfl
@[simp] theorem putPair_job (x : OpPair) (s : State) : (putPair x s).job = s.job := rfl
@[simp] theorem putPair_fid (x : OpPair) (s : State) : (putPair x s).fid = s.fid := rfl
@[simp] theorem putPair_cod (x : OpPair) (s : State) : (putPair x s).cod = s.cod := rfl
@[simp] theorem putPair_upd (x : OpPair) (s : State) : (putPair x s).upd = s.upd := rfl
@[simp] theorem putPair_coll (x : OpPair) (s : State) : (putPair x s).coll = s.coll := rfl
@[simp] theorem putPair_tar (x : OpPair) (s : State) : (putPair x s).tar = s.tar := rfl
@[simp] theorem putPair_reb (x : OpPair) (s : State) : (putPair x s).reb = s.reb := rfl
@[simp] theorem putPair_aud (x : OpPair) (s : State) : (putPair x s).aud = s.aud := rfl
@[simp] theorem putPair_part (x : OpPair) (s : State) : (putPair x s).part = s.part := rfl
@[simp] theorem putPair_tally (x : OpPair) (s : State) : (putPair x s).tally = s.tally := rfl
@[simp] theorem putPair_pub (x : OpPair) (s : State) : (putPair x s).pub = s.pub := rfl
@[simp] theorem putPair_page (x : OpPair) (s : State) : (putPair x s).page = s.page := rfl
@[simp] theorem putPair_tap (x : OpPair) (s : State) : (putPair x s).tap = s.tap := rfl
@[simp] theorem putPair_exp (x : OpPair) (s : State) : (putPair x s).exp = s.exp := rfl
@[simp] theorem putPair_viol (x : OpPair) (s : State) : (putPair x s).viol = s.viol := rfl
@[simp] theorem putPair_freeCtr (x : OpPair) (s : State) : (putPair x s).freeCtr = s.freeCtr := rfl

@[simp] theorem putOut_pending (o : Out) (s : State) : (putOut o s).pending = s.pending := rfl
@[simp] theorem putOut_mem (o : Out) (s : State) : (putOut o s).mem = s.mem := rfl
@[simp] theorem putOut_poison (o : Out) (s : State) : (putOut o s).poison = s.poison := rfl
@[simp] theorem putOut_badRead (o : Out) (s : State) : (putOut o s).badRead = s.badRead := rfl
@[simp] theorem putOut_badWrite (o : Out) (s : State) : (putOut o s).badWrite = s.badWrite := rfl
@[simp] theorem putOut_fuse (o : Out) (s : State) : (putOut o s).fuse = s.fuse := rfl
@[simp] theorem putOut_clk (o : Out) (s : State) : (putOut o s).clk = s.clk := rfl
@[simp] theorem putOut_pwr (o : Out) (s : State) : (putOut o s).pwr = s.pwr := rfl
@[simp] theorem putOut_pin (o : Out) (s : State) : (putOut o s).pin = s.pin := rfl
@[simp] theorem putOut_mode (o : Out) (s : State) : (putOut o s).mode = s.mode := rfl
@[simp] theorem putOut_dig (o : Out) (s : State) : (putOut o s).dig = s.dig := rfl
@[simp] theorem putOut_rcd (o : Out) (s : State) : (putOut o s).rcd = s.rcd := rfl
@[simp] theorem putOut_msg (o : Out) (s : State) : (putOut o s).msg = s.msg := rfl
@[simp] theorem putOut_side (o : Out) (s : State) : (putOut o s).side = s.side := rfl
@[simp] theorem putOut_keep (o : Out) (s : State) : (putOut o s).keep = s.keep := rfl
@[simp] theorem putOut_sram (o : Out) (s : State) : (putOut o s).sram = s.sram := rfl
@[simp] theorem putOut_fab (o : Out) (s : State) : (putOut o s).fab = s.fab := rfl
@[simp] theorem putOut_port (o : Out) (s : State) : (putOut o s).port = s.port := rfl
@[simp] theorem putOut_reg (o : Out) (s : State) : (putOut o s).reg = s.reg := rfl
@[simp] theorem putOut_grp (o : Out) (s : State) : (putOut o s).grp = s.grp := rfl
@[simp] theorem putOut_ep (o : Out) (s : State) : (putOut o s).ep = s.ep := rfl
@[simp] theorem putOut_job (o : Out) (s : State) : (putOut o s).job = s.job := rfl
@[simp] theorem putOut_fid (o : Out) (s : State) : (putOut o s).fid = s.fid := rfl
@[simp] theorem putOut_upd (o : Out) (s : State) : (putOut o s).upd = s.upd := rfl
@[simp] theorem putOut_coll (o : Out) (s : State) : (putOut o s).coll = s.coll := rfl
@[simp] theorem putOut_tar (o : Out) (s : State) : (putOut o s).tar = s.tar := rfl
@[simp] theorem putOut_reb (o : Out) (s : State) : (putOut o s).reb = s.reb := rfl
@[simp] theorem putOut_aud (o : Out) (s : State) : (putOut o s).aud = s.aud := rfl
@[simp] theorem putOut_part (o : Out) (s : State) : (putOut o s).part = s.part := rfl
@[simp] theorem putOut_tally (o : Out) (s : State) : (putOut o s).tally = s.tally := rfl
@[simp] theorem putOut_pub (o : Out) (s : State) : (putOut o s).pub = s.pub := rfl
@[simp] theorem putOut_page (o : Out) (s : State) : (putOut o s).page = s.page := rfl
@[simp] theorem putOut_tap (o : Out) (s : State) : (putOut o s).tap = s.tap := rfl
@[simp] theorem putOut_exp (o : Out) (s : State) : (putOut o s).exp = s.exp := rfl
@[simp] theorem putOut_viol (o : Out) (s : State) : (putOut o s).viol = s.viol := rfl
@[simp] theorem putOut_freeCtr (o : Out) (s : State) : (putOut o s).freeCtr = s.freeCtr := rfl

@[simp] theorem partOf_modPart (p : Nat) (f : PartSt → PartSt) (s : State) : partOf (modPart p f s) p = f (partOf s p) := by
  simp [partOf, modPart]
theorem partOf_modPart_ne {p k : Nat} (h : k ≠ p) (f : PartSt → PartSt) (s : State) : partOf (modPart p f s) k = partOf s k := by
  simp [partOf, modPart, SMap.look_put_ne _ _ _ h]

@[simp] theorem portOf_modPort (p : Nat) (f : PortSt → PortSt) (s : State) : portOf (modPort p f s) p = f (portOf s p) := by
  simp [portOf, modPort]
theorem portOf_modPort_ne {p k : Nat} (h : k ≠ p) (f : PortSt → PortSt) (s : State) : portOf (modPort p f s) k = portOf s k := by
  simp [portOf, modPort, SMap.look_put_ne _ _ _ h]

@[simp] theorem tallyOf_modTally (p : Nat) (f : Tally → Tally) (s : State) : tallyOf (modTally p f s) p = f (tallyOf s p) := by
  simp [tallyOf, modTally]
theorem tallyOf_modTally_ne {p k : Nat} (h : k ≠ p) (f : Tally → Tally) (s : State) : tallyOf (modTally p f s) k = tallyOf s k := by
  simp [tallyOf, modTally, SMap.look_put_ne _ _ _ h]

@[simp] theorem grpOf_modGrp (p : Nat) (f : Group → Group) (s : State) : grpOf (modGrp p f s) p = f (grpOf s p) := by
  simp [grpOf, modGrp]
theorem grpOf_modGrp_ne {p k : Nat} (h : k ≠ p) (f : Group → Group) (s : State) : grpOf (modGrp p f s) k = grpOf s k := by
  simp [grpOf, modGrp, SMap.look_put_ne _ _ _ h]

@[simp] theorem regionOf_modRegion (p : Nat) (f : Region → Region) (s : State) : regionOf (modRegion p f s) p = f (regionOf s p) := by
  simp [regionOf, modRegion]
theorem regionOf_modRegion_ne {p k : Nat} (h : k ≠ p) (f : Region → Region) (s : State) : regionOf (modRegion p f s) k = regionOf s k := by
  simp [regionOf, modRegion, SMap.look_put_ne _ _ _ h]

@[simp] theorem pubOf_modPub (p : Nat) (f : Pub → Pub) (s : State) : pubOf (modPub p f s) p = f (pubOf s p) := by
  simp [pubOf, modPub]
theorem pubOf_modPub_ne {p k : Nat} (h : k ≠ p) (f : Pub → Pub) (s : State) : pubOf (modPub p f s) k = pubOf s k := by
  simp [pubOf, modPub, SMap.look_put_ne _ _ _ h]

@[simp] theorem pageOf_modPage (p : Nat) (f : Page → Page) (s : State) : pageOf (modPage p f s) p = f (pageOf s p) := by
  simp [pageOf, modPage]
theorem pageOf_modPage_ne {p k : Nat} (h : k ≠ p) (f : Page → Page) (s : State) : pageOf (modPage p f s) k = pageOf s k := by
  simp [pageOf, modPage, SMap.look_put_ne _ _ _ h]

@[simp] theorem portOf_of_modPart (p : Nat) (f : PartSt → PartSt) (s : State) (k : Nat) : portOf (modPart p f s) k = portOf s k := rfl
@[simp] theorem tallyOf_of_modPart (p : Nat) (f : PartSt → PartSt) (s : State) (k : Nat) : tallyOf (modPart p f s) k = tallyOf s k := rfl
@[simp] theorem grpOf_of_modPart (p : Nat) (f : PartSt → PartSt) (s : State) (k : Nat) : grpOf (modPart p f s) k = grpOf s k := rfl
@[simp] theorem regionOf_of_modPart (p : Nat) (f : PartSt → PartSt) (s : State) (k : Nat) : regionOf (modPart p f s) k = regionOf s k := rfl
@[simp] theorem pubOf_of_modPart (p : Nat) (f : PartSt → PartSt) (s : State) (k : Nat) : pubOf (modPart p f s) k = pubOf s k := rfl
@[simp] theorem pageOf_of_modPart (p : Nat) (f : PartSt → PartSt) (s : State) (k : Nat) : pageOf (modPart p f s) k = pageOf s k := rfl
@[simp] theorem partOf_of_modPort (p : Nat) (f : PortSt → PortSt) (s : State) (k : Nat) : partOf (modPort p f s) k = partOf s k := rfl
@[simp] theorem tallyOf_of_modPort (p : Nat) (f : PortSt → PortSt) (s : State) (k : Nat) : tallyOf (modPort p f s) k = tallyOf s k := rfl
@[simp] theorem grpOf_of_modPort (p : Nat) (f : PortSt → PortSt) (s : State) (k : Nat) : grpOf (modPort p f s) k = grpOf s k := rfl
@[simp] theorem regionOf_of_modPort (p : Nat) (f : PortSt → PortSt) (s : State) (k : Nat) : regionOf (modPort p f s) k = regionOf s k := rfl
@[simp] theorem pubOf_of_modPort (p : Nat) (f : PortSt → PortSt) (s : State) (k : Nat) : pubOf (modPort p f s) k = pubOf s k := rfl
@[simp] theorem pageOf_of_modPort (p : Nat) (f : PortSt → PortSt) (s : State) (k : Nat) : pageOf (modPort p f s) k = pageOf s k := rfl
@[simp] theorem partOf_of_modTally (n : Nat) (f : Tally → Tally) (s : State) (k : Nat) : partOf (modTally n f s) k = partOf s k := rfl
@[simp] theorem portOf_of_modTally (n : Nat) (f : Tally → Tally) (s : State) (k : Nat) : portOf (modTally n f s) k = portOf s k := rfl
@[simp] theorem grpOf_of_modTally (n : Nat) (f : Tally → Tally) (s : State) (k : Nat) : grpOf (modTally n f s) k = grpOf s k := rfl
@[simp] theorem regionOf_of_modTally (n : Nat) (f : Tally → Tally) (s : State) (k : Nat) : regionOf (modTally n f s) k = regionOf s k := rfl
@[simp] theorem pubOf_of_modTally (n : Nat) (f : Tally → Tally) (s : State) (k : Nat) : pubOf (modTally n f s) k = pubOf s k := rfl
@[simp] theorem pageOf_of_modTally (n : Nat) (f : Tally → Tally) (s : State) (k : Nat) : pageOf (modTally n f s) k = pageOf s k := rfl
@[simp] theorem partOf_of_modGrp (g : Nat) (f : Group → Group) (s : State) (k : Nat) : partOf (modGrp g f s) k = partOf s k := rfl
@[simp] theorem portOf_of_modGrp (g : Nat) (f : Group → Group) (s : State) (k : Nat) : portOf (modGrp g f s) k = portOf s k := rfl
@[simp] theorem tallyOf_of_modGrp (g : Nat) (f : Group → Group) (s : State) (k : Nat) : tallyOf (modGrp g f s) k = tallyOf s k := rfl
@[simp] theorem regionOf_of_modGrp (g : Nat) (f : Group → Group) (s : State) (k : Nat) : regionOf (modGrp g f s) k = regionOf s k := rfl
@[simp] theorem pubOf_of_modGrp (g : Nat) (f : Group → Group) (s : State) (k : Nat) : pubOf (modGrp g f s) k = pubOf s k := rfl
@[simp] theorem pageOf_of_modGrp (g : Nat) (f : Group → Group) (s : State) (k : Nat) : pageOf (modGrp g f s) k = pageOf s k := rfl
@[simp] theorem partOf_of_modRegion (i : Nat) (f : Region → Region) (s : State) (k : Nat) : partOf (modRegion i f s) k = partOf s k := rfl
@[simp] theorem portOf_of_modRegion (i : Nat) (f : Region → Region) (s : State) (k : Nat) : portOf (modRegion i f s) k = portOf s k := rfl
@[simp] theorem tallyOf_of_modRegion (i : Nat) (f : Region → Region) (s : State) (k : Nat) : tallyOf (modRegion i f s) k = tallyOf s k := rfl
@[simp] theorem grpOf_of_modRegion (i : Nat) (f : Region → Region) (s : State) (k : Nat) : grpOf (modRegion i f s) k = grpOf s k := rfl
@[simp] theorem pubOf_of_modRegion (i : Nat) (f : Region → Region) (s : State) (k : Nat) : pubOf (modRegion i f s) k = pubOf s k := rfl
@[simp] theorem pageOf_of_modRegion (i : Nat) (f : Region → Region) (s : State) (k : Nat) : pageOf (modRegion i f s) k = pageOf s k := rfl
@[simp] theorem partOf_of_modPub (e : Nat) (f : Pub → Pub) (s : State) (k : Nat) : partOf (modPub e f s) k = partOf s k := rfl
@[simp] theorem portOf_of_modPub (e : Nat) (f : Pub → Pub) (s : State) (k : Nat) : portOf (modPub e f s) k = portOf s k := rfl
@[simp] theorem tallyOf_of_modPub (e : Nat) (f : Pub → Pub) (s : State) (k : Nat) : tallyOf (modPub e f s) k = tallyOf s k := rfl
@[simp] theorem grpOf_of_modPub (e : Nat) (f : Pub → Pub) (s : State) (k : Nat) : grpOf (modPub e f s) k = grpOf s k := rfl
@[simp] theorem regionOf_of_modPub (e : Nat) (f : Pub → Pub) (s : State) (k : Nat) : regionOf (modPub e f s) k = regionOf s k := rfl
@[simp] theorem pageOf_of_modPub (e : Nat) (f : Pub → Pub) (s : State) (k : Nat) : pageOf (modPub e f s) k = pageOf s k := rfl
@[simp] theorem partOf_of_modPage (n : Nat) (f : Page → Page) (s : State) (k : Nat) : partOf (modPage n f s) k = partOf s k := rfl
@[simp] theorem portOf_of_modPage (n : Nat) (f : Page → Page) (s : State) (k : Nat) : portOf (modPage n f s) k = portOf s k := rfl
@[simp] theorem tallyOf_of_modPage (n : Nat) (f : Page → Page) (s : State) (k : Nat) : tallyOf (modPage n f s) k = tallyOf s k := rfl
@[simp] theorem grpOf_of_modPage (n : Nat) (f : Page → Page) (s : State) (k : Nat) : grpOf (modPage n f s) k = grpOf s k := rfl
@[simp] theorem regionOf_of_modPage (n : Nat) (f : Page → Page) (s : State) (k : Nat) : regionOf (modPage n f s) k = regionOf s k := rfl
@[simp] theorem pubOf_of_modPage (n : Nat) (f : Page → Page) (s : State) (k : Nat) : pubOf (modPage n f s) k = pubOf s k := rfl
@[simp] theorem partOf_of_violate (c : Nat) (s : State) (k : Nat) : partOf (violate c s) k = partOf s k := rfl
@[simp] theorem portOf_of_violate (c : Nat) (s : State) (k : Nat) : portOf (violate c s) k = portOf s k := rfl
@[simp] theorem tallyOf_of_violate (c : Nat) (s : State) (k : Nat) : tallyOf (violate c s) k = tallyOf s k := rfl
@[simp] theorem grpOf_of_violate (c : Nat) (s : State) (k : Nat) : grpOf (violate c s) k = grpOf s k := rfl
@[simp] theorem regionOf_of_violate (c : Nat) (s : State) (k : Nat) : regionOf (violate c s) k = regionOf s k := rfl
@[simp] theorem pubOf_of_violate (c : Nat) (s : State) (k : Nat) : pubOf (violate c s) k = pubOf s k := rfl
@[simp] theorem pageOf_of_violate (c : Nat) (s : State) (k : Nat) : pageOf (violate c s) k = pageOf s k := rfl
@[simp] theorem partOf_of_frozen (s : State) (k : Nat) : partOf (frozen s) k = partOf s k := rfl
@[simp] theorem portOf_of_frozen (s : State) (k : Nat) : portOf (frozen s) k = portOf s k := rfl
@[simp] theorem tallyOf_of_frozen (s : State) (k : Nat) : tallyOf (frozen s) k = tallyOf s k := rfl
@[simp] theorem grpOf_of_frozen (s : State) (k : Nat) : grpOf (frozen s) k = grpOf s k := rfl
@[simp] theorem regionOf_of_frozen (s : State) (k : Nat) : regionOf (frozen s) k = regionOf s k := rfl
@[simp] theorem pubOf_of_frozen (s : State) (k : Nat) : pubOf (frozen s) k = pubOf s k := rfl
@[simp] theorem pageOf_of_frozen (s : State) (k : Nat) : pageOf (frozen s) k = pageOf s k := rfl
@[simp] theorem partOf_of_outResp (r : Resp) (s : State) (k : Nat) : partOf (outResp r s) k = partOf s k := rfl
@[simp] theorem portOf_of_outResp (r : Resp) (s : State) (k : Nat) : portOf (outResp r s) k = portOf s k := rfl
@[simp] theorem tallyOf_of_outResp (r : Resp) (s : State) (k : Nat) : tallyOf (outResp r s) k = tallyOf s k := rfl
@[simp] theorem grpOf_of_outResp (r : Resp) (s : State) (k : Nat) : grpOf (outResp r s) k = grpOf s k := rfl
@[simp] theorem regionOf_of_outResp (r : Resp) (s : State) (k : Nat) : regionOf (outResp r s) k = regionOf s k := rfl
@[simp] theorem pubOf_of_outResp (r : Resp) (s : State) (k : Nat) : pubOf (outResp r s) k = pubOf s k := rfl
@[simp] theorem pageOf_of_outResp (r : Resp) (s : State) (k : Nat) : pageOf (outResp r s) k = pageOf s k := rfl
@[simp] theorem partOf_of_bumpLife (i : Nat) (s : State) (k : Nat) : partOf (bumpLife i s) k = partOf s k := rfl
@[simp] theorem portOf_of_bumpLife (i : Nat) (s : State) (k : Nat) : portOf (bumpLife i s) k = portOf s k := rfl
@[simp] theorem tallyOf_of_bumpLife (i : Nat) (s : State) (k : Nat) : tallyOf (bumpLife i s) k = tallyOf s k := rfl
@[simp] theorem grpOf_of_bumpLife (i : Nat) (s : State) (k : Nat) : grpOf (bumpLife i s) k = grpOf s k := rfl
@[simp] theorem regionOf_of_bumpLife (i : Nat) (s : State) (k : Nat) : regionOf (bumpLife i s) k = regionOf s k := rfl
@[simp] theorem pubOf_of_bumpLife (i : Nat) (s : State) (k : Nat) : pubOf (bumpLife i s) k = pubOf s k := rfl
@[simp] theorem pageOf_of_bumpLife (i : Nat) (s : State) (k : Nat) : pageOf (bumpLife i s) k = pageOf s k := rfl
@[simp] theorem partOf_of_countLive (s : State) (k : Nat) : partOf (countLive s) k = partOf s k := rfl
@[simp] theorem portOf_of_countLive (s : State) (k : Nat) : portOf (countLive s) k = portOf s k := rfl
@[simp] theorem tallyOf_of_countLive (s : State) (k : Nat) : tallyOf (countLive s) k = tallyOf s k := rfl
@[simp] theorem grpOf_of_countLive (s : State) (k : Nat) : grpOf (countLive s) k = grpOf s k := rfl
@[simp] theorem regionOf_of_countLive (s : State) (k : Nat) : regionOf (countLive s) k = regionOf s k := rfl
@[simp] theorem pubOf_of_countLive (s : State) (k : Nat) : pubOf (countLive s) k = pubOf s k := rfl
@[simp] theorem pageOf_of_countLive (s : State) (k : Nat) : pageOf (countLive s) k = pageOf s k := rfl

/-- Two updates of one partition are one. -/
theorem modPart_modPart (p : Nat) (f g : PartSt → PartSt) (s : State) : modPart p f (modPart p g s) = modPart p (fun x => f (g x)) s := by
  simp [modPart, partOf, SMap.put_put]

@[simp] theorem timeTo_pending (t : Nat) (s : State) : (timeTo t s).pending = s.pending := rfl
@[simp] theorem timeTo_mem (t : Nat) (s : State) : (timeTo t s).mem = s.mem := rfl
@[simp] theorem timeTo_poison (t : Nat) (s : State) : (timeTo t s).poison = s.poison := rfl
@[simp] theorem timeTo_badRead (t : Nat) (s : State) : (timeTo t s).badRead = s.badRead := rfl
@[simp] theorem timeTo_badWrite (t : Nat) (s : State) : (timeTo t s).badWrite = s.badWrite := rfl
@[simp] theorem timeTo_fuse (t : Nat) (s : State) : (timeTo t s).fuse = s.fuse := rfl
@[simp] theorem timeTo_pwr (t : Nat) (s : State) : (timeTo t s).pwr = s.pwr := rfl
@[simp] theorem timeTo_pin (t : Nat) (s : State) : (timeTo t s).pin = s.pin := rfl
@[simp] theorem timeTo_mode (t : Nat) (s : State) : (timeTo t s).mode = s.mode := rfl
@[simp] theorem timeTo_dig (t : Nat) (s : State) : (timeTo t s).dig = s.dig := rfl
@[simp] theorem timeTo_rcd (t : Nat) (s : State) : (timeTo t s).rcd = s.rcd := rfl
@[simp] theorem timeTo_msg (t : Nat) (s : State) : (timeTo t s).msg = s.msg := rfl
@[simp] theorem timeTo_side (t : Nat) (s : State) : (timeTo t s).side = s.side := rfl
@[simp] theorem timeTo_keep (t : Nat) (s : State) : (timeTo t s).keep = s.keep := rfl
@[simp] theorem timeTo_sram (t : Nat) (s : State) : (timeTo t s).sram = s.sram := rfl
@[simp] theorem timeTo_fab (t : Nat) (s : State) : (timeTo t s).fab = s.fab := rfl
@[simp] theorem timeTo_port (t : Nat) (s : State) : (timeTo t s).port = s.port := rfl
@[simp] theorem timeTo_reg (t : Nat) (s : State) : (timeTo t s).reg = s.reg := rfl
@[simp] theorem timeTo_grp (t : Nat) (s : State) : (timeTo t s).grp = s.grp := rfl
@[simp] theorem timeTo_ep (t : Nat) (s : State) : (timeTo t s).ep = s.ep := rfl
@[simp] theorem timeTo_job (t : Nat) (s : State) : (timeTo t s).job = s.job := rfl
@[simp] theorem timeTo_fid (t : Nat) (s : State) : (timeTo t s).fid = s.fid := rfl
@[simp] theorem timeTo_cod (t : Nat) (s : State) : (timeTo t s).cod = s.cod := rfl
@[simp] theorem timeTo_upd (t : Nat) (s : State) : (timeTo t s).upd = s.upd := rfl
@[simp] theorem timeTo_coll (t : Nat) (s : State) : (timeTo t s).coll = s.coll := rfl
@[simp] theorem timeTo_tar (t : Nat) (s : State) : (timeTo t s).tar = s.tar := rfl
@[simp] theorem timeTo_reb (t : Nat) (s : State) : (timeTo t s).reb = s.reb := rfl
@[simp] theorem timeTo_aud (t : Nat) (s : State) : (timeTo t s).aud = s.aud := rfl
@[simp] theorem timeTo_part (t : Nat) (s : State) : (timeTo t s).part = s.part := rfl
@[simp] theorem timeTo_tally (t : Nat) (s : State) : (timeTo t s).tally = s.tally := rfl
@[simp] theorem timeTo_pub (t : Nat) (s : State) : (timeTo t s).pub = s.pub := rfl
@[simp] theorem timeTo_page (t : Nat) (s : State) : (timeTo t s).page = s.page := rfl
@[simp] theorem timeTo_tap (t : Nat) (s : State) : (timeTo t s).tap = s.tap := rfl
@[simp] theorem timeTo_exp (t : Nat) (s : State) : (timeTo t s).exp = s.exp := rfl
@[simp] theorem timeTo_viol (t : Nat) (s : State) : (timeTo t s).viol = s.viol := rfl
@[simp] theorem timeTo_freeCtr (t : Nat) (s : State) : (timeTo t s).freeCtr = s.freeCtr := rfl

@[simp] theorem cyclesOn_pending (n : Nat) (s : State) : (cyclesOn n s).pending = s.pending := rfl
@[simp] theorem cyclesOn_mem (n : Nat) (s : State) : (cyclesOn n s).mem = s.mem := rfl
@[simp] theorem cyclesOn_poison (n : Nat) (s : State) : (cyclesOn n s).poison = s.poison := rfl
@[simp] theorem cyclesOn_badRead (n : Nat) (s : State) : (cyclesOn n s).badRead = s.badRead := rfl
@[simp] theorem cyclesOn_badWrite (n : Nat) (s : State) : (cyclesOn n s).badWrite = s.badWrite := rfl
@[simp] theorem cyclesOn_fuse (n : Nat) (s : State) : (cyclesOn n s).fuse = s.fuse := rfl
@[simp] theorem cyclesOn_pwr (n : Nat) (s : State) : (cyclesOn n s).pwr = s.pwr := rfl
@[simp] theorem cyclesOn_pin (n : Nat) (s : State) : (cyclesOn n s).pin = s.pin := rfl
@[simp] theorem cyclesOn_mode (n : Nat) (s : State) : (cyclesOn n s).mode = s.mode := rfl
@[simp] theorem cyclesOn_dig (n : Nat) (s : State) : (cyclesOn n s).dig = s.dig := rfl
@[simp] theorem cyclesOn_rcd (n : Nat) (s : State) : (cyclesOn n s).rcd = s.rcd := rfl
@[simp] theorem cyclesOn_msg (n : Nat) (s : State) : (cyclesOn n s).msg = s.msg := rfl
@[simp] theorem cyclesOn_side (n : Nat) (s : State) : (cyclesOn n s).side = s.side := rfl
@[simp] theorem cyclesOn_keep (n : Nat) (s : State) : (cyclesOn n s).keep = s.keep := rfl
@[simp] theorem cyclesOn_sram (n : Nat) (s : State) : (cyclesOn n s).sram = s.sram := rfl
@[simp] theorem cyclesOn_fab (n : Nat) (s : State) : (cyclesOn n s).fab = s.fab := rfl
@[simp] theorem cyclesOn_port (n : Nat) (s : State) : (cyclesOn n s).port = s.port := rfl
@[simp] theorem cyclesOn_reg (n : Nat) (s : State) : (cyclesOn n s).reg = s.reg := rfl
@[simp] theorem cyclesOn_grp (n : Nat) (s : State) : (cyclesOn n s).grp = s.grp := rfl
@[simp] theorem cyclesOn_ep (n : Nat) (s : State) : (cyclesOn n s).ep = s.ep := rfl
@[simp] theorem cyclesOn_job (n : Nat) (s : State) : (cyclesOn n s).job = s.job := rfl
@[simp] theorem cyclesOn_fid (n : Nat) (s : State) : (cyclesOn n s).fid = s.fid := rfl
@[simp] theorem cyclesOn_cod (n : Nat) (s : State) : (cyclesOn n s).cod = s.cod := rfl
@[simp] theorem cyclesOn_upd (n : Nat) (s : State) : (cyclesOn n s).upd = s.upd := rfl
@[simp] theorem cyclesOn_coll (n : Nat) (s : State) : (cyclesOn n s).coll = s.coll := rfl
@[simp] theorem cyclesOn_tar (n : Nat) (s : State) : (cyclesOn n s).tar = s.tar := rfl
@[simp] theorem cyclesOn_reb (n : Nat) (s : State) : (cyclesOn n s).reb = s.reb := rfl
@[simp] theorem cyclesOn_aud (n : Nat) (s : State) : (cyclesOn n s).aud = s.aud := rfl
@[simp] theorem cyclesOn_part (n : Nat) (s : State) : (cyclesOn n s).part = s.part := rfl
@[simp] theorem cyclesOn_tally (n : Nat) (s : State) : (cyclesOn n s).tally = s.tally := rfl
@[simp] theorem cyclesOn_pub (n : Nat) (s : State) : (cyclesOn n s).pub = s.pub := rfl
@[simp] theorem cyclesOn_page (n : Nat) (s : State) : (cyclesOn n s).page = s.page := rfl
@[simp] theorem cyclesOn_tap (n : Nat) (s : State) : (cyclesOn n s).tap = s.tap := rfl
@[simp] theorem cyclesOn_exp (n : Nat) (s : State) : (cyclesOn n s).exp = s.exp := rfl
@[simp] theorem cyclesOn_viol (n : Nat) (s : State) : (cyclesOn n s).viol = s.viol := rfl
@[simp] theorem cyclesOn_freeCtr (n : Nat) (s : State) : (cyclesOn n s).freeCtr = s.freeCtr := rfl

@[simp] theorem markHold_pending (k : Nat) (s : State) : (markHold k s).pending = s.pending := rfl
@[simp] theorem markHold_mem (k : Nat) (s : State) : (markHold k s).mem = s.mem := rfl
@[simp] theorem markHold_poison (k : Nat) (s : State) : (markHold k s).poison = s.poison := rfl
@[simp] theorem markHold_badRead (k : Nat) (s : State) : (markHold k s).badRead = s.badRead := rfl
@[simp] theorem markHold_badWrite (k : Nat) (s : State) : (markHold k s).badWrite = s.badWrite := rfl
@[simp] theorem markHold_fuse (k : Nat) (s : State) : (markHold k s).fuse = s.fuse := rfl
@[simp] theorem markHold_clk (k : Nat) (s : State) : (markHold k s).clk = s.clk := rfl
@[simp] theorem markHold_pwr (k : Nat) (s : State) : (markHold k s).pwr = s.pwr := rfl
@[simp] theorem markHold_pin (k : Nat) (s : State) : (markHold k s).pin = s.pin := rfl
@[simp] theorem markHold_mode (k : Nat) (s : State) : (markHold k s).mode = s.mode := rfl
@[simp] theorem markHold_dig (k : Nat) (s : State) : (markHold k s).dig = s.dig := rfl
@[simp] theorem markHold_rcd (k : Nat) (s : State) : (markHold k s).rcd = s.rcd := rfl
@[simp] theorem markHold_msg (k : Nat) (s : State) : (markHold k s).msg = s.msg := rfl
@[simp] theorem markHold_side (k : Nat) (s : State) : (markHold k s).side = s.side := rfl
@[simp] theorem markHold_keep (k : Nat) (s : State) : (markHold k s).keep = s.keep := rfl
@[simp] theorem markHold_sram (k : Nat) (s : State) : (markHold k s).sram = s.sram := rfl
@[simp] theorem markHold_fab (k : Nat) (s : State) : (markHold k s).fab = s.fab := rfl
@[simp] theorem markHold_port (k : Nat) (s : State) : (markHold k s).port = s.port := rfl
@[simp] theorem markHold_reg (k : Nat) (s : State) : (markHold k s).reg = s.reg := rfl
@[simp] theorem markHold_grp (k : Nat) (s : State) : (markHold k s).grp = s.grp := rfl
@[simp] theorem markHold_ep (k : Nat) (s : State) : (markHold k s).ep = s.ep := rfl
@[simp] theorem markHold_job (k : Nat) (s : State) : (markHold k s).job = s.job := rfl
@[simp] theorem markHold_fid (k : Nat) (s : State) : (markHold k s).fid = s.fid := rfl
@[simp] theorem markHold_upd (k : Nat) (s : State) : (markHold k s).upd = s.upd := rfl
@[simp] theorem markHold_coll (k : Nat) (s : State) : (markHold k s).coll = s.coll := rfl
@[simp] theorem markHold_tar (k : Nat) (s : State) : (markHold k s).tar = s.tar := rfl
@[simp] theorem markHold_reb (k : Nat) (s : State) : (markHold k s).reb = s.reb := rfl
@[simp] theorem markHold_aud (k : Nat) (s : State) : (markHold k s).aud = s.aud := rfl
@[simp] theorem markHold_part (k : Nat) (s : State) : (markHold k s).part = s.part := rfl
@[simp] theorem markHold_tally (k : Nat) (s : State) : (markHold k s).tally = s.tally := rfl
@[simp] theorem markHold_pub (k : Nat) (s : State) : (markHold k s).pub = s.pub := rfl
@[simp] theorem markHold_page (k : Nat) (s : State) : (markHold k s).page = s.page := rfl
@[simp] theorem markHold_tap (k : Nat) (s : State) : (markHold k s).tap = s.tap := rfl
@[simp] theorem markHold_exp (k : Nat) (s : State) : (markHold k s).exp = s.exp := rfl
@[simp] theorem markHold_viol (k : Nat) (s : State) : (markHold k s).viol = s.viol := rfl
@[simp] theorem markHold_freeCtr (k : Nat) (s : State) : (markHold k s).freeCtr = s.freeCtr := rfl

@[simp] theorem markStall_pending (p : Nat) (s : State) : (markStall p s).pending = s.pending := rfl
@[simp] theorem markStall_mem (p : Nat) (s : State) : (markStall p s).mem = s.mem := rfl
@[simp] theorem markStall_poison (p : Nat) (s : State) : (markStall p s).poison = s.poison := rfl
@[simp] theorem markStall_badRead (p : Nat) (s : State) : (markStall p s).badRead = s.badRead := rfl
@[simp] theorem markStall_badWrite (p : Nat) (s : State) : (markStall p s).badWrite = s.badWrite := rfl
@[simp] theorem markStall_fuse (p : Nat) (s : State) : (markStall p s).fuse = s.fuse := rfl
@[simp] theorem markStall_clk (p : Nat) (s : State) : (markStall p s).clk = s.clk := rfl
@[simp] theorem markStall_pwr (p : Nat) (s : State) : (markStall p s).pwr = s.pwr := rfl
@[simp] theorem markStall_pin (p : Nat) (s : State) : (markStall p s).pin = s.pin := rfl
@[simp] theorem markStall_mode (p : Nat) (s : State) : (markStall p s).mode = s.mode := rfl
@[simp] theorem markStall_dig (p : Nat) (s : State) : (markStall p s).dig = s.dig := rfl
@[simp] theorem markStall_rcd (p : Nat) (s : State) : (markStall p s).rcd = s.rcd := rfl
@[simp] theorem markStall_msg (p : Nat) (s : State) : (markStall p s).msg = s.msg := rfl
@[simp] theorem markStall_side (p : Nat) (s : State) : (markStall p s).side = s.side := rfl
@[simp] theorem markStall_keep (p : Nat) (s : State) : (markStall p s).keep = s.keep := rfl
@[simp] theorem markStall_sram (p : Nat) (s : State) : (markStall p s).sram = s.sram := rfl
@[simp] theorem markStall_fab (p : Nat) (s : State) : (markStall p s).fab = s.fab := rfl
@[simp] theorem markStall_port (p : Nat) (s : State) : (markStall p s).port = s.port := rfl
@[simp] theorem markStall_reg (p : Nat) (s : State) : (markStall p s).reg = s.reg := rfl
@[simp] theorem markStall_grp (p : Nat) (s : State) : (markStall p s).grp = s.grp := rfl
@[simp] theorem markStall_ep (p : Nat) (s : State) : (markStall p s).ep = s.ep := rfl
@[simp] theorem markStall_job (p : Nat) (s : State) : (markStall p s).job = s.job := rfl
@[simp] theorem markStall_fid (p : Nat) (s : State) : (markStall p s).fid = s.fid := rfl
@[simp] theorem markStall_upd (p : Nat) (s : State) : (markStall p s).upd = s.upd := rfl
@[simp] theorem markStall_coll (p : Nat) (s : State) : (markStall p s).coll = s.coll := rfl
@[simp] theorem markStall_tar (p : Nat) (s : State) : (markStall p s).tar = s.tar := rfl
@[simp] theorem markStall_reb (p : Nat) (s : State) : (markStall p s).reb = s.reb := rfl
@[simp] theorem markStall_aud (p : Nat) (s : State) : (markStall p s).aud = s.aud := rfl
@[simp] theorem markStall_part (p : Nat) (s : State) : (markStall p s).part = s.part := rfl
@[simp] theorem markStall_tally (p : Nat) (s : State) : (markStall p s).tally = s.tally := rfl
@[simp] theorem markStall_pub (p : Nat) (s : State) : (markStall p s).pub = s.pub := rfl
@[simp] theorem markStall_page (p : Nat) (s : State) : (markStall p s).page = s.page := rfl
@[simp] theorem markStall_tap (p : Nat) (s : State) : (markStall p s).tap = s.tap := rfl
@[simp] theorem markStall_exp (p : Nat) (s : State) : (markStall p s).exp = s.exp := rfl
@[simp] theorem markStall_viol (p : Nat) (s : State) : (markStall p s).viol = s.viol := rfl
@[simp] theorem markStall_freeCtr (p : Nat) (s : State) : (markStall p s).freeCtr = s.freeCtr := rfl

@[simp] theorem unmark_pending (k : Nat) (s : State) : (unmark k s).pending = s.pending := rfl
@[simp] theorem unmark_mem (k : Nat) (s : State) : (unmark k s).mem = s.mem := rfl
@[simp] theorem unmark_poison (k : Nat) (s : State) : (unmark k s).poison = s.poison := rfl
@[simp] theorem unmark_badRead (k : Nat) (s : State) : (unmark k s).badRead = s.badRead := rfl
@[simp] theorem unmark_badWrite (k : Nat) (s : State) : (unmark k s).badWrite = s.badWrite := rfl
@[simp] theorem unmark_fuse (k : Nat) (s : State) : (unmark k s).fuse = s.fuse := rfl
@[simp] theorem unmark_clk (k : Nat) (s : State) : (unmark k s).clk = s.clk := rfl
@[simp] theorem unmark_pwr (k : Nat) (s : State) : (unmark k s).pwr = s.pwr := rfl
@[simp] theorem unmark_pin (k : Nat) (s : State) : (unmark k s).pin = s.pin := rfl
@[simp] theorem unmark_mode (k : Nat) (s : State) : (unmark k s).mode = s.mode := rfl
@[simp] theorem unmark_dig (k : Nat) (s : State) : (unmark k s).dig = s.dig := rfl
@[simp] theorem unmark_rcd (k : Nat) (s : State) : (unmark k s).rcd = s.rcd := rfl
@[simp] theorem unmark_msg (k : Nat) (s : State) : (unmark k s).msg = s.msg := rfl
@[simp] theorem unmark_side (k : Nat) (s : State) : (unmark k s).side = s.side := rfl
@[simp] theorem unmark_keep (k : Nat) (s : State) : (unmark k s).keep = s.keep := rfl
@[simp] theorem unmark_sram (k : Nat) (s : State) : (unmark k s).sram = s.sram := rfl
@[simp] theorem unmark_fab (k : Nat) (s : State) : (unmark k s).fab = s.fab := rfl
@[simp] theorem unmark_port (k : Nat) (s : State) : (unmark k s).port = s.port := rfl
@[simp] theorem unmark_reg (k : Nat) (s : State) : (unmark k s).reg = s.reg := rfl
@[simp] theorem unmark_grp (k : Nat) (s : State) : (unmark k s).grp = s.grp := rfl
@[simp] theorem unmark_ep (k : Nat) (s : State) : (unmark k s).ep = s.ep := rfl
@[simp] theorem unmark_job (k : Nat) (s : State) : (unmark k s).job = s.job := rfl
@[simp] theorem unmark_fid (k : Nat) (s : State) : (unmark k s).fid = s.fid := rfl
@[simp] theorem unmark_upd (k : Nat) (s : State) : (unmark k s).upd = s.upd := rfl
@[simp] theorem unmark_coll (k : Nat) (s : State) : (unmark k s).coll = s.coll := rfl
@[simp] theorem unmark_tar (k : Nat) (s : State) : (unmark k s).tar = s.tar := rfl
@[simp] theorem unmark_reb (k : Nat) (s : State) : (unmark k s).reb = s.reb := rfl
@[simp] theorem unmark_aud (k : Nat) (s : State) : (unmark k s).aud = s.aud := rfl
@[simp] theorem unmark_part (k : Nat) (s : State) : (unmark k s).part = s.part := rfl
@[simp] theorem unmark_tally (k : Nat) (s : State) : (unmark k s).tally = s.tally := rfl
@[simp] theorem unmark_pub (k : Nat) (s : State) : (unmark k s).pub = s.pub := rfl
@[simp] theorem unmark_page (k : Nat) (s : State) : (unmark k s).page = s.page := rfl
@[simp] theorem unmark_tap (k : Nat) (s : State) : (unmark k s).tap = s.tap := rfl
@[simp] theorem unmark_exp (k : Nat) (s : State) : (unmark k s).exp = s.exp := rfl
@[simp] theorem unmark_viol (k : Nat) (s : State) : (unmark k s).viol = s.viol := rfl
@[simp] theorem unmark_freeCtr (k : Nat) (s : State) : (unmark k s).freeCtr = s.freeCtr := rfl

end Sys2Proof.Machine
end

