-- ==== Sys2Proof/Laws/Issue.lean ====
section
/-! SUPPORT. What the shared operations of instructions, of inputs and of frames do: issue, the end of an instruction, a write of a register, an input that no log sees, a frame that leaves. -/

namespace Sys2Proof.Machine

/-! ### Issue -/

/-- An instruction whose predicate holds is carried out. -/
theorem issue_ready {s : State} {p cls : Nat} {pred : Fin 8} {pneg : Bool} (eff : State → State)
    (h : insnReady s p pred pneg = true) : issue p cls pred.val pneg eff s = eff s := by
  simp only [insnReady, atCode, Bool.and_eq_true, bne_iff_ne] at h
  obtain ⟨⟨hb, hc⟩, hp⟩ := h
  unfold issue
  cases hi : (partOf s p).image with
  | none => simp [hi] at hc
  | some m => simp [hi] at hc; simp [hb, hi, hc, hp]

/-- An instruction whose predicate does not hold is passed over (spec/09 R260). -/
theorem issue_skipped {s : State} {p cls : Nat} {pred : Fin 8} {pneg : Bool} (eff : State → State)
    (h : atCode s p = true) (hp : pReg (partOf s p) pred.val = pneg) :
    issue p cls pred.val pneg eff s = runAt p ((partOf s p).pc + classWords cls) s := by
  simp only [atCode, Bool.and_eq_true] at h
  obtain ⟨hb, hc⟩ := h
  unfold issue
  cases hi : (partOf s p).image with
  | none => simp [hi] at hc
  | some m => simp [hi] at hc; simp [hb, hi, hc, hp]

/-- No instruction is issued where the sequencer does not stand at one. -/
theorem issue_off {s : State} {p cls pred : Nat} {pneg : Bool} (eff : State → State) (h : atBoundary s p = false) :
    issue p cls pred pneg eff s = s := by
  simp [issue, h]

/-- A program at an instruction is not an INSTR command. -/
theorem insnReady_program {s : State} {p : Nat} {pred : Fin 8} {pneg : Bool} (h : insnReady s p pred pneg = true) :
    isInstr (partOf s p) = false ∧ (partOf s p).wait = none ∧ coreUp s = true := by
  simp only [insnReady, atCode, atBoundary, Bool.and_eq_true, Bool.not_eq_true', Option.isNone_iff_eq_none] at h
  exact ⟨h.1.1.1.2, h.1.1.2, h.1.1.1.1.1⟩

theorem runAt_part (p pc : Nat) (s : State) : partOf (runAt p pc s) p = atPc (partOf s p) pc := by
  simp [runAt, atPc, onward]

/-- An instruction of a program that ends with a status other than CHECK_FAIL and RANK_UNMAPPED changes ST, PC and the sequencer state, and nothing else. -/
theorem instrEnd_program {s : State} {p cls st : Nat} (r : Word) (h : isInstr (partOf s p) = false) (h1 : st ≠ stCheckFail) (h2 : st ≠ stUnmapped) :
    onlyPart p s (instrEnd p cls st r s) ∧
      partOf (instrEnd p cls st r s) p = { atPc (partOf s p) ((partOf s p).pc + classWords cls) with st := st } := by
  refine ⟨⟨?_, ?_⟩, ?_⟩
  · simp [instrEnd, noteCheck, h, h1, h2, modPart]
  · intro k hk
    simp [instrEnd, noteCheck, h, h1, h2, partOf_modPart_ne hk]
  · simp [instrEnd, noteCheck, h, h1, h2, atPc, onward]

/-- A write of general register n followed by the move to the next word is what a short instruction with a result does. -/
theorem wroteG_run (p n : Nat) (v : Word) (s : State) : wroteG p n v s (runAt p ((partOf s p).pc + 1) (setG p n v s)) := by
  refine ⟨⟨?_, ?_⟩, ?_⟩
  · simp [runAt, setG, modPart]
  · intro k hk
    simp [runAt, setG, partOf_modPart_ne hk]
  · simp [runAt, setG, atPc, onward]

/-! ### Integers -/

theorem toS_toInt (n : Nat) (x : BitVec n) : toS n x.toNat = x.toInt := by
  unfold toS
  rw [BitVec.toInt_eq_msb_cond]
  simp [BitVec.msb_eq_getLsbD_last, BitVec.getLsbD, Nat.mod_eq_of_lt x.isLt]

theorem immS_eq (f : FmtR) : immS f = f.imm.toInt := by
  unfold immS
  exact toS_toInt 32 f.imm

theorem imm_signExtend (f : FmtR) : BitVec.ofInt 64 (immS f) = f.imm.signExtend 64 := by
  rw [immS_eq]
  rfl

/-! ### Inputs -/

/-- An input that no record unit sees acts at once. -/
theorem external_unlogged {s : State} (kind src d0 d1 : Nat) (pay : List Byte) (f : State → State) (h : unlogged s = true) :
    external kind src d0 d1 pay f s = f s := by
  simp only [unlogged, Bool.and_eq_true, Bool.not_eq_true'] at h
  simp [external, replaying, logIn, recording, h.1, h.2]

theorem leaveIdle_run {s : State} (h : coreRuns s = true) : leaveIdle s = s := by
  simp only [coreRuns, Bool.and_eq_true, beq_iff_eq] at h
  simp [leaveIdle, h.2]

/-- The end of IDLE changes the power state and its count alone. -/
theorem leaveIdle_frame (s : State) : { leaveIdle s with pwr := s.pwr } = s := by
  unfold leaveIdle
  split <;> rfl

theorem settle_down {s : State} (h : coreUp s = false) : settle s = s := by
  simp [settle, h]

/-! ### Frames -/

/-- Flits that leave by a port change the fabric and the ports alone. -/
theorem putFlits_frame (p : Nat) (fs : List OutFlit) (s : State) : { putFlits p fs s with fab := s.fab, port := s.port } = s := by
  rfl

/-- The frames that a port takes from its queues change the fabric and the ports alone. -/
theorem pumpPort_frame (p : Nat) (slot : Bool) (n : Nat) (s : State) : { pumpPort p slot n s with fab := s.fab, port := s.port } = s := by
  induction n generalizing s with
  | zero => rfl
  | succ n ih =>
    unfold pumpPort
    rcases nextFrame p slot s with ⟨x, _ | y⟩
    · rfl
    · simp only
      split
      · exact congrArg (fun t : State => { t with fab := s.fab, port := s.port })
          (ih (putFlits p (frameFlits y.frame) (modPort p (fun _ => { chargePort y (chargeShares y x) with ready := x.ready.erase y }) s)))
      · rfl

/-- A frame that joins the queues of a port changes the fabric, the ports and, in a replay, the count of the record unit; nothing else. -/
theorem transmit_frame (inPort : Option Nat) (p : Nat) (f : Frame) (s : State) :
    { transmit inPort p f s with fab := s.fab, port := s.port, rcd := s.rcd } = s := by
  unfold transmit
  split
  · rfl
  · exact congrArg (fun t : State => { t with fab := s.fab, port := s.port, rcd := s.rcd }) (pumpPort_frame p false _ _)

theorem route_frame (inPort : Option Nat) (p : Nat) (f : Frame) (s : State) :
    { (route inPort p f s).1 with fab := s.fab, port := s.port, rcd := s.rcd } = s := by
  unfold route
  split
  · exact transmit_frame _ _ _ _
  · split
    · rename_i x _
      exact transmit_frame inPort x.1 ⟨x.2, f.body⟩ s
    · rfl

/-- A frame that this block forms and sends changes the fabric, the ports and the record unit's count alone. -/
theorem sendFormed_frame (f : Frame) (s : State) : { (sendFormed f s).1 with fab := s.fab, port := s.port, rcd := s.rcd } = s := by
  unfold sendFormed
  split
  · rfl
  · split
    · rfl
    · exact route_frame _ _ _ _

theorem sendFrame_frame (x : SendReq) (s : State) : { (sendFrame x s).1 with fab := s.fab, port := s.port, rcd := s.rcd } = s := by
  unfold sendFrame
  split
  · rfl
  · exact sendFormed_frame _ _

theorem sendTarra_frame (r : Nat) (t : Tarra) (s : State) : { sendTarra r t s with fab := s.fab, port := s.port, rcd := s.rcd } = s :=
  sendFrame_frame _ _

theorem forward_frame (inPort : Option Nat) (f : Frame) (s : State) : { forward inPort f s with fab := s.fab, port := s.port, rcd := s.rcd } = s := by
  unfold forward
  split
  · rfl
  · rename_i p h _
    have e := route_frame inPort p ⟨h, f.body⟩ s
    simp only
    split
    · exact e
    · exact e

end Sys2Proof.Machine
end

