-- ==== Sys2Proof/Laws/Memory.lean ====
section
/-! SUPPORT. The canonical form of memory: what it says of the list, that every operation that writes memory keeps it, and what a read returns after a write. -/

namespace Sys2Proof.Machine

/-- The canonical form says that addresses rise strictly and that no byte is zero. -/
theorem Memory.wf_iff (m : List Host.Cell) : Memory.wf m = true ↔ m.Pairwise (fun c d => c.1 < d.1) ∧ ∀ c ∈ m, c.2 ≠ 0 := by
  induction m with
  | nil => simp [Memory.wf]
  | cons c m ih =>
    cases m with
    | nil => simp [Memory.wf]
    | cons d m =>
      simp only [Memory.wf, Bool.and_eq_true, decide_eq_true_eq, bne_iff_ne, ih, List.pairwise_cons, List.mem_cons, forall_eq_or_imp]
      constructor
      · rintro ⟨⟨h1, h2⟩, ⟨h3, h4⟩, h5, h6⟩
        exact ⟨⟨⟨h1, fun x hx => lt_trans h1 (h3 x hx)⟩, h3, h4⟩, h2, h5, h6⟩
      · rintro ⟨⟨⟨h1, _⟩, h3, h4⟩, h2, h5, h6⟩
        exact ⟨⟨h1, h2⟩, ⟨h3, h4⟩, h5, h6⟩

theorem mem_put {m : SMap Byte} {k : Nat} {v : Byte} {c : Nat × Byte} (h : c ∈ SMap.put m k v) : c = (k, v) ∨ c ∈ m := by
  induction m with
  | nil => simpa [SMap.put] using h
  | cons x m ih =>
    unfold SMap.put at h
    split at h
    · simpa using h
    · split at h
      · rcases List.mem_cons.1 h with h | h <;> simp [h]
      · rcases List.mem_cons.1 h with h | h
        · simp [h]
        · rcases ih h with h | h <;> simp [h]

theorem mem_del {m : SMap Byte} {k : Nat} {c : Nat × Byte} (h : c ∈ SMap.del m k) : c ∈ m := by
  induction m with
  | nil => exact h
  | cons x m ih =>
    unfold SMap.del at h
    split at h
    · simp [h]
    · rcases List.mem_cons.1 h with h | h
      · simp [h]
      · simp [ih h]

theorem put_pairwise {m : SMap Byte} (k : Nat) (v : Byte) (h : m.Pairwise fun c d => c.1 < d.1) : (SMap.put m k v).Pairwise fun c d => c.1 < d.1 := by
  induction m with
  | nil => simp [SMap.put]
  | cons x m ih =>
    obtain ⟨h1, h2⟩ := List.pairwise_cons.1 h
    unfold SMap.put
    split
    · rename_i hk
      refine List.pairwise_cons.2 ⟨fun c hc => ?_, h⟩
      rcases List.mem_cons.1 hc with rfl | hc
      · exact hk
      · exact lt_trans hk (h1 c hc)
    · split
      · rename_i hk
        subst hk
        exact List.pairwise_cons.2 ⟨h1, h2⟩
      · refine List.pairwise_cons.2 ⟨fun c hc => ?_, ih h2⟩
        rcases mem_put hc with rfl | hc
        · simp only; omega
        · exact h1 c hc

theorem del_pairwise {m : SMap Byte} (k : Nat) (h : m.Pairwise fun c d => c.1 < d.1) : (SMap.del m k).Pairwise fun c d => c.1 < d.1 := by
  induction m with
  | nil => exact h
  | cons x m ih =>
    obtain ⟨h1, h2⟩ := List.pairwise_cons.1 h
    unfold SMap.del
    split
    · exact h2
    · exact List.pairwise_cons.2 ⟨fun c hc => h1 c (mem_del hc), ih h2⟩

/-- A byte written keeps the canonical form. -/
theorem uset_wf (m : UnitImg) (k : Nat) (b : Byte) (h : Memory.wf m = true) : Memory.wf (uset m k b) = true := by
  rw [Memory.wf_iff] at h ⊢
  unfold uset
  split
  · exact ⟨del_pairwise k h.1, fun c hc => h.2 c (mem_del hc)⟩
  · rename_i hb
    refine ⟨put_pairwise k b h.1, fun c hc => ?_⟩
    rcases mem_put hc with rfl | hc
    · exact hb
    · exact h.2 c hc

theorem filter_wf (m : List Host.Cell) (f : Host.Cell → Bool) (h : Memory.wf m = true) : Memory.wf (m.filter f) = true := by
  rw [Memory.wf_iff] at h ⊢
  exact ⟨h.1.filter f, fun c hc => h.2 c (List.mem_of_mem_filter hc)⟩

theorem memSplice_wf (a n : Nat) (u : UnitImg) (m : List Host.Cell) (h : Memory.wf m = true) : Memory.wf (memSplice a n u m) = true := by
  unfold memSplice
  have key : ∀ (u : UnitImg) (m : List Host.Cell), Memory.wf m = true →
      Memory.wf (u.foldl (fun m x => if x.1 < n then uset m (a + x.1) x.2 else m) m) = true := by
    intro u
    induction u with
    | nil => exact fun m h => h
    | cons x u ih =>
      intro m h
      refine ih _ ?_
      show Memory.wf (if x.1 < n then _ else _) = true
      split
      · exact uset_wf _ _ _ h
      · exact h
  exact key u _ (filter_wf _ _ h)

theorem splitByte_wf (a : Nat) (b : Byte) (s : State) (h : Memory.wf s.mem = true) : Memory.wf (splitByte a b s).mem = true := by
  unfold splitByte
  split
  · exact h
  · exact uset_wf _ _ _ h

/-- A write of bytes keeps the canonical form. -/
theorem memWrite_wf (a : Nat) (bs : List Byte) (s : State) (h : Memory.wf s.mem = true) : Memory.wf (memWrite a bs s).mem = true := by
  have split_run : ∀ (l : List (Byte × Nat)) (t : State), Memory.wf t.mem = true →
      Memory.wf (l.foldl (fun t x => splitByte (a + x.2) x.1 t) t).mem = true := by
    intro l
    induction l with
    | nil => exact fun t h => h
    | cons x l ih => exact fun t h => ih _ (splitByte_wf _ _ _ h)
  unfold memWrite
  simp only
  split
  · exact split_run _ _ h
  · split
    · exact memSplice_wf _ _ _ _ h
    · exact memSplice_wf _ _ _ _ h

/-- A write of an image keeps the canonical form. -/
theorem memWriteImg_wf (a n : Nat) (u : UnitImg) (s : State) (h : Memory.wf s.mem = true) : Memory.wf (memWriteImg a n u s).mem = true := by
  unfold memWriteImg
  split
  · exact memWrite_wf _ _ _ h
  · exact memSplice_wf _ _ _ _ h

/-! ### Reads after writes -/

theorem look_del_ne {m : SMap Byte} {k j : Nat} (h : j ≠ k) : SMap.look 0 (SMap.del m k) j = SMap.look 0 m j := by
  induction m with
  | nil => rfl
  | cons x m ih =>
    unfold SMap.del
    split
    · rename_i hk
      subst hk
      simp [SMap.look, Ne.symm h]
    · simp only [SMap.look]
      rw [ih]

theorem look_absent {m : SMap Byte} {k : Nat} (h : ∀ c ∈ m, c.1 ≠ k) : SMap.look 0 m k = 0 := by
  induction m with
  | nil => rfl
  | cons x m ih =>
    have h1 : x.1 ≠ k := h x (by simp)
    obtain ⟨i, y⟩ := x
    simp only [SMap.look]
    rw [if_neg h1]
    exact ih fun c hc => h c (by simp [hc])

theorem look_del {m : SMap Byte} (k : Nat) (h : m.Pairwise fun c d => c.1 < d.1) : SMap.look 0 (SMap.del m k) k = 0 := by
  induction m with
  | nil => rfl
  | cons x m ih =>
    obtain ⟨h1, h2⟩ := List.pairwise_cons.1 h
    obtain ⟨i, y⟩ := x
    unfold SMap.del
    split
    · rename_i hk
      exact look_absent fun c hc => by have := h1 c hc; simp only at this; omega
    · rename_i hk
      simp only [SMap.look]
      rw [if_neg hk]
      exact ih h2

/-- A read of a byte just written gives the value written. -/
theorem uget_uset (m : UnitImg) (k : Nat) (b : Byte) (h : Memory.wf m = true) : uget (uset m k b) k = b := by
  rw [Memory.wf_iff] at h
  unfold uget uset
  split
  · rename_i hb
    rw [hb]
    exact look_del k h.1
  · simp

/-- A write leaves every other byte alone. -/
theorem uget_uset_ne (m : UnitImg) {k j : Nat} (b : Byte) (h : j ≠ k) : uget (uset m k b) j = uget m j := by
  unfold uget uset
  split
  · exact look_del_ne h
  · exact SMap.look_put_ne _ _ _ h

end Sys2Proof.Machine
end

