-- ==== Sys2Proof/WellFormed.lean ====
section
/-! DEFINITION. Which commands are well formed: every operand lies within the field that the spec gives it (the tables named at each check). -/

namespace Sys2Proof

/-- Table 13.1: CID 16 bits, EPOCH 32 bits, and 0 unless EPV is set. -/
def cmdHdrOk (h : CmdHdr) : Bool :=
  decide (h.cid < 65536) && decide (h.epoch < 2 ^ 32) && (h.epv || h.epoch == 0)

/-- Table 14.7. -/
def exportOk (b : ExportBody) : Bool :=
  decide (b.entries < 2 ^ 32) && decide (b.areaSize < 2 ^ 32) && decide (b.copyMib < 2 ^ 32)

/-- Table 14.7. -/
def restoreOk (b : RestoreBody) : Bool := decide (b.entries < 2 ^ 32)

/-- Widths of Table 8.1. -/
def frameHdrOk (h : FrameHdr) : Bool :=
  decide (h.destCoord < 2 ^ 17) && decide (h.destRank < 2 ^ 17) && decide (h.srcRank < 2 ^ 17) &&
  decide (h.tag < 65536) && decide (h.gen < 16) && decide (h.part < 16) && decide (h.typ < 32) &&
  decide (h.vc < 8) && decide (h.route < 4) && decide (h.raxis < 4) && decide (h.rdir < 2) &&
  decide (h.daxis < 4) && decide (h.ddir < 2) && decide (h.hops < 64) && decide (h.len < 8192) &&
  decide (h.epoch < 2 ^ 32) && decide (h.hcrc < 65536)

/-- A 4,096-byte image: offsets rise and lie below 4,096, and no zero byte is listed. -/
def unitOk : UnitImg → Bool
  | [] => true
  | [x] => decide (x.1 < 4096) && x.2 != 0
  | x :: y :: u => decide (x.1 < y.1) && x.2 != 0 && unitOk (y :: u)

/-- The 7-bit fields of a header, by column. -/
def seqOk (m : SMap Nat) : Bool := m.all fun x => decide (x.1 < 16) && decide (x.2 < 128)

/-- Widths of Table 4.3. -/
def contribOk (c : Contrib) : Bool :=
  decide (c.epoch < 2 ^ 32) && decide (c.stripe < 2 ^ 40) && decide (c.kind < 4) && decide (c.mask < 65536) &&
  decide (c.bypass < 65536) && seqOk c.seq && decide (c.origin < 2 ^ 17) && decide (c.attempt < 256) &&
  unitOk c.unit.bytes

/-- Widths of a notice entry (Table 4.4). -/
def entryOk (e : NoticeEntry) : Bool := decide (e.stripe < 2 ^ 40) && decide (e.seq < 128) && decide (e.rsvd < 16)

/-- Widths of Table 4.4. -/
def noticeFits (n : NoticeFrame) : Bool :=
  decide (n.epoch < 2 ^ 32) && decide (n.typ < 4) && decide (n.count < 64) && decide (n.attempt < 256) &&
  decide (n.sub < 256) && decide (n.rsvd < 2 ^ 40) && n.entries.all entryOk

/-- Widths of Table 8.3. -/
def chainOk (c : ChainMsg) : Bool :=
  decide (c.epoch < 2 ^ 32) && decide (c.stripe < 2 ^ 40) && decide (c.tkind < 4) && decide (c.index < 16) &&
  decide (c.sources < 2 ^ 20) && decide (c.attempt < 256) && seqOk c.count && decide (c.origin < 2 ^ 17) &&
  unitOk c.unit.bytes

/-- Widths of Table 6.4. -/
def chunkOk (c : ChunkMsg) : Bool :=
  decide (c.epoch < 2 ^ 32) && decide (c.seq < 2 ^ 32) && decide (c.span < 2 ^ 40) && decide (c.piece < 16) &&
  decide (c.pieces < 16) && decide (c.kind < 8) && decide (c.op < 8) && decide (c.axes < 16) && decide (c.part < 16) &&
  decide (c.format < 256) && decide (c.bytes < 8192) && decide (c.stage < 4) && decide (c.origin < 2 ^ 17) &&
  unitOk c.payload

/-- Widths of Table 8.4. -/
def tarraFits (t : Tarra) : Bool :=
  decide (t.kind < 32) && decide (t.rank < 2 ^ 17) && decide (t.inc < 2 ^ 32) && decide (t.epoch < 2 ^ 32) &&
  decide (t.cause < 16) && decide (t.count < 65536) && decide (t.origin < 2 ^ 17) && decide (t.data < 2 ^ 64) &&
  decide (t.attempt < 256)

/-- Ranks, counts and entry indices of an admission record (R375). -/
def admitOk (r : AdmitRec) : Bool :=
  match r with
  | .identity _ => true
  | .gens g => decide (g.length = 16) && g.all fun x => decide (x < 16)
  | .directory _ r0 axis m st => decide (r0 < 2 ^ 17) && decide (axis < 4) && decide (m ≤ 20) && decide (st ≤ 2)
  | .geometry _ r0 du => decide (r0 < 2 ^ 17) && decide (du < 2 ^ 32)
  | .replica i u => decide (i < Config.regions) && decide (u < 2 ^ 32)
  | .takeRegion i _ _ _ _ => decide (i < Config.regions)
  | .takeSlot _ _ _ _ _ => true
  | .step i _ => decide (i < Config.stepRecords)
  | .done => true

/-- Widths of Table 7.1. -/
def beatFits (b : Beat) : Bool := decide (b.inc < 2 ^ 32) && decide (b.rank < 2 ^ 17) && decide (b.epoch < 2 ^ 32)

/-- Widths of Table 8.6. -/
def memMsgOk (m : MemMsg) : Bool :=
  decide (m.op < 16) && decide (m.opseq < 65536) && decide (m.size ≤ 4096) && decide (m.rstat < 8) &&
  decide (m.data.length ≤ 4096)

/-- Widths of Table 8.7. -/
def copyOk (c : CopyMsg) : Bool :=
  decide (c.copyId < 65536) && decide (c.unit < 2 ^ 32) && decide (c.units < 2 ^ 32) && decide (c.tally < 16384) &&
  decide (c.bytes ≤ 4096) && decide (c.rstat < 8) && unitOk c.payload

/-- Widths of Table 8.25. -/
def wakeFits (w : WakeMsg) : Bool := decide (w.rank < 2 ^ 17)

/-- Widths of the link word (R244); a codeword corrects up to 15 symbols (R245). -/
def flitOk (f : Flit) : Bool :=
  decide (f.lseq < 4096) && decide (f.ack < 4096) && decide (f.vc < 8) && decide (f.lkind < 8) && decide (f.lanes < 2 ^ 17) &&
  decide ((f.fixes.map (·.2)).sum ≤ 15)

/-- Data words of a frame (R450). -/
def svcWords (f : SvcFrame) : Nat := (f.count.val + 1) * (if f.size64 then 2 else 1)

/-- Table 17.3: the offset field. -/
def svcOk (f : SvcFrame) : Bool := decide (f.offset < 2 ^ 24)

/-- What TRAIN exchanges (Table 8.8). -/
def peerOk (p : PeerInfo) : Bool := decide (p.inc < 2 ^ 32) && decide (p.rank < 2 ^ 17) && decide (p.coord < 2 ^ 17)

/-- Payload fields within their widths. -/
def payloadOk (b : Payload) : Bool :=
  match b with
  | .contrib c => contribOk c
  | .notice n => noticeFits n
  | .chain c => chainOk c
  | .chunk c => chunkOk c
  | .tarra t r => tarraFits t && (match r with | some x => admitOk x | none => true)
  | .beat b => beatFits b
  | .mem m => memMsgOk m
  | .copy c => copyOk c
  | .copyRsp c => copyOk c
  | .bulk ms => ms.all memMsgOk
  | .wake w => wakeFits w

def frameOk (f : Frame) : Bool := frameHdrOk f.hdr && payloadOk f.body

/-- Whether every operand of a command fits the field that carries it. -/
def Instr.wf (i : Instr) : Bool :=
  match i with
  | .nop _ _ h => cmdHdrOk h
  | .call _ _ h entry _ => cmdHdrOk h && decide (entry < 64)
  | .instrCmd _ _ h _ _ => cmdHdrOk h
  | .bind _ _ h tag => cmdHdrOk h && decide (tag < 65536)
  | .unbind _ _ h => cmdHdrOk h
  | .pcfg _ _ h _ => cmdHdrOk h
  | .load _ _ h _ => cmdHdrOk h
  | .admitJob _ _ h _ n0 _ => cmdHdrOk h && decide (n0 < 2 ^ 32)
  | .admitTimeout => true
  | .teardown _ _ h => cmdHdrOk h
  | .slottab _ _ h _ => cmdHdrOk h
  | .exportCut _ _ h b => cmdHdrOk h && exportOk b
  | .exportCancel _ _ h => cmdHdrOk h
  | .restore _ _ h b => cmdHdrOk h && restoreOk b
  | .commandFetch _ _ => true
  | .sqDoorbell _ _ tail => decide (tail < 65536)
  | .cqHeadDoorbell _ _ head => decide (head < 65536)
  | .queueEnable _ _ _ _ _ => true
  | .flush _ => true
  | .reset _ => true
  | .unfence _ => true
  | .coalTimerExpiry _ _ => true
  | .vecUnmask _ _ _ => true
  | .regionWrite _ => true
  | .regionRead _ => true
  | .groupWrite _ _ _ => true
  | .xlatWrite _ => true
  | .xlatRead _ => true
  | .pageRead n => decide (n < Config.maxPages)
  | .clearLost => true
  | .disarm _ => true
  | .resetReaders _ => true
  | .pubDirWrite _ _ _ => true
  | .warm => true
  | .reqSleep => true
  | .reqDeep => true
  | .reqOff => true
  | .reqRun => true
  | .keepWrite _ _ _ => true
  | .keepProgramDone _ => true
  | .snap => true
  | .keepSnapshotTimer => true
  | .eccSplitKey _ _ => true
  | .wakeNb _ => true
  | .recRecord _ => true
  | .recReplay _ => true
  | .recStop _ => true
  | .tallyWrite _ _ _ _ => true
  | .timerWrite _ _ _ _ _ => true
  | .padRelease _ => true
  | .rcRead r => decide (r.off < 2 ^ 24)
  | .registerWrite off _ _ => decide (off < 2 ^ 24)
  | .nopInstr _ _ => true
  | .br _ _ => true
  | .jal _ _ => true
  | .jr _ _ => true
  | .done _ _ => true
  | .ereti _ _ => true
  | .mfs _ _ => true
  | .mts _ _ => true
  | .slotst _ _ => true
  | .li _ _ => true
  | .lih _ _ => true
  | .mov _ _ => true
  | .add _ _ _ => true
  | .sub _ _ _ => true
  | .mul _ _ _ => true
  | .mulhu _ _ _ => true
  | .adds _ _ _ => true
  | .subs _ _ _ => true
  | .and _ _ _ => true
  | .or _ _ _ => true
  | .xor _ _ _ => true
  | .shl _ _ _ => true
  | .shr _ _ _ => true
  | .sar _ _ _ => true
  | .min _ _ _ => true
  | .max _ _ _ => true
  | .minu _ _ _ => true
  | .maxu _ _ _ => true
  | .ceq _ _ _ => true
  | .cne _ _ _ => true
  | .clt _ _ _ => true
  | .cltu _ _ _ => true
  | .cle _ _ _ => true
  | .cleu _ _ _ => true
  | .pand _ _ => true
  | .por _ _ => true
  | .pnot _ _ => true
  | .pset _ _ => true
  | .ld _ _ => true
  | .stg _ _ => true
  | .ldd _ _ => true
  | .std _ _ => true
  | .dput _ _ => true
  | .dget _ _ => true
  | .tensorMov _ _ _ => true
  | .cvt _ _ _ => true
  | .fill _ _ _ => true
  | .compress _ _ _ => true
  | .expand _ _ _ => true
  | .publish _ _ _ => true
  | .pfarm _ _ _ => true
  | .pageSeal _ _ _ => true
  | .pageRetain _ _ _ => true
  | .pageRelease _ _ _ => true
  | .ew _ _ _ => true
  | .map _ _ _ => true
  | .adamw _ _ _ => true
  | .lion _ _ _ => true
  | .sgdm _ _ _ => true
  | .mstep _ _ _ => true
  | .codeDelta _ _ _ => true
  | .codeFresh _ _ _ => true
  | .audit _ _ _ => true
  | .rebuild _ _ _ => true
  | .decodeUnit _ _ _ => true
  | .rs _ _ _ => true
  | .ag _ _ _ => true
  | .ar _ _ _ => true
  | .bc _ _ _ => true
  | .rload _ _ _ => true
  | .rstore _ _ _ => true
  | .radd32 _ _ _ => true
  | .radd64 _ _ _ => true
  | .rswap _ _ _ => true
  | .rcas _ _ _ => true
  | .rand _ _ _ => true
  | .ror _ _ _ => true
  | .rxor _ _ _ => true
  | .rumin _ _ _ => true
  | .rumax _ _ _ => true
  | .rgfmac _ _ _ => true
  | .rtadd _ _ _ => true
  | .copy _ _ _ => true
  | .tinc _ _ => true
  | .tset _ _ => true
  | .ttgt _ _ => true
  | .tadv _ _ => true
  | .trd _ _ => true
  | .twait _ _ => true
  | .swait _ _ => true
  | .ewait _ _ => true
  | .tmset _ _ => true
  | .tmstop _ _ => true
  | .tmtake _ _ => true
  | .edge _ _ => true
  | .edset _ _ => true
  | .fence _ _ => true
  | .endupd _ _ => true
  | .waitep _ _ => true
  | .voterd _ _ => true
  | .idle _ _ => true
  | .granuleEnd _ => true
  | .eventTake _ => true
  | .timerExpiry _ _ => true
  | .train _ h c => frameHdrOk h && contribOk c
  | .trainWindowExpiry _ stripe _ => decide (stripe < 2 ^ 40)
  | .relayTrain _ stripe _ => decide (stripe < 2 ^ 40)
  | .contrib _ h c => frameHdrOk h && contribOk c
  | .notice _ h n => frameHdrOk h && noticeFits n
  | .need _ h n => frameHdrOk h && noticeFits n
  | .query _ h n => frameHdrOk h && noticeFits n
  | .stateEntry _ h n => frameHdrOk h && noticeFits n
  | .plan _ h n => frameHdrOk h && noticeFits n
  | .noticeBatchTimer rank => decide (rank < 2 ^ 17)
  | .noticeTimerExpiry _ stripe _ _ => decide (stripe < 2 ^ 40)
  | .epochClose => true
  | .reportLanded => true
  | .reportGuarded => true
  | .codedStoreWrite _ data => decide (0 < data.length ∧ data.length ≤ 4096)
  | .experienceTapWrite _ data => decide (0 < data.length ∧ data.length ≤ 4096)
  | .tapPoison _ => true
  | .chain _ h c => frameHdrOk h && chainOk c
  | .auditFrame _ h c => frameHdrOk h && chainOk c
  | .auditLapStart => true
  | .rebuildStart => true
  | .rollForward => true
  | .restoreComplete => true
  | .chunk _ h c => frameHdrOk h && chunkOk c
  | .collNeed _ h c => frameHdrOk h && chunkOk c
  | .credit _ h c => frameHdrOk h && chunkOk c
  | .collTimerExpiry _ _ seq => decide (seq < 2 ^ 32)
  | .collReport _ h t => frameHdrOk h && tarraFits t
  | .collDone _ h t => frameHdrOk h && tarraFits t
  | .collOutcome _ h t => frameHdrOk h && tarraFits t
  | .report _ h t => frameHdrOk h && tarraFits t
  | .reportResend rank inc => decide (rank < 2 ^ 17) && decide (inc < 2 ^ 32)
  | .mergeKeyExpiry rank inc => decide (rank < 2 ^ 17) && decide (inc < 2 ^ 32)
  | .probe _ h t => frameHdrOk h && tarraFits t
  | .probeAnswer _ h t => frameHdrOk h && tarraFits t
  | .probeTimeout rank inc => decide (rank < 2 ^ 17) && decide (inc < 2 ^ 32)
  | .closure _ h t => frameHdrOk h && tarraFits t
  | .verdict _ h t => frameHdrOk h && tarraFits t
  | .vote _ h t => frameHdrOk h && tarraFits t
  | .voteResult _ h t => frameHdrOk h && tarraFits t
  | .guarded _ h t => frameHdrOk h && tarraFits t
  | .groupGuarded _ h t => frameHdrOk h && tarraFits t
  | .guardWave _ h t => frameHdrOk h && tarraFits t
  | .landed _ h t => frameHdrOk h && tarraFits t
  | .commitWave _ h t => frameHdrOk h && tarraFits t
  | .abortWave _ h t => frameHdrOk h && tarraFits t
  | .restored _ h t => frameHdrOk h && tarraFits t
  | .rerunWave _ h t => frameHdrOk h && tarraFits t
  | .quiet _ h t => frameHdrOk h && tarraFits t
  | .groupLost _ h t => frameHdrOk h && tarraFits t
  | .admitRecord _ h t r => frameHdrOk h && tarraFits t && admitOk r
  | .ready _ h t => frameHdrOk h && tarraFits t
  | .handover _ h t => frameHdrOk h && tarraFits t
  | .heartbeatSend => true
  | .heartbeat _ h b => frameHdrOk h && beatFits b
  | .heartbeatIntervalEnd => true
  | .memreq _ h m => frameHdrOk h && memMsgOk m
  | .cancel _ h m => frameHdrOk h && memMsgOk m
  | .memrsp _ h m => frameHdrOk h && memMsgOk m
  | .rspTimeout _ rank opseq => decide (rank < 2 ^ 17) && decide (opseq < 65536)
  | .gwbulk _ h ms => frameHdrOk h && ms.all memMsgOk
  | .gwFlush rank => decide (rank < 2 ^ 17)
  | .copyUnit _ h c => frameHdrOk h && copyOk c
  | .copyrsp _ h c => frameHdrOk h && copyOk c
  | .wake _ h w => frameHdrOk h && wakeFits w
  | .frameForward _ f => frameOk f
  | .frameHoldExpiry _ => true
  | .nack _ lseq => decide (lseq < 4096)
  | .replayTimer _ => true
  | .portBringupStep _ peer => peerOk peer
  | .laneCalibration _ _ => true
  | .lockLoss _ _ => true
  | .holdExit _ => true
  | .prefetchStart _ n => decide (n < 4096)
  | .prefetchArrival _ n => decide (n < 4096)
  | .surrTallyIncrement _ _ => true
  | .tallyWait _ => true
  | .genStep _ => true
  | .acquire _ => true
  | .readerRelease _ _ => true
  | .alloc => true
  | .openPage n => decide (n < Config.maxPages)
  | .cowCopyDone n => decide (n < Config.maxPages)
  | .retain n => decide (n < Config.maxPages)
  | .release n => decide (n < Config.maxPages)
  | .sealAccept n => decide (n < Config.maxPages)
  | .drainUnit => true
  | .replayEntry => true
  | .writeBack line => decide (line < Config.sramLines)
  | .sageScrub _ => true
  | .quiesce => true
  | .quiesceTimeout => true
  | .idleEntry => true
  | .idleExit => true
  | .powerExit => true
  | .wakeN _ _ => true
  | .pwrGoodRise _ => true
  | .pwrGoodFall => true
  | .refclkStop => true
  | .resetFinished => true
  | .svcRead f => svcOk f
  | .svcWrite f data => svcOk f && decide (data.length = svcWords f)
  | .svcFrameError _ => true
  | .svcWake _ => true
  | .i2cWrite off _ => decide (off < 2 ^ 24)
  | .i2cRead off => decide (off < 2 ^ 24)
  | .i2cBusError => true
  | .alert _ => true
  | .alertPulseEnd => true
  | .alertHoldoffEnd => true
  | .alertRetry => true
  | .lineStuck => true
  | .lineOk => true
  | .grpAlertN _ => true
  | .flit _ f => flitOk f
  | .chervilSlot _ => true
  | .laserLow _ _ => true
  | .refclkStart => true
  | .arbitrationLost _ _ winner => decide (winner < 128)
  | .svcAddressWord f => svcOk f

end Sys2Proof
end

