-- ==== Sys2Proof/Laws/PerInstr.lean ====
section
/-! SUPPORT. One lemma per command: the header of a well-formed queue command lies within its fields (spec/13 Table 13.1), and so do header and payload of a well-formed arrival (spec/08 Table 8.1 and the payload tables). -/

namespace Sys2Proof.Laws.WordsFit

open Sys2Proof.Machine

/-- The command header of a command of the queues (spec/13 Table 13.1). -/
def headerOf : Instr → Option CmdHdr
  | .nop _ _ h => some h
  | .call _ _ h _ _ => some h
  | .instrCmd _ _ h _ _ => some h
  | .bind _ _ h _ => some h
  | .unbind _ _ h => some h
  | .pcfg _ _ h _ => some h
  | .load _ _ h _ => some h
  | .admitJob _ _ h _ _ _ => some h
  | .teardown _ _ h => some h
  | .slottab _ _ h _ => some h
  | .exportCut _ _ h _ => some h
  | .exportCancel _ _ h => some h
  | .restore _ _ h _ => some h
  | _ => none

/-- What a well-formed command carries lies within the fields that carry it. -/
def Statement (i : Instr) : Prop :=
  i.wf = true → (∀ h, headerOf i = some h → cmdHdrOk h = true) ∧ ∀ p f, arrival i = some (p, f) → frameOk f = true

theorem header_fits (i : Instr) (h : i.wf = true) (x : CmdHdr) (e : headerOf i = some x) : cmdHdrOk x = true := by
  cases i <;> simp only [headerOf, reduceCtorEq, Option.some.injEq] at e <;> subst e <;> simp_all [Instr.wf]

theorem frame_fits (i : Instr) (h : i.wf = true) (p : Port) (f : Frame) (e : arrival i = some (p, f)) : frameOk f = true := by
  cases i <;> simp only [arrival, reduceCtorEq, Option.some.injEq, Prod.mk.injEq] at e <;> obtain ⟨rfl, rfl⟩ := e <;>
    simpa [Instr.wf, frameOk, payloadOk, and_assoc] using h

theorem holds (i : Instr) : Statement i := fun h => ⟨header_fits i h, frame_fits i h⟩

theorem nop (p : Part) (q : Queue) (h : CmdHdr) : Statement (.nop p q h) := holds _
theorem call (p : Part) (q : Queue) (h : CmdHdr) (entry : Nat) (args : Args) : Statement (.call p q h entry args) := holds _
theorem instrCmd (p : Part) (q : Queue) (h : CmdHdr) (w1 : Word) (w2 : Word) : Statement (.instrCmd p q h w1 w2) := holds _
theorem bind (p : Part) (q : Queue) (h : CmdHdr) (tag : Nat) : Statement (.bind p q h tag) := holds _
theorem unbind (p : Part) (q : Queue) (h : CmdHdr) : Statement (.unbind p q h) := holds _
theorem pcfg (p : Part) (q : Queue) (h : CmdHdr) (mask : BitVec 16) : Statement (.pcfg p q h mask) := holds _
theorem load (p : Part) (q : Queue) (h : CmdHdr) (addr : Word) : Statement (.load p q h addr) := holds _
theorem admitJob (p : Part) (q : Queue) (h : CmdHdr) (compat : Bool) (n0 : Nat) (bitmap : Word) : Statement (.admitJob p q h compat n0 bitmap) := holds _
theorem admitTimeout : Statement (.admitTimeout) := holds _
theorem teardown (p : Part) (q : Queue) (h : CmdHdr) : Statement (.teardown p q h) := holds _
theorem slottab (p : Part) (q : Queue) (h : CmdHdr) (addr : Word) : Statement (.slottab p q h addr) := holds _
theorem exportCut (p : Part) (q : Queue) (h : CmdHdr) (b : ExportBody) : Statement (.exportCut p q h b) := holds _
theorem exportCancel (p : Part) (q : Queue) (h : CmdHdr) : Statement (.exportCancel p q h) := holds _
theorem restore (p : Part) (q : Queue) (h : CmdHdr) (b : RestoreBody) : Statement (.restore p q h b) := holds _
theorem commandFetch (p : Part) (q : Queue) : Statement (.commandFetch p q) := holds _
theorem sqDoorbell (p : Part) (q : Queue) (tail : Nat) : Statement (.sqDoorbell p q tail) := holds _
theorem cqHeadDoorbell (p : Part) (q : Queue) (head : Nat) : Statement (.cqHeadDoorbell p q head) := holds _
theorem queueEnable (p : Part) (q : Queue) (cq : Bool) (a : Acc) (v : Word) : Statement (.queueEnable p q cq a v) := holds _
theorem flush (p : Part) : Statement (.flush p) := holds _
theorem reset (p : Part) : Statement (.reset p) := holds _
theorem unfence (p : Part) : Statement (.unfence p) := holds _
theorem coalTimerExpiry (p : Part) (q : Queue) : Statement (.coalTimerExpiry p q) := holds _
theorem vecUnmask (n : Fin 96) (a : Acc) (v : Word) : Statement (.vecUnmask n a v) := holds _
theorem regionWrite (ix : Fin 16384) : Statement (.regionWrite ix) := holds _
theorem regionRead (ix : Fin 16384) : Statement (.regionRead ix) := holds _
theorem groupWrite (g : Slot) (a : Acc) (v : Word) : Statement (.groupWrite g a v) := holds _
theorem xlatWrite (ix : Fin 4096) : Statement (.xlatWrite ix) := holds _
theorem xlatRead (ix : Fin 4096) : Statement (.xlatRead ix) := holds _
theorem pageRead (n : Nat) : Statement (.pageRead n) := holds _
theorem clearLost : Statement (.clearLost) := holds _
theorem disarm (p : Part) : Statement (.disarm p) := holds _
theorem resetReaders (e : Fin 32) : Statement (.resetReaders e) := holds _
theorem pubDirWrite (e : Fin 32) (a : Acc) (v : Word) : Statement (.pubDirWrite e a v) := holds _
theorem warm : Statement (.warm) := holds _
theorem reqSleep : Statement (.reqSleep) := holds _
theorem reqDeep : Statement (.reqDeep) := holds _
theorem reqOff : Statement (.reqOff) := holds _
theorem reqRun : Statement (.reqRun) := holds _
theorem keepWrite (n : Fin 64) (a : Acc) (v : Word) : Statement (.keepWrite n a v) := holds _
theorem keepProgramDone (readBack : Word) : Statement (.keepProgramDone readBack) := holds _
theorem snap : Statement (.snap) := holds _
theorem keepSnapshotTimer : Statement (.keepSnapshotTimer) := holds _
theorem eccSplitKey (a : Acc) (v : Word) : Statement (.eccSplitKey a v) := holds _
theorem wakeNb (port : Port) : Statement (.wakeNb port) := holds _
theorem recRecord (v : Word) : Statement (.recRecord v) := holds _
theorem recReplay (v : Word) : Statement (.recReplay v) := holds _
theorem recStop (v : Word) : Statement (.recStop v) := holds _
theorem tallyWrite (n : Fin 16384) (hi : Bool) (a : Acc) (v : Word) : Statement (.tallyWrite n hi a v) := holds _
theorem timerWrite (p : Part) (t : Fin 64) (hi : Bool) (a : Acc) (v : Word) : Statement (.timerWrite p t hi a v) := holds _
theorem padRelease (v : Fin 32) : Statement (.padRelease v) := holds _
theorem rcRead (r : CtlRd) : Statement (.rcRead r) := holds _
theorem registerWrite (off : Nat) (a : Acc) (v : Word) : Statement (.registerWrite off a v) := holds _
theorem nopInstr (p : Part) (f : FmtR) : Statement (.nopInstr p f) := holds _
theorem br (p : Part) (f : FmtR) : Statement (.br p f) := holds _
theorem jal (p : Part) (f : FmtR) : Statement (.jal p f) := holds _
theorem jr (p : Part) (f : FmtR) : Statement (.jr p f) := holds _
theorem done (p : Part) (f : FmtR) : Statement (.done p f) := holds _
theorem ereti (p : Part) (f : FmtR) : Statement (.ereti p f) := holds _
theorem mfs (p : Part) (f : FmtR) : Statement (.mfs p f) := holds _
theorem mts (p : Part) (f : FmtR) : Statement (.mts p f) := holds _
theorem slotst (p : Part) (f : FmtR) : Statement (.slotst p f) := holds _
theorem li (p : Part) (f : FmtR) : Statement (.li p f) := holds _
theorem lih (p : Part) (f : FmtR) : Statement (.lih p f) := holds _
theorem mov (p : Part) (f : FmtR) : Statement (.mov p f) := holds _
theorem add (p : Part) (f : FmtR) (im : Bool) : Statement (.add p f im) := holds _
theorem sub (p : Part) (f : FmtR) (im : Bool) : Statement (.sub p f im) := holds _
theorem mul (p : Part) (f : FmtR) (im : Bool) : Statement (.mul p f im) := holds _
theorem mulhu (p : Part) (f : FmtR) (im : Bool) : Statement (.mulhu p f im) := holds _
theorem adds (p : Part) (f : FmtR) (im : Bool) : Statement (.adds p f im) := holds _
theorem subs (p : Part) (f : FmtR) (im : Bool) : Statement (.subs p f im) := holds _
theorem and (p : Part) (f : FmtR) (im : Bool) : Statement (.and p f im) := holds _
theorem or (p : Part) (f : FmtR) (im : Bool) : Statement (.or p f im) := holds _
theorem xor (p : Part) (f : FmtR) (im : Bool) : Statement (.xor p f im) := holds _
theorem shl (p : Part) (f : FmtR) (im : Bool) : Statement (.shl p f im) := holds _
theorem shr (p : Part) (f : FmtR) (im : Bool) : Statement (.shr p f im) := holds _
theorem sar (p : Part) (f : FmtR) (im : Bool) : Statement (.sar p f im) := holds _
theorem min (p : Part) (f : FmtR) (im : Bool) : Statement (.min p f im) := holds _
theorem max (p : Part) (f : FmtR) (im : Bool) : Statement (.max p f im) := holds _
theorem minu (p : Part) (f : FmtR) (im : Bool) : Statement (.minu p f im) := holds _
theorem maxu (p : Part) (f : FmtR) (im : Bool) : Statement (.maxu p f im) := holds _
theorem ceq (p : Part) (f : FmtR) (im : Bool) : Statement (.ceq p f im) := holds _
theorem cne (p : Part) (f : FmtR) (im : Bool) : Statement (.cne p f im) := holds _
theorem clt (p : Part) (f : FmtR) (im : Bool) : Statement (.clt p f im) := holds _
theorem cltu (p : Part) (f : FmtR) (i : Bool) : Statement (.cltu p f i) := holds _
theorem cle (p : Part) (f : FmtR) (i : Bool) : Statement (.cle p f i) := holds _
theorem cleu (p : Part) (f : FmtR) (i : Bool) : Statement (.cleu p f i) := holds _
theorem pand (p : Part) (f : FmtR) : Statement (.pand p f) := holds _
theorem por (p : Part) (f : FmtR) : Statement (.por p f) := holds _
theorem pnot (p : Part) (f : FmtR) : Statement (.pnot p f) := holds _
theorem pset (p : Part) (f : FmtR) : Statement (.pset p f) := holds _
theorem ld (p : Part) (f : FmtR) : Statement (.ld p f) := holds _
theorem stg (p : Part) (f : FmtR) : Statement (.stg p f) := holds _
theorem ldd (p : Part) (f : FmtR) : Statement (.ldd p f) := holds _
theorem std (p : Part) (f : FmtR) : Statement (.std p f) := holds _
theorem dput (p : Part) (f : FmtR) : Statement (.dput p f) := holds _
theorem dget (p : Part) (f : FmtR) : Statement (.dget p f) := holds _
theorem tensorMov (p : Part) (f : FmtT) (x : Sec2) : Statement (.tensorMov p f x) := holds _
theorem cvt (p : Part) (f : FmtT) (x : Sec2) : Statement (.cvt p f x) := holds _
theorem fill (p : Part) (f : FmtT) (x : Sec2) : Statement (.fill p f x) := holds _
theorem compress (p : Part) (f : FmtT) (x : Sec2) : Statement (.compress p f x) := holds _
theorem expand (p : Part) (f : FmtT) (x : Sec2) : Statement (.expand p f x) := holds _
theorem publish (p : Part) (f : FmtT) (x : Sec2) : Statement (.publish p f x) := holds _
theorem pfarm (p : Part) (f : FmtT) (x : Sec2) : Statement (.pfarm p f x) := holds _
theorem pageSeal (p : Part) (f : FmtT) (x : Sec2) : Statement (.pageSeal p f x) := holds _
theorem pageRetain (p : Part) (f : FmtT) (x : Sec2) : Statement (.pageRetain p f x) := holds _
theorem pageRelease (p : Part) (f : FmtT) (x : Sec2) : Statement (.pageRelease p f x) := holds _
theorem ew (p : Part) (f : FmtT) (x : Sec34) : Statement (.ew p f x) := holds _
theorem map (p : Part) (f : FmtT) (x : Sec34) : Statement (.map p f x) := holds _
theorem adamw (p : Part) (f : FmtT) (x : Sec34) : Statement (.adamw p f x) := holds _
theorem lion (p : Part) (f : FmtT) (x : Sec34) : Statement (.lion p f x) := holds _
theorem sgdm (p : Part) (f : FmtT) (x : Sec34) : Statement (.sgdm p f x) := holds _
theorem mstep (p : Part) (f : FmtT) (x : Sec34) : Statement (.mstep p f x) := holds _
theorem codeDelta (p : Part) (f : FmtT) (x : Sec5) : Statement (.codeDelta p f x) := holds _
theorem codeFresh (p : Part) (f : FmtT) (x : Sec5) : Statement (.codeFresh p f x) := holds _
theorem audit (p : Part) (f : FmtT) (x : Sec5) : Statement (.audit p f x) := holds _
theorem rebuild (p : Part) (f : FmtT) (x : Sec5) : Statement (.rebuild p f x) := holds _
theorem decodeUnit (p : Part) (f : FmtT) (x : Sec5) : Statement (.decodeUnit p f x) := holds _
theorem rs (p : Part) (f : FmtT) (x : Sec6) : Statement (.rs p f x) := holds _
theorem ag (p : Part) (f : FmtT) (x : Sec6) : Statement (.ag p f x) := holds _
theorem ar (p : Part) (f : FmtT) (x : Sec6) : Statement (.ar p f x) := holds _
theorem bc (p : Part) (f : FmtT) (x : Sec6) : Statement (.bc p f x) := holds _
theorem rload (p : Part) (f : FmtT) (x : Sec7) : Statement (.rload p f x) := holds _
theorem rstore (p : Part) (f : FmtT) (x : Sec7) : Statement (.rstore p f x) := holds _
theorem radd32 (p : Part) (f : FmtT) (x : Sec7) : Statement (.radd32 p f x) := holds _
theorem radd64 (p : Part) (f : FmtT) (x : Sec7) : Statement (.radd64 p f x) := holds _
theorem rswap (p : Part) (f : FmtT) (x : Sec7) : Statement (.rswap p f x) := holds _
theorem rcas (p : Part) (f : FmtT) (x : Sec7) : Statement (.rcas p f x) := holds _
theorem rand (p : Part) (f : FmtT) (x : Sec7) : Statement (.rand p f x) := holds _
theorem ror (p : Part) (f : FmtT) (x : Sec7) : Statement (.ror p f x) := holds _
theorem rxor (p : Part) (f : FmtT) (x : Sec7) : Statement (.rxor p f x) := holds _
theorem rumin (p : Part) (f : FmtT) (x : Sec7) : Statement (.rumin p f x) := holds _
theorem rumax (p : Part) (f : FmtT) (x : Sec7) : Statement (.rumax p f x) := holds _
theorem rgfmac (p : Part) (f : FmtT) (x : Sec7) : Statement (.rgfmac p f x) := holds _
theorem rtadd (p : Part) (f : FmtT) (x : Sec7) : Statement (.rtadd p f x) := holds _
theorem copy (p : Part) (f : FmtT) (x : Sec7) : Statement (.copy p f x) := holds _
theorem tinc (p : Part) (f : FmtR) : Statement (.tinc p f) := holds _
theorem tset (p : Part) (f : FmtR) : Statement (.tset p f) := holds _
theorem ttgt (p : Part) (f : FmtR) : Statement (.ttgt p f) := holds _
theorem tadv (p : Part) (f : FmtR) : Statement (.tadv p f) := holds _
theorem trd (p : Part) (f : FmtR) : Statement (.trd p f) := holds _
theorem twait (p : Part) (f : FmtR) : Statement (.twait p f) := holds _
theorem swait (p : Part) (f : FmtR) : Statement (.swait p f) := holds _
theorem ewait (p : Part) (f : FmtR) : Statement (.ewait p f) := holds _
theorem tmset (p : Part) (f : FmtR) : Statement (.tmset p f) := holds _
theorem tmstop (p : Part) (f : FmtR) : Statement (.tmstop p f) := holds _
theorem tmtake (p : Part) (f : FmtR) : Statement (.tmtake p f) := holds _
theorem edge (p : Part) (f : FmtR) : Statement (.edge p f) := holds _
theorem edset (p : Part) (f : FmtR) : Statement (.edset p f) := holds _
theorem fence (p : Part) (f : FmtR) : Statement (.fence p f) := holds _
theorem endupd (p : Part) (f : FmtR) : Statement (.endupd p f) := holds _
theorem waitep (p : Part) (f : FmtR) : Statement (.waitep p f) := holds _
theorem voterd (p : Part) (f : FmtR) : Statement (.voterd p f) := holds _
theorem idle (p : Part) (f : FmtR) : Statement (.idle p f) := holds _
theorem granuleEnd (p : Part) : Statement (.granuleEnd p) := holds _
theorem eventTake (p : Part) : Statement (.eventTake p) := holds _
theorem timerExpiry (p : Part) (t : Fin 64) : Statement (.timerExpiry p t) := holds _
theorem train (port : Port) (h : FrameHdr) (c : Contrib) : Statement (.train port h c) := holds _
theorem trainWindowExpiry (g : Slot) (stripe : Nat) (row : Fin 4) : Statement (.trainWindowExpiry g stripe row) := holds _
theorem relayTrain (g : Slot) (stripe : Nat) (row : Fin 4) : Statement (.relayTrain g stripe row) := holds _
theorem contrib (port : Port) (h : FrameHdr) (c : Contrib) : Statement (.contrib port h c) := holds _
theorem notice (port : Port) (h : FrameHdr) (n : NoticeFrame) : Statement (.notice port h n) := holds _
theorem need (port : Port) (h : FrameHdr) (n : NoticeFrame) : Statement (.need port h n) := holds _
theorem query (port : Port) (h : FrameHdr) (n : NoticeFrame) : Statement (.query port h n) := holds _
theorem stateEntry (port : Port) (h : FrameHdr) (n : NoticeFrame) : Statement (.stateEntry port h n) := holds _
theorem plan (port : Port) (h : FrameHdr) (n : NoticeFrame) : Statement (.plan port h n) := holds _
theorem noticeBatchTimer (rank : Nat) : Statement (.noticeBatchTimer rank) := holds _
theorem noticeTimerExpiry (g : Slot) (stripe : Nat) (row : Fin 4) (col : Fin 16) : Statement (.noticeTimerExpiry g stripe row col) := holds _
theorem epochClose : Statement (.epochClose) := holds _
theorem reportLanded : Statement (.reportLanded) := holds _
theorem reportGuarded : Statement (.reportGuarded) := holds _
theorem codedStoreWrite (addr : Word) (data : List Byte) : Statement (.codedStoreWrite addr data) := holds _
theorem experienceTapWrite (addr : Word) (data : List Byte) : Statement (.experienceTapWrite addr data) := holds _
theorem tapPoison (addr : Word) : Statement (.tapPoison addr) := holds _
theorem chain (port : Port) (h : FrameHdr) (c : ChainMsg) : Statement (.chain port h c) := holds _
theorem auditFrame (port : Port) (h : FrameHdr) (c : ChainMsg) : Statement (.auditFrame port h c) := holds _
theorem auditLapStart : Statement (.auditLapStart) := holds _
theorem rebuildStart : Statement (.rebuildStart) := holds _
theorem rollForward : Statement (.rollForward) := holds _
theorem restoreComplete : Statement (.restoreComplete) := holds _
theorem chunk (port : Port) (h : FrameHdr) (c : ChunkMsg) : Statement (.chunk port h c) := holds _
theorem collNeed (port : Port) (h : FrameHdr) (c : ChunkMsg) : Statement (.collNeed port h c) := holds _
theorem credit (port : Port) (h : FrameHdr) (c : ChunkMsg) : Statement (.credit port h c) := holds _
theorem collTimerExpiry (p : Part) (axes : Fin 16) (seq : Nat) : Statement (.collTimerExpiry p axes seq) := holds _
theorem collReport (port : Port) (h : FrameHdr) (t : Tarra) : Statement (.collReport port h t) := holds _
theorem collDone (port : Port) (h : FrameHdr) (t : Tarra) : Statement (.collDone port h t) := holds _
theorem collOutcome (port : Port) (h : FrameHdr) (t : Tarra) : Statement (.collOutcome port h t) := holds _
theorem report (port : Port) (h : FrameHdr) (t : Tarra) : Statement (.report port h t) := holds _
theorem reportResend (rank : Nat) (inc : Nat) : Statement (.reportResend rank inc) := holds _
theorem mergeKeyExpiry (rank : Nat) (inc : Nat) : Statement (.mergeKeyExpiry rank inc) := holds _
theorem probe (port : Port) (h : FrameHdr) (t : Tarra) : Statement (.probe port h t) := holds _
theorem probeAnswer (port : Port) (h : FrameHdr) (t : Tarra) : Statement (.probeAnswer port h t) := holds _
theorem probeTimeout (rank : Nat) (inc : Nat) : Statement (.probeTimeout rank inc) := holds _
theorem closure (port : Port) (h : FrameHdr) (t : Tarra) : Statement (.closure port h t) := holds _
theorem verdict (port : Port) (h : FrameHdr) (t : Tarra) : Statement (.verdict port h t) := holds _
theorem vote (port : Port) (h : FrameHdr) (t : Tarra) : Statement (.vote port h t) := holds _
theorem voteResult (port : Port) (h : FrameHdr) (t : Tarra) : Statement (.voteResult port h t) := holds _
theorem guarded (port : Port) (h : FrameHdr) (t : Tarra) : Statement (.guarded port h t) := holds _
theorem groupGuarded (port : Port) (h : FrameHdr) (t : Tarra) : Statement (.groupGuarded port h t) := holds _
theorem guardWave (port : Port) (h : FrameHdr) (t : Tarra) : Statement (.guardWave port h t) := holds _
theorem landed (port : Port) (h : FrameHdr) (t : Tarra) : Statement (.landed port h t) := holds _
theorem commitWave (port : Port) (h : FrameHdr) (t : Tarra) : Statement (.commitWave port h t) := holds _
theorem abortWave (port : Port) (h : FrameHdr) (t : Tarra) : Statement (.abortWave port h t) := holds _
theorem restored (port : Port) (h : FrameHdr) (t : Tarra) : Statement (.restored port h t) := holds _
theorem rerunWave (port : Port) (h : FrameHdr) (t : Tarra) : Statement (.rerunWave port h t) := holds _
theorem quiet (port : Port) (h : FrameHdr) (t : Tarra) : Statement (.quiet port h t) := holds _
theorem groupLost (port : Port) (h : FrameHdr) (t : Tarra) : Statement (.groupLost port h t) := holds _
theorem admitRecord (port : Port) (h : FrameHdr) (t : Tarra) (r : AdmitRec) : Statement (.admitRecord port h t r) := holds _
theorem ready (port : Port) (h : FrameHdr) (t : Tarra) : Statement (.ready port h t) := holds _
theorem handover (port : Port) (h : FrameHdr) (t : Tarra) : Statement (.handover port h t) := holds _
theorem heartbeatSend : Statement (.heartbeatSend) := holds _
theorem heartbeat (port : Port) (h : FrameHdr) (b : Beat) : Statement (.heartbeat port h b) := holds _
theorem heartbeatIntervalEnd : Statement (.heartbeatIntervalEnd) := holds _
theorem memreq (port : Port) (h : FrameHdr) (m : MemMsg) : Statement (.memreq port h m) := holds _
theorem cancel (port : Port) (h : FrameHdr) (m : MemMsg) : Statement (.cancel port h m) := holds _
theorem memrsp (port : Port) (h : FrameHdr) (m : MemMsg) : Statement (.memrsp port h m) := holds _
theorem rspTimeout (p : Part) (rank : Nat) (opseq : Nat) : Statement (.rspTimeout p rank opseq) := holds _
theorem gwbulk (port : Port) (h : FrameHdr) (ms : List MemMsg) : Statement (.gwbulk port h ms) := holds _
theorem gwFlush (rank : Nat) : Statement (.gwFlush rank) := holds _
theorem copyUnit (port : Port) (h : FrameHdr) (c : CopyMsg) : Statement (.copyUnit port h c) := holds _
theorem copyrsp (port : Port) (h : FrameHdr) (c : CopyMsg) : Statement (.copyrsp port h c) := holds _
theorem wake (port : Port) (h : FrameHdr) (w : WakeMsg) : Statement (.wake port h w) := holds _
theorem frameForward (port : Port) (f : Frame) : Statement (.frameForward port f) := holds _
theorem frameHoldExpiry (n : Nat) : Statement (.frameHoldExpiry n) := holds _
theorem nack (port : Port) (lseq : Nat) : Statement (.nack port lseq) := holds _
theorem replayTimer (port : Port) : Statement (.replayTimer port) := holds _
theorem portBringupStep (port : Port) (peer : PeerInfo) : Statement (.portBringupStep port peer) := holds _
theorem laneCalibration (port : Port) (lane : Fin 17) : Statement (.laneCalibration port lane) := holds _
theorem lockLoss (port : Port) (lane : Fin 17) : Statement (.lockLoss port lane) := holds _
theorem holdExit (port : Port) : Statement (.holdExit port) := holds _
theorem prefetchStart (p : Part) (n : Nat) : Statement (.prefetchStart p n) := holds _
theorem prefetchArrival (p : Part) (n : Nat) : Statement (.prefetchArrival p n) := holds _
theorem surrTallyIncrement (n : Fin 16384) (inc : Half) : Statement (.surrTallyIncrement n inc) := holds _
theorem tallyWait (n : Fin 16384) : Statement (.tallyWait n) := holds _
theorem genStep (n : Fin 16) : Statement (.genStep n) := holds _
theorem acquire (e : Fin 32) : Statement (.acquire e) := holds _
theorem readerRelease (e : Fin 32) (bayB : Bool) : Statement (.readerRelease e bayB) := holds _
theorem alloc : Statement (.alloc) := holds _
theorem openPage (n : Nat) : Statement (.openPage n) := holds _
theorem cowCopyDone (n : Nat) : Statement (.cowCopyDone n) := holds _
theorem retain (n : Nat) : Statement (.retain n) := holds _
theorem release (n : Nat) : Statement (.release n) := holds _
theorem sealAccept (n : Nat) : Statement (.sealAccept n) := holds _
theorem drainUnit : Statement (.drainUnit) := holds _
theorem replayEntry : Statement (.replayEntry) := holds _
theorem writeBack (line : Nat) : Statement (.writeBack line) := holds _
theorem sageScrub (bank : Fin 64) : Statement (.sageScrub bank) := holds _
theorem quiesce : Statement (.quiesce) := holds _
theorem quiesceTimeout : Statement (.quiesceTimeout) := holds _
theorem idleEntry : Statement (.idleEntry) := holds _
theorem idleExit : Statement (.idleExit) := holds _
theorem powerExit : Statement (.powerExit) := holds _
theorem wakeN (low : Bool) (cycles : Nat) : Statement (.wakeN low cycles) := holds _
theorem pwrGoodRise (straps : Fin 4) : Statement (.pwrGoodRise straps) := holds _
theorem pwrGoodFall : Statement (.pwrGoodFall) := holds _
theorem refclkStop : Statement (.refclkStop) := holds _
theorem resetFinished : Statement (.resetFinished) := holds _
theorem svcRead (f : SvcFrame) : Statement (.svcRead f) := holds _
theorem svcWrite (f : SvcFrame) (data : List Half) : Statement (.svcWrite f data) := holds _
theorem svcFrameError (e : SvcError) : Statement (.svcFrameError e) := holds _
theorem svcWake (i2c : Bool) : Statement (.svcWake i2c) := holds _
theorem i2cWrite (off : Nat) (v : Word) : Statement (.i2cWrite off v) := holds _
theorem i2cRead (off : Nat) : Statement (.i2cRead off) := holds _
theorem i2cBusError : Statement (.i2cBusError) := holds _
theorem alert (n : Fin 10) : Statement (.alert n) := holds _
theorem alertPulseEnd : Statement (.alertPulseEnd) := holds _
theorem alertHoldoffEnd : Statement (.alertHoldoffEnd) := holds _
theorem alertRetry : Statement (.alertRetry) := holds _
theorem lineStuck : Statement (.lineStuck) := holds _
theorem lineOk : Statement (.lineOk) := holds _
theorem grpAlertN (low : Bool) : Statement (.grpAlertN low) := holds _
theorem flit (port : Port) (f : Flit) : Statement (.flit port f) := holds _
theorem chervilSlot (n : Fin 256) : Statement (.chervilSlot n) := holds _
theorem laserLow (port : Port) (low : Bool) : Statement (.laserLow port low) := holds _
theorem refclkStart : Statement (.refclkStart) := holds _
theorem arbitrationLost (nack : Bool) (address : Bool) (winner : Nat) : Statement (.arbitrationLost nack address winner) := holds _
theorem svcAddressWord (f : SvcFrame) : Statement (.svcAddressWord f) := holds _

end Sys2Proof.Laws.WordsFit
end

