-- ==== Sys2Proof/Tests/Slice0.lean ====
section
/-! SUPPORT. Tests: what WellFormed refuses, values that the spec works out, and for every statement with hypotheses a state and operands that meet them. Expected values come from the spec, or are worked out by hand from it. -/

namespace Sys2Proof.Tests

open Sys2Proof.Machine

set_option Elab.async false

/-! ### Small states and operands -/

/-- An image with its handler at word 5 and CALL entry 3 at word 4. -/
def img : Image := { id := 7, version := 1, words := [], entries := [0, 0, 5, 4], micros := [], codeOff := 1, codeEnd := 100, second := [] }

/-- A partition whose program stands at word 10. -/
def prog : PartSt := { image := some img, seq := .run, pc := 10 }

/-- The block after reset with every pad group released. -/
def base : State := { State.reset with pwr := { State.reset.pwr with padHold := 0 } }

/-- The block with one partition. -/
def on (x : PartSt) : State := { base with part := [(0, x)] }

def fR (ra rb : Fin 32) (imm : Half) : FmtR := { pred := 0, pneg := false, rd := 1, ra := ra, rb := rb, imm := imm }

def fT : FmtT := { pred := 0, pneg := false, dst := 0, sa := 1, sb := 2, sc := 3, resume := false, step := false, slot := 0, ten := false, tally := 0 }

def cmd : CmdHdr := { cid := 1, epv := false, fence := false, epoch := 0 }

/-- A frame header for a block at coordinate 0, tag 9, HCRC sealed. -/
def hdr (typ : Nat) : FrameHdr := sealHdr { destCoord := 0, destRank := 0, srcRank := 1, tag := 9, gen := 0, part := 0, typ := typ, vc := 0, route := 0, raxis := 0, rdir := 0
                                            daxis := 0, ddir := 0, accum := false, ebound := false, hops := 0, len := 0, epoch := 0, hcrc := 0 }

def tarraMsg (kind : Nat) : Tarra := sealTarra { kind := kind, rank := 0, inc := 0, epoch := 5, cause := 0, count := 0, origin := 1, data := 0, attempt := 0, crc := 0 }

def unit0 : Squeezed := { crc := 0, width := 0, runmask := 0, bytes := [] }

def contrib0 : Contrib := { epoch := 5, stripe := 0, slot := 0, row := 0, kind := 1, mask := 1, bypass := 0, seq := [(0, 1)], origin := 1, narrow := false, guard := false, attempt := 0, unit := unit0 }

def entry0 : NoticeEntry := { stripe := 0, slot := 0, row := 0, column := 0, seq := 1, past := false, suspect := false, noImage := false, rsvd := 0 }

def notice0 : NoticeFrame := { epoch := 5, crc := 0, typ := 0, count := 1, attempt := 0, sub := 0, rsvd := 0, entries := [entry0] }

def chain0 : ChainMsg := { epoch := 5, stripe := 0, slot := 0, tkind := 0, index := 0, half := false, sources := 0, attempt := 0, count := [], origin := 1, unit := unit0 }

def chunk0 : ChunkMsg := { epoch := 5, seq := 0, span := 0, piece := 0, pieces := 1, kind := 0, mode := false, op := 0, axes := 1, part := 0, format := 0, crc := 0, bytes := 0
                           stage := 0, origin := 1, payload := [] }

def mem0 : MemMsg := { op := 0, spart := 0, opseq := 1, coef := 0, addr := 0, size := 8, rstat := 0, data := [] }

def copy0 : CopyMsg := { copyId := 1, unit := 0, units := 1, daddr := 0, tally := 0, arrive := false, bytes := 0, rstat := 0, crc := 0, payload := [] }

def flit0 : Flit := { lseq := 0, ack := 0, vc := 0, sof := true, eof := true, lkind := 0, fixes := [], uncorrectable := false, lanes := 0 }

def peer0 : PeerInfo := { identity := 5, inc := 1, rank := 1, coord := 1, port := 1 }

def expo (entries size : Nat) : ExportBody := { wide := true, stream := false, pages := false, entries := entries, mapAddr := 0, area := 0xC000000000000000, areaSize := size, copyBase := 0, copyMib := 0 }

/-! ### What WellFormed refuses: one command per check -/

theorem test_wf_cid : (Instr.nop 0 0 { cmd with cid := 65536 }).wf = false ∧ (Instr.nop 0 0 cmd).wf = true := by decide +kernel
theorem test_wf_epoch_without_epv : (Instr.nop 0 0 { cmd with epoch := 1 }).wf = false ∧ (Instr.nop 0 0 { cmd with epv := true, epoch := 2 ^ 32 }).wf = false := by decide +kernel
theorem test_wf_call_entry : (Instr.call 0 0 cmd 64 ⟨0, 0, 0, 0, 0, 0⟩).wf = false := by decide +kernel
theorem test_wf_bind_tag : (Instr.bind 0 0 cmd 65536).wf = false := by decide +kernel
theorem test_wf_admit_epoch : (Instr.admitJob 0 0 cmd false (2 ^ 32) 0).wf = false := by decide +kernel
theorem test_wf_doorbells : (Instr.sqDoorbell 0 0 65536).wf = false ∧ (Instr.cqHeadDoorbell 0 0 65536).wf = false := by decide +kernel
theorem test_wf_page : (Instr.pageRead Config.maxPages).wf = false ∧ (Instr.openPage Config.maxPages).wf = false ∧ (Instr.cowCopyDone Config.maxPages).wf = false ∧
    (Instr.retain Config.maxPages).wf = false ∧ (Instr.release Config.maxPages).wf = false ∧ (Instr.sealAccept Config.maxPages).wf = false := by decide +kernel
theorem test_wf_register_offset : (Instr.rcRead ⟨2 ^ 24, .full⟩).wf = false ∧ (Instr.registerWrite (2 ^ 24) .full 0).wf = false ∧ (Instr.i2cRead (2 ^ 24)).wf = false ∧
    (Instr.i2cWrite (2 ^ 24) 0).wf = false := by decide +kernel
theorem test_wf_header : (Instr.train 0 { hdr 1 with hops := 64 } contrib0).wf = false ∧ (Instr.train 0 { hdr 1 with destRank := 2 ^ 17 } contrib0).wf = false ∧
    (Instr.train 0 (hdr 1) contrib0).wf = true := by decide +kernel
theorem test_wf_contribution : (Instr.contrib 0 (hdr 2) { contrib0 with seq := [(0, 128)] }).wf = false ∧ (Instr.contrib 0 (hdr 2) { contrib0 with mask := 65536 }).wf = false := by decide +kernel
theorem test_wf_unit : (Instr.train 0 (hdr 1) { contrib0 with unit := { unit0 with bytes := [(4096, 1)] } }).wf = false ∧
    (Instr.train 0 (hdr 1) { contrib0 with unit := { unit0 with bytes := [(3, 0)] } }).wf = false ∧
    (Instr.train 0 (hdr 1) { contrib0 with unit := { unit0 with bytes := [(3, 1), (3, 2)] } }).wf = false := by decide +kernel
theorem test_wf_notice : (Instr.notice 0 (hdr 3) { notice0 with count := 64 }).wf = false ∧ (Instr.plan 0 (hdr 3) { notice0 with entries := [{ entry0 with seq := 128 }] }).wf = false := by decide +kernel
theorem test_wf_stripe : (Instr.trainWindowExpiry 0 (2 ^ 40) 0).wf = false ∧ (Instr.relayTrain 0 (2 ^ 40) 0).wf = false ∧ (Instr.noticeTimerExpiry 0 (2 ^ 40) 0 0).wf = false := by decide +kernel
theorem test_wf_rank : (Instr.noticeBatchTimer (2 ^ 17)).wf = false ∧ (Instr.gwFlush (2 ^ 17)).wf = false ∧ (Instr.reportResend (2 ^ 17) 0).wf = false ∧
    (Instr.mergeKeyExpiry 0 (2 ^ 32)).wf = false ∧ (Instr.probeTimeout 0 (2 ^ 32)).wf = false ∧ (Instr.rspTimeout 0 0 65536).wf = false := by decide +kernel
theorem test_wf_surroundings : (Instr.codedStoreWrite 0 []).wf = false ∧ (Instr.experienceTapWrite 0 (List.replicate 4097 0)).wf = false := by decide +kernel
theorem test_wf_chain : (Instr.chain 0 (hdr 4) { chain0 with sources := 2 ^ 20 }).wf = false ∧ (Instr.auditFrame 0 (hdr 5) { chain0 with index := 16 }).wf = false := by decide +kernel
theorem test_wf_chunk : (Instr.chunk 0 (hdr 6) { chunk0 with span := 2 ^ 40 }).wf = false ∧ (Instr.collTimerExpiry 0 0 (2 ^ 32)).wf = false := by decide +kernel
theorem test_wf_tarragon : (Instr.report 0 (hdr 7) { tarraMsg 0 with count := 65536 }).wf = false ∧ (Instr.vote 0 (hdr 7) { tarraMsg 5 with data := 2 ^ 64 }).wf = false := by decide +kernel
theorem test_wf_admission_record : (Instr.admitRecord 0 (hdr 7) (tarraMsg 20) (.gens [])).wf = false ∧ (Instr.admitRecord 0 (hdr 7) (tarraMsg 20) (.directory 0 0 0 21 0)).wf = false ∧
    (Instr.admitRecord 0 (hdr 7) (tarraMsg 20) (.geometry 0 0 (2 ^ 32))).wf = false ∧ (Instr.admitRecord 0 (hdr 7) (tarraMsg 20) (.replica Config.regions 0)).wf = false := by decide +kernel
theorem test_wf_beat : (Instr.heartbeat 0 (hdr 8) { identity := 0, inc := 2 ^ 32, rank := 0, quiet := false, digest := 0, epoch := 0, crc := 0 }).wf = false := by decide +kernel
theorem test_wf_memory : (Instr.memreq 0 (hdr 9) { mem0 with size := 4097 }).wf = false ∧ (Instr.gwbulk 0 (hdr 13) [{ mem0 with op := 16 }]).wf = false := by decide +kernel
theorem test_wf_copy : (Instr.copyUnit 0 (hdr 11) { copy0 with bytes := 4097 }).wf = false ∧ (Instr.copyrsp 0 (hdr 12) { copy0 with rstat := 8 }).wf = false := by decide +kernel
theorem test_wf_wake : (Instr.wake 0 (hdr 14) { identity := 0, rank := 2 ^ 17, crc := 0 }).wf = false := by decide +kernel
theorem test_wf_forward : (Instr.frameForward 0 ⟨hdr 10, .mem { mem0 with opseq := 65536 }⟩).wf = false := by decide +kernel
theorem test_wf_link : (Instr.flit 0 { flit0 with lseq := 4096 }).wf = false ∧ (Instr.nack 0 4096).wf = false ∧ (Instr.portBringupStep 0 { peer0 with rank := 2 ^ 17 }).wf = false := by decide +kernel
theorem test_wf_prefetch : (Instr.prefetchStart 0 4096).wf = false ∧ (Instr.prefetchArrival 0 4096).wf = false := by decide +kernel
theorem test_wf_line : (Instr.writeBack Config.sramLines).wf = false := by decide +kernel
theorem test_wf_service : (Instr.svcRead { size64 := true, count := 0, offset := 2 ^ 24 }).wf = false ∧ (Instr.svcWrite { size64 := true, count := 0, offset := 0 } [1]).wf = false ∧
    (Instr.svcAddressWord { size64 := false, count := 0, offset := 2 ^ 24 }).wf = false := by decide +kernel
theorem test_wf_winner : (Instr.arbitrationLost false true 128).wf = false := by decide +kernel
theorem test_wf_export : (Instr.exportCut 0 0 cmd (expo 1 (2 ^ 32))).wf = false := by decide +kernel
theorem test_wf_restore : (Instr.restore 0 0 cmd { verify := false, entries := 2 ^ 32, mapAddr := 0, manifest := 0 }).wf = false := by decide +kernel

/-! ### Values that the spec works out -/

/-- spec/02, the example under Table 2.3: the images of 0x3F9D_F3B6. -/
theorem test_narrow_images : narrow16 0x3F9DF3B6 = 0x3F9E ∧ narrow24 0x3F9DF3B6 = 0x3F9DF4 ∧ widen16 0x3F9E = 0x3F9E0000 ∧ widen24 0x3F9DF4 = 0x3F9DF400 := by decide +kernel
/-- spec/03 Table 3.2. -/
theorem test_coefficients : coef 0 7 = 1 ∧ coef 1 0 = 0xA6 ∧ coef 1 4 = 0x9C ∧ coef 2 8 = 0xBB ∧ coef 3 15 = 0x74 ∧ gfMul 0xA6 0x05 = 0x04 := by decide +kernel
/-- spec/03, the worked 8+2 stripe: the parity bytes and the delta of member 8. -/
theorem test_worked_stripe :
    (([0x3F, 0x9D, 0x01, 0xB6, 0x00, 0x80, 0x41, 0x02] : List Byte).zipIdx.map fun x => gfMul (coef 0 x.2) x.1).foldl (· ^^^ ·) 0 = 0xD6 ∧
    (([0x3F, 0x9D, 0x01, 0xB6, 0x00, 0x80, 0x41, 0x02] : List Byte).zipIdx.map fun x => gfMul (coef 1 x.2) x.1).foldl (· ^^^ ·) 0 = 0xD0 ∧
    0xD0 ^^^ gfMul (coef 1 3) 0x02 = 0x26 := by decide +kernel
/-- spec/07, the examples of the decode of member 8 and of the audit correction. -/
theorem test_worked_decode : gfMul (gfInv 0x7B) (0x26 ^^^ 0xA4) = 0xB4 ∧ gfMul 0x10 (coef 1 4) = 0x35 := by decide +kernel
/-- spec/03, the first cycle of member 4 of an 8+2 group and its unit 11. -/
theorem test_placement : (List.range 8).map (dataPlace { k := 8, m := 2 } 4) = [(0, 2), (1, 1), (2, 0), (5, 7), (6, 6), (7, 5), (8, 4), (9, 3)] ∧
    dataPlace { k := 8, m := 2 } 4 11 = (15, 7) ∧ rowMember { k := 8, m := 2 } 3 1 = 4 ∧ rowMember { k := 8, m := 2 } 4 0 = 4 ∧ colMember { k := 8, m := 2 } 3 4 = 9 := by decide +kernel
/-- spec/03 R77 and spec/08 R223: the checks of "123456789". -/
theorem test_check_values : crc32c [0x31, 0x32, 0x33, 0x34, 0x35, 0x36, 0x37, 0x38, 0x39] = 0xE3069283 ∧
    crc16 [0x31, 0x32, 0x33, 0x34, 0x35, 0x36, 0x37, 0x38, 0x39] = 0x29B1 := by decide +kernel
/-- spec/04, the delta of a NARROW24 moment. -/
theorem test_narrow_delta : narrow24 0x3F9DF3B6 ^^^ narrow24 0x3F9DF120 = 0x000005 := by decide +kernel
/-- spec/05, the Lion step on one element. -/
theorem test_lion : lionStep [0x3F000000, 0x3F400000, 0x3E800000, 0x3F600000, 0x3E000000, 0, 0x3A800000, 0x3C000000] 0x3F800000 0xBE800000 0x40000000 =
    ([0x3F7DC000, 0xBDC00000], 0) := by decide +kernel
/-- spec/06, the sub-block of a Marjoram gradient. -/
theorem test_sub_block : encodeSub ([0x3F800000, 0x3F000000, 0xBE800000, 0x40400000, 0, 0x3F400000, 0xBFC00000, 0x40000000].map fun b => (let (v, q) := valOf 23 b; (v * 2 ^ (q + 149).toNat, 0))) =
    [0xFE, 0x2F, 0x00, 0x44, 0x7C, 0x06, 0x86, 0x46] := by decide +kernel
/-- spec/06, the exact sum of 2^24, 1.0 and 1.0. -/
theorem test_exact_sum : epsRound 23 ((2 ^ 24 + 1 + 1) * 2 ^ 149, 0) = 0x4B800001 := by decide +kernel
/-- spec/08, the coordinates of rank 1234 in Marjoram's torus. -/
theorem test_coordinates : coordOfRank { State.reset with fab := { State.reset.fab with torus := 0x070F0F0B } } 1234 = some (coordOf 10 6 6 0) := by decide +kernel
/-- spec/10, the encodings of CEQI p1, g2, 0x04 and @!p2 BR −6. -/
theorem test_instruction_words : wCls 0x1980044000000004 = 1 ∧ wOp 0x1980044000000004 = 0x98 ∧ (fmtROf 0x1980044000000004).rd.val % 8 = 1 ∧ (fmtROf 0x1980044000000004).ra = 2 ∧
    (fmtROf 0x1980044000000004).imm = 4 ∧ wCls 0x00128000FFFFFFFA = 0 ∧ wOp 0x00128000FFFFFFFA = 1 ∧ (fmtROf 0x00128000FFFFFFFA).pred = 2 ∧
    (fmtROf 0x00128000FFFFFFFA).pneg = true ∧ (fmtROf 0x00128000FFFFFFFA).imm.toInt = -6 := by decide +kernel
/-- spec/11, the E2M1 block: 17 bytes 80 17 0B 63 and zeros, and back. -/
theorem test_mx_block : ∀ x, mxOf 0x14 = some x →
    mxPack x (mxBlock 0x14 x ([0x41480000, 0x3F800000, 0xC0400000, 0x3E99999A, 0x40266666, 0x40E00000] ++ List.replicate 26 0)) = [0x80, 0x17, 0x0B, 0x63] ++ List.replicate 13 0 ∧
    [0x7, 0x1, 0xB, 0x0, 0x3, 0x6].map (mxWiden 0x14 x 0x80) = [0x41400000, 0x3F800000, 0xC0400000, 0, 0x40400000, 0x41000000] := by
  intro x h
  have e : x = ⟨2, 1, 1, 2, 17, 4⟩ := by simpa [mxOf, eq_comm] using h
  subst e
  decide +kernel
/-- spec/15, the byte 0xA5: its check bits, and the correction of 0xA1. -/
theorem test_ecc : checkBits 0xA5 = 0b00011 ∧ eccDecide 0xA1 0b00011 = .fixed 0xA5 := by decide +kernel
/-- spec/18, the decoding of control-window offsets. -/
theorem test_offsets : regAt 0x450118 = some (.pprogress 5) ∧ regAt 0x450478 = some (.ptimer 5 7 1) ∧ regAt 0x803E88 = some (.tally 1000 1) ∧ regAt 0x0C0180 = none := by decide +kernel

/-! ### Single steps -/

/-- An empty queue lets 40 ns of TKJ_TIME pass (log 1). -/
theorem test_idle_step : ∃ t, step State.reset = .next t ∧ t.clk.time = State.reset.clk.time + 40 := ⟨_, rfl, by decide +kernel⟩
/-- ADD wraps at 2^64, with the destination also a source (spec/10 Table 10.3). -/
theorem test_add_wraps : ∃ t, exec (.add 0 { fR 1 3 0 with rd := 1 } false) (on { prog with g := [(1, 0xFFFFFFFFFFFFFFFF), (3, 2)] }) = .next t ∧
    gReg (partOf t 0) 1 = 1 ∧ (partOf t 0).pc = 11 := ⟨_, rfl, by decide +kernel⟩
/-- A negative branch offset wraps below word 0 (spec/09 R256). -/
theorem test_branch_back : ∃ t, exec (.br 0 (fR 0 0 0xFFFFFFFA)) (on prog) = .next t ∧ (partOf t 0).pc = 4 := ⟨_, rfl, by decide +kernel⟩
/-- A store lands little-endian at its address and nowhere beside (spec/10 Table 10.2). -/
theorem test_store_bytes : ∃ t, exec (.stg 0 (fR 2 3 8)) (on { prog with g := [(2, 0x4000000000000000), (3, 0x0102030405060708)] }) = .next t ∧
    (List.range 10).map (fun k => uget t.mem (2 ^ 62 + 7 + k)) = [0, 8, 7, 6, 5, 4, 3, 2, 1, 0] := ⟨_, rfl, by decide +kernel⟩
/-- A tally increment wraps at 2^32 (spec/09 R269). -/
theorem test_tally_wraps : ∃ t, exec (.tinc 0 (fR 0 3 5)) { on { prog with g := [(3, 2)] } with tally := [(5, { count := 0xFFFFFFFF })] } = .next t ∧ (tallyOf t 5).count = 1 := ⟨_, rfl, by decide +kernel⟩

/-! ### For every statement, a state and operands that meet its hypotheses -/

/-- A register file with one register set. -/
def withG (x : PartSt) (n : Nat) (v : Word) : PartSt := { x with g := [(n, v)] }

/-- An address of T1. -/
def t1 : Word := 0x4000000000000000
/-- An address of T2. -/
def t2 : Word := 0x8000000000000000

theorem witness_StepRunsFrontCommand : ({ base with pending := [.clearLost, .snap] } : State).pending = .clearLost :: [.snap] := by decide +kernel
theorem witness_EmptyQueueLetsTimePass :
    (base.pending = [] ∧ vigilUp base = true ∧ base.pwr.entering = none ∧ (base.port.all fun x => x.2.cal.isNone) = true ∧ base.side.queue = [] ∧ base.tar.issuer.tied = []) ∧
    ({ base with clk := { base.clk with refclk := false } } : State).pending = [] ∧ vigilUp { base with clk := { base.clk with refclk := false } } = false ∧
    (let s : State := { base with exp := { base.exp with restoring := some { cur := { p := 0, q := 1, cid := 7, sqHead := 1, instr := false }, verify := true, recs := [], left := [⟨0, 0, 0, 8⟩], regions := [0] } } };
      s.pending = [] ∧ vigilUp s = true ∧ s.exp.restoring ≠ none ∧ coreUp s = true) := by decide +kernel
theorem witness_CommandEntryRoundTrip : cmd.cid < 2 ^ 16 ∧ cmd.epoch < 2 ^ 32 ∧ (2 ^ 8 - 1 < 2 ^ 8 ∧ 2 ^ 16 - 1 < 2 ^ 16) ∧ (expo 1 4096).entries < 2 ^ 32 ∧ (expo 1 4096).areaSize < 2 ^ 64 ∧ (expo 1 4096).copyMib < 2 ^ 16 := by
  decide +kernel
theorem witness_ScalarArithmeticResults : insnReady (on prog) 0 (fR 2 3 5).pred (fR 2 3 5).pneg = true := by decide +kernel
theorem witness_ScalarCompareAndPredicates : insnReady (on prog) 15 0 false = false ∧ insnReady (on prog) 0 7 true = true := by decide +kernel
theorem witness_ScalarMoveResults : insnReady (on prog) 0 (fR 0 0 0).pred false = true ∧ (fR 0 0 0).imm.toNat % 32 = 0 ∧ (fR 0 0 11).imm.toNat % 32 = 11 ∧ 12 ≤ (fR 0 0 12).imm.toNat % 32 := by decide +kernel
theorem witness_ControlTransferAndSpecials : insnReady (on { prog with pc := 99 }) 0 0 false = true ∧ (fR 0 0 1).imm.toNat % 32 = 1 ∧ (fR 0 0 2).imm.toNat % 32 = 2 ∧ (fR 0 0 3).imm.toNat % 32 = 3 ∧ (fR 0 0 4).imm.toNat % 32 = 4 ∧
    (let n := (fR 0 0 5).imm.toNat % 32; n ≠ 1 ∧ n ≠ 2 ∧ n ≠ 3 ∧ n ≠ 4) := by decide +kernel

/-- A command under way. -/
def cur0 : CurCmd := { p := 0, q := 1, cid := 7, sqHead := 1, instr := false }

theorem witness_DoneAndReturnFromHandler :
    (let s := on prog; insnReady s 0 0 false = true ∧ (partOf s 0).flushing = false ∧ (partOf s 0).resetting = false ∧ s.job.teardown = none ∧ (partOf s 0).cur = none ∧ (partOf s 0).susp = none) ∧
    (let s := on { prog with cur := some cur0 }; insnReady s 0 0 false = true ∧ (partOf s 0).cur = some cur0) := by decide +kernel

theorem witness_ScalarLoads :
    (let s := on (withG prog 2 t1); Memory.wf s.mem = true ∧ insnReady s 0 0 false = true ∧ noCodedWork s = true ∧
      t1.toNat % 8 = 0 ∧ inWindow s 0 t1.toNat 8 = true ∧ cleanRead s t1.toNat 8 = true ∧ inWindow s 0 t1.toNat 48 = true ∧ cleanRead s t1.toNat 48 = true) ∧
    (let s := { on (withG prog 2 t1) with poison := [t1.toNat] }; Memory.wf s.mem = true ∧ insnReady s 0 0 false = true ∧ noCodedWork s = true ∧
      inWindow s 0 t1.toNat 8 = true ∧ tierOf t1.toNat = 1 ∧ tapFree s = true ∧ (s.poison.any fun l => decide (l < t1.toNat + 8 ∧ t1.toNat < l + 64)) = true) := by decide +kernel

/-- A region of class coded at the base of T1, owned by partition 0, in group 0. -/
def coded0 : Region := { tier := 1, base := 2 ^ 62, units := 8, owner := 0, cls := 1, format := 0, valid := true }

/-- The block in training epoch 5, phase 2, with group 0 enabled. -/
def training : State :=
  { on { prog with bound := true, tag := 9 } with
      reg := { base.reg with table := [(0, coded0)] }
      grp := [(0, { en := true, mode := 1, self := 0, k := 8, m := 2, rank0 := 0, dataUnits := 8, live := 0x3FF })]
      ep := { base.ep with epoch := 5, phase := 1 }
      job := { base.job with tag := 9, stepPart := some 0, members := [0, 1, 2, 3, 4, 5, 6, 7, 8, 9] } }

/-- The same, with the inputs closed: writes to its coded region wait. -/
def closedIn : State := { training with ep := { training.ep with closed := true } }


theorem witness_ScalarStores :
    (let s := on (withG prog 2 t1); Memory.wf s.mem = true ∧ insnReady s 0 0 false = true ∧ storeTaken s 0 t1.toNat 8 = true ∧ plainWrite s t1.toNat 8 = true ∧
      noCodedWork s = true ∧ writeBlocked t1.toNat 8 s = false ∧ storeTaken s 0 t1.toNat 48 = true ∧ plainWrite s t1.toNat 48 = true) ∧
    (let s := { closedIn with part := [(0, { withG prog 2 t1 with bound := true, tag := 9 })] }; Memory.wf s.mem = true ∧ insnReady s 0 0 false = true ∧
      storeTaken s 0 t1.toNat 8 = true ∧ writeBlocked t1.toNat 8 s = true ∧ storeTaken s 0 t1.toNat 48 = true ∧ writeBlocked t1.toNat 48 s = true) := by decide +kernel
theorem witness_ScalarAccessRefused :
    (let s := on (withG prog 2 (t1 + 4)); insnReady s 0 0 false = true ∧ noCodedWork s = true ∧ (t1 + 4).toNat % 8 ≠ 0) ∧
    (let s := on { withG prog 2 t2 with bound := true }; insnReady s 0 0 false = true ∧ noCodedWork s = true ∧ anyBound s = true ∧ 2 ≤ tierOf t2.toNat) := by decide +kernel
theorem witness_FalsePredicateHasNoEffect : atCode (on prog) 0 = true ∧ noCodedWork (on prog) = true ∧ pReg (partOf (on prog) 0) 3 = false ∧ pReg (partOf (on prog) 0) 0 = true := by decide +kernel

/-- A state whose tally 5 belongs to partition 1. -/
def others (s : State) : State := { s with tally := [(5, { owned := true, owner := 1 })] }

theorem witness_TallyInstructions :
    (insnReady (on prog) 0 0 false = true ∧ (tallyOf (on prog) 5).owned = false) ∧
    (let s := others (on prog); insnReady s 0 0 false = true ∧ (tallyOf s 5).owned = true ∧ (tallyOf s 5).owner ≠ 0) ∧ ((on prog).part.all fun y => y.2.wait.isNone) = true := by decide +kernel
/-- Each wait that holds and each that stands: a tally reached and short of its target, a slot free and busy, an event pending, an epoch passed and to come. -/
theorem witness_WaitInstructions :
    (let s := on prog; insnReady s 0 0 false = true ∧ ((tallyOf s 5).count - (tallyOf s 5).target).toNat < 2 ^ 31 ∧ (slotOf (partOf s 0) 3).busy = false ∧ (slotOf (partOf s 0) 3).status ≠ stCheckFail ∧
      s.ep.limit = false ∧ s.mode.chervil = false ∧ cmdReady (partOf s 0) = false) ∧
    (let s := { on { prog with slots := [(3, { busy := true })], epend := 4, emask := 4 } with tally := [(5, { target := 1 })], ep := { base.ep with epoch := 7, phase := 2 } };
      insnReady s 0 0 false = true ∧ ¬((tallyOf s 5).count - (tallyOf s 5).target).toNat < 2 ^ 31 ∧ (slotOf (partOf s 0) 3).busy = true ∧ slotsBusy (partOf s 0) = true ∧
      (partOf s 0).epend &&& 4 ≠ 0 ∧ (partOf s 0).epend &&& (partOf s 0).emask ≠ 0 ∧ s.ep.epoch = 7 ∧ (2 : Nat) ≤ s.ep.phase) := by decide +kernel
theorem witness_TimerAndEdgeInstructions : insnReady (on { prog with timer := [(63, { expired := true, missed := 4095 })], edge := [(31, { latched := true, count := 65535 })] }) 0 0 false = true := by decide +kernel
theorem witness_TimerExpiry :
    (let s := on { prog with timer := [(63, { en := true, periodic := true, evt := true, expired := false, period := 40, deadline := 100 })] };
      vigilUp s = true ∧ s.clk.pwrGood = true ∧ (timerOf (partOf s 0) 63).en = true ∧ (timerOf (partOf s 0) 63).evt = true ∧ ((timerOf (partOf s 0) 63).periodic && (timerOf (partOf s 0) 63).expired) = false) ∧
    (timerOf (partOf (on prog) 0) 0).en = false := by decide +kernel
theorem witness_EventTaken :
    (let s := on { prog with eie := true, epend := 4, emask := 6 }; coreUp s = true ∧ canTake (partOf s 0) = true ∧ (partOf s 0).image = some img) ∧
    (let s := on prog; coreUp s = true ∧ (partOf s 0).eie = false) := by decide +kernel
/-- A partition with an event to take. -/
def alarmed : PartSt := { prog with eie := true, epend := 4, emask := 6 }
def fillAt1 : Long := { cls := 2, op := 2, f := fT, x2 := 0, key := 0, total := 2, count := 1, extent := 2, step := false, unstarted := false }
theorem witness_EventTaken_places :
    (alarmed.inH = false ∧ alarmed.epend &&& alarmed.emask ≠ 0 ∧ isInstr alarmed = false ∧ alarmed.wait ≠ some .remote ∧ hasHandler alarmed = true ∧ alarmed.long = none ∧ alarmed.seq = .run ∧
      entryOf img 2 = some 5) ∧
    (let x := { alarmed with seq := .dispatch }; hasHandler x = true ∧ isInstr x = false ∧ x.seq = .dispatch) ∧
    (let x := { alarmed with wait := some (.tally 5), seq := .wait }; x.wait ≠ some .remote ∧ x.seq = .wait ∧ canTake x = true) ∧
    (let x := { alarmed with long := some fillAt1, seq := .long }; x.long = some fillAt1 ∧ 0 < fillAt1.count ∧ fillAt1.stop = 0 ∧ x.seq = .long ∧ canTake x = true) := by decide +kernel

/-- A bound partition that is the step partition of an open epoch. -/
def stepOn : State := { on { prog with bound := true, tag := 9 } with job := { base.job with tag := 9, stepPart := some 0 }, ep := { base.ep with epoch := 5, phase := 5 } }

theorem witness_VoteAndUpdateEnd : (insnReady stepOn 0 0 false = true ∧ isStepPart stepOn 0 = true ∧ stepOn.ep.phase ≠ 0) ∧ insnReady (on prog) 0 0 false = true ∧ isStepPart (on prog) 0 = false := by decide +kernel

/-- A TENSOR FILL under way, of two elements, with a granule to come after the one that ends. -/
def fill0 : Long := { cls := 2, op := 2, f := { fT with dst := 0 }, x2 := 0, key := 0, total := 2, count := 0, extent := 2, step := false, unstarted := false }
def filling : State := on { prog with long := some fill0, seq := .long, d := [(0, { w0 := t1, w1 := 1, w2 := BitVec.ofNat 64 (2 + 2 ^ 32) })] }

theorem witness_GranuleEndKeepsProgress :
    (coreUp filling = true ∧ (partOf filling 0).long = some fill0 ∧ fill0.unstarted = false ∧ (partOf filling 0).seq = .long ∧ fill0.count + 1 < fill0.total ∧
      (partOf (recordStep 0 fill0 filling) 0).long = some fill0 ∧
      (match granule 0 fill0 (recordStep 0 fill0 filling) with
        | .go t => (match (partOf t 0).long with
          | some m => m.stop == 0
          | none => false)
        | _ => false) = true) ∧
    (coreUp (on prog) = true ∧ (partOf (on prog) 0).long = none) ∧
    (partOf (on { prog with long := some { fill0 with unstarted := true } }) 0).long = some { fill0 with unstarted := true } := by decide +kernel

/-- A dense tensor of one dimension. -/
def vecD (a : Word) (fmt n : Nat) : Desc := { w0 := a, w1 := BitVec.ofNat 64 fmt, w2 := BitVec.ofNat 64 (n + 2 ^ 32) }

/-- The same, with a mask in descriptor m. -/
def maskD (d : Desc) (m : Nat) : Desc := { d with w1 := BitVec.ofNat 64 (d.w1.toNat + m * 2 ^ 57 + 2 ^ 63) }

/-- An image with a microprogram of two inputs and one output. -/
def imgM : Image := { img with words := [0x1200, 0], micros := [0] }

/-- A bound partition of the step, with tensors of 32 elements: 0 to 3 and 7 F32, 4 BF16, 5 and 8 masked by 6, 9 I32, 10 page numbers, 11 and 12 in the coded region. -/
def progL : PartSt :=
  { prog with
      image := some imgM, bound := true, tag := 9
      d := [(0, vecD 0x4000000001000000 1 32), (1, vecD 0x4000000001001000 1 32), (2, vecD 0x4000000001002000 1 32), (3, vecD 0x4000000001003000 1 32),
            (4, vecD 0x4000000001004000 2 32), (5, maskD (vecD 0x4000000001005000 1 32) 6), (6, vecD 0x4000000001006000 0 4),
            (9, vecD 0x4000000001009000 4 4), (10, vecD 0x4000000001010000 1 2048), (11, vecD 0x4000000000000000 1 32), (12, vecD 0x4000000002000000 1 1024)]
      g := [(5, 0x4000000001020000), (6, 1)] }

def lab : State :=
  { on progL with
      reg := { base.reg with table := [(0, { tier := 1, base := 0, units := 8, owner := 0, cls := 1, format := 1, valid := true })] }
      grp := [(0, { en := true, mode := 0, self := 0, k := 8, m := 2, rank0 := 0, dataUnits := 8, live := 0x3FF }), (1, { en := true, mode := 1, self := 0, k := 8, m := 2, rank0 := 0, dataUnits := 8, live := 0x3FF })]
      ep := { base.ep with epoch := 5, phase := 2 }
      pub := [(0, { valid := true, kind := 0, format := 2, elems := 32, bayA := 0x4000000003000000, bayB := 0x4000000003001000, owner := 0 })]
      job := { base.job with tag := 9, stepPart := some 0, members := [0, 1, 2, 3, 4, 5, 6, 7, 8, 9] } }

def s2 : Sec2 := { vreg := 1, xfill := false, entry := 0, pop := 0 }
def s34 : Sec34 := { in3 := 3, in4 := 0, out1 := 0, out2 := 0, out3 := 0, e3 := false, e4 := false, eo1 := false, eo2 := false, eo3 := false, hreg := 5, mprog := 0, type := 0, rm := 0, lop := 0 }
def s5 : Sec5 := { gslot := 0, freg := 7, nreg := 6, pos := 0 }
def s6 : Sec6 := { in3 := 0, nin := 0, axes := 0, mode := false, uneven := false, ereg := 8, root := 0 }
def s7 : Sec7 := { rkreg := 4, adreg := 5, dreg := 2, vreg := 3, size := 8, coef := 1, arrive := false, rtally := 0 }

/-- Descriptors of a T format instruction. -/
def fD (dst sa sb sc : Fin 64) : FmtT := { fT with dst := dst, sa := sa, sb := sb, sc := sc }

/-- The ports of the block in service. -/
def portsOn : SMap PortSt := (List.range 8).map fun k => (k, { state := .up, peer := some peer0 })

/-- A state whose block stands in Marjoram's torus with its ports in service. -/
def net (s : State) : State := { s with fab := { s.fab with torus := 0x070F0F0B }, port := portsOn }

/-- The laboratory state with g4 naming rank 1, g5 an address and g2 data. -/
def far : State := net { lab with part := [(0, { progL with g := [(2, 7), (4, 1), (5, 0x4000000001020000), (6, 1), (8, 5)] })] }

/-- One set of operands for each of the long instructions under which it begins. -/
theorem witness_LongInstructionsBegin : insnReady lab 0 0 false = true ∧
    (longTaken lab 0 2 0 (fD 0 1 0 0) (sec2Word s2) = true ∧ longTaken lab 0 2 1 (fD 4 1 0 0) (sec2Word s2) = true ∧ longTaken lab 0 2 2 (fD 4 1 0 0) (sec2Word s2) = true ∧
      longTaken lab 0 2 3 (fD 0 5 0 0) (sec2Word s2) = true ∧ longTaken lab 0 2 4 (fD 5 0 0 0) (sec2Word s2) = true ∧ longTaken lab 0 2 8 (fD 0 1 0 0) (sec2Word s2) = true) ∧
    (longTaken lab 0 2 10 (fD 0 9 0 0) (sec2Word { s2 with pop := 0 }) = true ∧ longTaken lab 0 2 10 (fD 0 9 0 0) (sec2Word { s2 with pop := 1 }) = true ∧
      longTaken lab 0 2 10 (fD 0 9 0 0) (sec2Word { s2 with pop := 2 }) = true) := by decide +kernel
theorem witness_LongInstructionsBegin_lanes :
    (longTaken lab 0 3 0 (fD 0 1 2 0) (sec34Word s34) = true ∧ longTaken lab 0 3 1 (fD 0 1 2 0) (sec34Word s34) = true) ∧
    (longTaken lab 0 4 0 (fD 0 0 1 2) (sec34Word { s34 with e3 := true }) = true ∧ longTaken lab 0 4 1 (fD 0 0 1 2) (sec34Word { s34 with e3 := true }) = true ∧
      longTaken lab 0 4 2 (fD 0 0 1 2) (sec34Word { s34 with e3 := true }) = true ∧ longTaken lab 0 4 3 (fD 0 0 1 2) (sec34Word s34) = true) := by decide +kernel
theorem witness_LongInstructionsBegin_code :
    longTaken lab 0 5 0 (fD 11 0 0 0) (sec5Word s5) = true ∧ longTaken lab 0 5 1 { fD 11 0 0 0 with step := true } (sec5Word { s5 with gslot := 1 }) = true ∧
      longTaken lab 0 5 4 (fD 12 0 0 0) (sec5Word s5) = true := by decide +kernel
theorem witness_LongInstructionsRefused : insnReady lab 0 0 false = true ∧ fT.step = false ∧ (partOf lab 0).flushing = false ∧
    longCheck lab 0 2 0 (fD 0 9 0 0) (sec2Word s2) = .bad ∧ longCheck lab 0 3 0 (fD 0 4 2 0) (sec34Word { s34 with lop := 63 }) = .bad ∧
    longCheck lab 0 4 0 (fD 0 0 1 2) (sec34Word s34) = .bad ∧ longCheck lab 0 5 4 (fD 0 0 0 0) (sec5Word s5) = .bad := by decide +kernel

/-- A schedule of one entry: 1 layer, 64 bytes from T2 to T1 at layer 0 with lead 1, tally 7 (spec/11 R321). -/
def schedule : List Host.Cell :=
  [(0x4000000001100000, 1), (0x4000000001100002, 1), (0x4000000001100027, 0x80), (0x400000000110002A, 0x20), (0x400000000110002F, 0x40), (0x4000000001100030, 64),
   (0x4000000001100036, 1), (0x4000000001100038, 7)]

def arming : State := { on { prog with d := [(1, vecD 0x4000000001100000 0 64)] } with mem := schedule }

theorem witness_PrefetchArms :
    let s := arming
    let x := partOf s 0
    let d := dReg x 1
    let a := d.w0.toNat
    let u := memImg a (dCount d) s
    let h := ofBytes (denseU 32 0 u)
    insnReady s 0 0 false = true ∧ x.flushing = false ∧ descOk d false = true ∧ dFmt d = 0 ∧ dDense d = true ∧ 64 ≤ dCount d ∧ engineRefused s 0 [6] = false ∧
    inWindow s 0 (descExtent d).1 (descExtent d).2 = true ∧ x.pf.armed = false ∧ cleanRead s a (dCount d) = true ∧ unlogged s = true ∧
    bitsOf 46 2 h = 0 ∧ bitsOf 80 176 h = 0 ∧ bitsOf 0 16 h = 1 ∧ 32 + 32 * 1 ≤ dCount d ∧ bitsOf 16 16 h = 1 ∧ tallyMine s 0 (bitsOf 32 14 h) = true ∧
    ((List.range 1).map fun k => pfEntryOf (denseU 32 (32 + 32 * k) u)) = [({ src := 0x8000000000000000, dst := 0x4000000000200000, size := 64, layer := 0, lead := 1, tally := 7 }, true)] ∧
    touchesCoded s 0x4000000000200000 64 = false ∧ inWindow s 0 0x8000000000000000 64 = true ∧ inWindow s 0 0x4000000000200000 64 = true := by decide +kernel
theorem witness_PrefetchArms_armed : (partOf (on { prog with pf := { armed := true } }) 0).pf.armed = true ∧ insnReady (on { prog with pf := { armed := true } }) 0 0 false = true := by decide +kernel

theorem witness_OpenInstructionsAccepted :
    (let s := far; insnReady s 0 0 false = true ∧ (partOf s 0).flushing = false ∧ (slotOf (partOf s 0) 0).busy = false ∧ (partOf s 0).bound = true ∧ (grpOf s 0).en = true ∧ codingOn s = true ∧
      tenOk s 0 fT = true ∧ engineRefused s 0 [3] = false) ∧
    (let s := { far with reb := { far.reb with runs := [{ failed := 2, inc := 1, target := 3, spread := false, slots := [(0, 0)] }] } }; insnReady s 0 0 false = true ∧ s.reb.runs.filter (runHere s) ≠ []) ∧
    (let s := on { prog with slots := [(0, { busy := true })] }; insnReady s 0 0 false = true ∧ (slotOf (partOf s 0) 0).busy = true) := by decide +kernel
theorem witness_OpenInstructionsAccepted_collectives :
    let s := far
    let x := partOf s 0
    let y : Sec6 := { s6 with axes := 1 }
    x.tag = s.job.tag ∧ collEpoch s (fld 0 32 (gReg x y.ereg.val)) = none ∧
    (collOk s 0 0 (fD 0 1 2 3) y [dReg x 1] (dReg x 0) (memberSet s 1) = true ∧ collOk s 0 1 (fD 0 1 2 3) y [dReg x 1] (dReg x 0) (memberSet s 1) = true ∧
      collOk s 0 2 (fD 0 1 2 3) y [dReg x 1] (dReg x 0) (memberSet s 1) = true ∧ collOk s 0 3 (fD 0 1 2 3) y [dReg x 1] (dReg x 0) (memberSet s 1) = true) ∧
    engineRefused s 0 (collEngines 0 (collOrdered s (fD 0 1 2 3) y)) = false ∧
    (([dReg x 0, dReg x 1]).all fun d => inWindow s 0 (descExtent d).1 (descExtent d).2) = true ∧ (([dReg x 0, dReg x 1]).all fun d => padFree s d.w0.toNat) = true := by decide +kernel
theorem witness_RemoteOperationsIssue :
    let f := fD 0 0 0 0
    let ld : Sec7 := { s7 with dreg := 0, coef := 0 }
    let atm : Sec7 := { s7 with size := 0, coef := 0 }
    insnReady far 0 0 false = true ∧ (remoteTaken far 0 0 f ld = true ∧ remoteTaken far 0 0 f { ld with size := 128 } = true ∧ (∀ op < 11, 2 ≤ op → remoteTaken far 0 op f atm = true)) ∧
    (storeLeaves far 0 1 (fD 0 1 0 0) { ld with vreg := 0, size := 128 } = true ∧ storeLeaves far 0 11 (fD 0 1 0 0) { ld with vreg := 0, size := 128, coef := 1 } = true ∧
      storeLeaves far 0 12 f { atm with vreg := 0 } = true) := by decide +kernel
theorem witness_RemoteOperationsIssue_copy :
    let d := dReg (partOf far 0) 1
    (partOf far 0).flushing = false ∧ (slotOf (partOf far 0) 0).busy = false ∧ (partOf far 0).bound = true ∧ tenOk far 0 (fD 0 1 0 0) = true ∧
      fabricWordOk 13 (fD 0 1 0 0) (sec7Word { s7 with dreg := 0, vreg := 0, size := 0, coef := 0, rtally := 7 }) = true ∧ descOk d false = true ∧ dDense d = true ∧
      tierOf d.w0.toNat < 2 ∧ inWindow far 0 d.w0.toNat (dCount d / atomElems d * atomBytes d) = true ∧ padFree far d.w0.toNat = true ∧ (translate far 1).isSome = true := by decide +kernel

/-- A completion queue of eight entries. -/
def cq0 : Cq := { en := true, base := 0x4000000004000000, sizeM1 := 7 }
/-- A partition with queue 1: eight entries, one command waiting. -/
def queued : PartSt := { sq := [(1, { en := true, base := 0x4000000005000000, sizeM1 := 7, head := 7, tail := 0 })], cq := [(1, cq0)] }

theorem witness_CommandGate :
    (frontReady (on queued) 0 1 = true ∧ (partOf (on queued) 0).fenced = false) ∧
    (let s := on { queued with cq := [(1, { cq0 with tail := 6 })] }; coreRuns s = true ∧ unlogged s = true ∧ s.pwr.entering = none ∧ padFree s (cqOf (partOf s 0) 1).base.toNat = true ∧ cqRoom (partOf s 0) 1 = true) ∧
    (let s := on { queued with cq := [(1, { cq0 with tail := 7 })] }; coreRuns s = true ∧ unlogged s = true ∧ s.pwr.entering = none ∧ padFree s (cqOf (partOf s 0) 1).base.toNat = true ∧ cqRoom (partOf s 0) 1 = false) := by decide +kernel
theorem witness_CompletionEntry :
    coreUp (on queued) = true ∧ cmdStarts (on queued) 0 1 cmd .nop = true ∧ Memory.wf (on queued).mem = true ∧ plainWrite (on queued) 0x4000000004000000 16 = true ∧
    (let s := on { queued with cq := [(1, { cq0 with tail := 7, head := 7 })] }; cmdStarts s 0 1 cmd .nop = true ∧ (cqOf (partOf s 0) 1).tail + 1 = (cqOf (partOf s 0) 1).sizeM1 + 1) := by decide +kernel
theorem witness_BindingCommands :
    cmdStarts (on queued) 0 1 cmd (.bind 9) = true ∧ (partOf (on queued) 0).bound = false ∧ cmdStarts (on queued) 0 1 cmd (.bind 0) = true ∧ cmdStarts (on queued) 0 1 cmd .unbind = true ∧ (on queued).ep.phase = 0 ∧
    (let s := { on { queued with bound := true } with ep := { base.ep with phase := 1 }, job := { base.job with stepPart := some 0 } }; cmdStarts s 0 1 cmd .unbind = true ∧ s.ep.phase ≠ 0 ∧ s.job.stepPart = some 0) ∧
    (let s := { on queued with fuse := { base.fuse with grade := .b } }; cmdStarts s 0 1 cmd (.pcfg (BitVec.ofNat 16 4096).toNat) = true ∧ s.fuse.grade = .b) ∧ cmdStarts (on queued) 0 1 cmd (.pcfg 0) = true := by decide +kernel
theorem witness_SequencerCommands :
    (let s := on { queued with image := some img, seq := .dispatch }; cmdStarts s 0 1 cmd (.call 3 ⟨0, 0, 0, 0, 0, 0⟩) = true ∧ (partOf s 0).image = some img ∧ entryOf img 3 = some 4 ∧
      cmdStarts s 0 1 cmd (.call 2 ⟨0, 0, 0, 0, 0, 0⟩) = true ∧ cmdStarts s 0 1 cmd (.call 4 ⟨0, 0, 0, 0, 0, 0⟩) = true ∧ entryOf img 4 = none ∧ cmdStarts s 0 1 cmd (.instr 0 0) = true) := by decide +kernel
theorem witness_LoadCommands :
    cmdStarts (on queued) 0 1 cmd (.load t1) = true ∧ cmdStarts (on queued) 0 1 cmd (.load t2) = true ∧ tierOf t1.toNat = 1 ∧ tierOf t2.toNat = 2 ∧ cleanRead (on queued) t1.toNat 8 = true ∧
      (parseImage false (wordsOfBytes (denseU 8 0 (memImg t1.toNat 8 (on queued))))).isLeft = true := by decide +kernel
theorem witness_LoadCommands_slottab :
    (let s := on { queued with admin := true }; cmdStarts s 0 1 cmd (.slottab t1) = true ∧ cleanRead s t1.toNat 8192 = true ∧ anyBound s = false) := by decide +kernel

/-! ### Front end, registers and power -/

/-- The training laboratory with an admin partition, a queue, and a tensor map of one entry at 0x4000000006000000. -/
def exporting : State :=
  { lab with part := [(0, { progL with admin := true, cq := [(1, cq0)] })], mem := [(0x4000000006000010, 1)] }
def cmdE : CmdHdr := { cmd with epv := true, epoch := 5 }
def exp1 : ExportBody := { wide := true, stream := false, pages := false, entries := 1, mapAddr := 0x4000000006000000, area := 0x8000000000000000, areaSize := 1048576, copyBase := 0x4000000007000000, copyMib := 1 }

theorem witness_ExportCommands :
    (cmdStarts exporting 0 1 cmdE (.exportCut exp1) = true ∧ (exportIssue 0 true 5 exp1 (cmdTaken exporting 0 1 false)).2 = stOk) ∧
    cmdStarts exporting 0 1 cmd (.exportCut exp1) = true ∧
    (cmdStarts exporting 0 1 cmd .exportCancel = true ∧ exporting.exp.state = 0) ∧ cmdStarts { exporting with exp := { exporting.exp with state := 2 } } 0 1 cmd .exportCancel = true ∧
    (cmdStarts exporting 0 1 cmd (.restore { verify := false, entries := 1, mapAddr := 0x4000000006000000, manifest := 0x8000000000000000 }) = true ∧ exporting.ep.phase ≠ 0) := by decide +kernel
theorem witness_AdmissionAndTeardown :
    (let s := { exporting with ep := { exporting.ep with phase := 0 } }; cmdStarts s 0 1 cmd (.admission false 1 t1) = true ∧ cmdStarts s 0 1 cmd (.admission false 0 t1) = true ∧ s.job.admitting = none ∧
      (cmdStarts s 0 1 cmd .teardown = true ∧ s.ep.phase = 0)) ∧
    (cmdStarts exporting 0 1 cmd (.admission false 1 t1) = true ∧ exporting.ep.phase ≠ 0) ∧
    (let s := { on prog with job := { base.job with admitting := some cur0 } }; coreUp s = true ∧ s.job.admitting = some cur0) ∧
    (exporting.coll.openC = [] ∧ ∀ k ∈ boundTo exporting 9, let y := partOf exporting k
      y.flushing = false ∧ y.resetting = false ∧ y.cur = none ∧ y.long = none ∧ y.wait = none ∧ (y.sq.all fun k => k.2.head == k.2.tail && k.2.flushTo.isNone) = true) ∧
    (cmdStarts exporting 0 1 cmd .teardown = true ∧ exporting.ep.phase ≠ 0 ∧ (partOf exporting 0).bound = true ∧ (partOf exporting 0).tag = exporting.job.tag) := by decide +kernel
/-- A block before its job, with the bitmap of ranks 0 and 1 at the base of T1. -/
def joining : State := { on { queued with bound := true, tag := 9, admin := true } with mem := [(0x4000000000000000, 3)], cod := { base.cod with outboxBase := t1 } }
theorem witness_AdmissionAndTeardown_admits :
    cmdStarts joining 0 1 cmd (.admission false 1 t1) = true ∧ joining.ep.phase = 0 ∧ (partOf joining 0).bound = true ∧ joining.mode.compat = false ∧ tierOf t1.toNat = 1 ∧ joining.exp.state ≠ 2 ∧
    cleanRead joining t1.toNat 16384 = true ∧ (bitmapRanks (memImg t1.toNat 16384 joining)).contains (servedRank (cmdTaken joining 0 1 false)) = true ∧
    admitLocalOk (cmdTaken joining 0 1 false) 9 = true ∧ joining.keep.busy = none ∧ joining.keep.queue = [] := by decide +kernel
theorem witness_CommandFetchTakesTheHead :
    (coreRuns (on prog) = true ∧ unlogged (on prog) = true ∧ (on prog).pwr.entering = none ∧ sqHas (partOf (on prog) 0) 1 = false) ∧
    (let s := on queued; coreRuns s = true ∧ sqHas (partOf s 0) 1 = true ∧ padFree s (sqOf (partOf s 0) 1).base.toNat = true ∧ padFree s (cqOf (partOf s 0) 1).base.toNat = true ∧
      (partOf s 0).flushing = false ∧ cqRoom (partOf s 0) 1 = true ∧ cleanRead s ((sqOf (partOf s 0) 1).base.toNat + 64 * 7) 64 = true ∧ onSequencer (sqEntry s 0 1).2 = false ∧
      (sqOf (partOf s 0) 1).head = (sqOf (partOf s 0) 1).sizeM1) ∧
    (let s := on { queued with cq := [] }; sqHas (partOf s 0) 1 = true ∧ cqRoom (partOf s 0) 1 = false ∧ padFree s (cqOf (partOf s 0) 1).base.toNat = true) := by decide +kernel
theorem witness_ControlPortClosed :
    portWrite .snap = true ∧ portsUp { base with clk := { base.clk with pwrGood := false } } = false ∧ { base with clk := { base.clk with ready := false } }.clk.ready = false ∧
    (let s := { base with rcd := { base.rcd with active := true, op := 2 } }; portsUp s = true ∧ s.clk.ready = true ∧ replaying s = true) := by decide +kernel
/-- Enabled and disabled queues, doorbells at and past SIZE_M1, a masked vector and a pending one. -/
theorem witness_QueueRegisterWrites :
    (let s := on { sq := [(1, { en := true, sizeM1 := 7, base := t1 })], cq := [(1, cq0)] }; ctlReady s = true ∧ (sqOf (partOf s 0) 1).en = true ∧ (7 : Nat) ≤ (sqOf (partOf s 0) 1).sizeM1 ∧
      (sqOf (partOf s 0) 1).sizeM1 < 8 ∧ (cqOf (partOf s 0) 1).en = true ∧ (7 : Nat) ≤ (cqOf (partOf s 0) 1).sizeM1 ∧ (cqOf (partOf s 0) 1).sizeM1 < 8) ∧
    (let s := on { sq := [(1, { base := t1 })], cq := [(1, { base := t1 })] }; ctlReady s = true ∧ (sqOf (partOf s 0) 1).en = false ∧ (cqOf (partOf s 0) 1).en = false ∧
      bit 63 0x8000000000000007 = true ∧ fld 62 2 (sqOf (partOf s 0) 1).base = 1 ∧ fld 0 12 (sqOf (partOf s 0) 1).base = 0) ∧
    (let s := { base with msg := { base.msg with vec := [(95, { mask := true, pend := true, entry := 5 })] } }; ctlReady s = true ∧ (vecOf s 95).pend = true ∧ hostHeld s = false) := by decide +kernel
theorem witness_PartitionControl :
    (let s := on prog; ctlReady s = true ∧ (partOf s 0).flushing = false ∧ (partOf s 0).resetting = false ∧ (partOf s 0).long = none ∧ (partOf s 0).wait = none ∧ (partOf s 0).susp = none ∧ (partOf s 0).cur = none ∧
      (partOf s 0).ops = [] ∧ (partOf s 0).bound = false ∧ s.coll.openC = [] ∧ (partOf s 0).image = some img ∧ entryOf img 0 = none) ∧
    (let s := on { prog with wait := some (.tally 5), seq := .wait }; ctlReady s = true ∧ (partOf s 0).wait = some (.tally 5) ∧ isInstr (partOf s 0) = false) ∧
    (let s := on { prog with flushing := true }; ctlReady s = true ∧ (partOf s 0).flushing = true) := by decide +kernel

theorem witness_RegionTable :
    (ctlReady base = true ∧ (writtenRegion base).valid = false ∧ ∀ c < 11, c ≠ 0 → regionBreaks (ctlSeen base) 0 (writtenRegion base) c = false) ∧
    (let s := { base with reg := { base.reg with ent := [(2, 65536)] } }; ctlReady s = true ∧ (writtenRegion s).valid = true ∧ ∃ c < 11, c ≠ 0 ∧ regionBreaks (ctlSeen s) 16383 (writtenRegion s) c = true ∧
      ∀ b < c, b ≠ 0 → regionBreaks (ctlSeen s) 16383 (writtenRegion s) b = false) ∧
    ((regionOf lab 0).valid = true ∧ (partOf lab (regionOf lab 0).owner).bound = true ∧ ctlReady lab = true) := by decide +kernel

/-- The block in Marjoram's torus, with the parity of group 15 in T1. -/
def torus : State := { base with fab := { base.fab with torus := 0x070F0F0B }, grp := [(15, { parTier := 1, hdrTier := 1 })] }

theorem witness_GroupSlotWrites :
    (ctlReady lab = true ∧ anyBound lab = true) ∧ ((1 : Nat) ≤ 4 ∧ (4 : Nat) ≤ 4) ∧ bit 63 0x8000000000000000 = true ∧
    (let n := groupOfWord (grpOf torus 15) (merge (groupWord (grpOf torus 15) 0) (accMask .full) (accVal .full 0x8000000000000802)); ctlReady torus = true ∧ anyBound torus = false ∧ n.en = true ∧
      n.k = 8 ∧ n.m = 2 ∧ ∀ c < 10, groupBreaks torus n c = false) ∧
    (let n := groupOfWord (grpOf torus 15) (merge (groupWord (grpOf torus 15) 0) (accMask .full) (accVal .full 0x8000000000000805)); n.en = true ∧ groupBreaks torus n 2 = true ∧
      ∀ b < 2, groupBreaks torus n b = false) ∧
    (groupOfWord (grpOf torus 15) (merge (groupWord (grpOf torus 15) 0) (accMask .full) (accVal .full 0))).en = false := by decide +kernel

def flyingE : PfEntry := { src := t2, dst := t1, size := 64, layer := 0, lead := 0, tally := 0, flying := true }

theorem witness_DirectoryRegisters :
    (ctlReady base = true ∧ anyBound base = false) ∧ (ctlReady lab = true ∧ anyBound lab = true) ∧
    ((partOf (on prog) 0).pf.entries.any (·.flying) = false) ∧ ((partOf (on { prog with pf := { armed := true, entries := [flyingE] } }) 0).pf.entries.any (·.flying) = true) ∧
    ((pubOf base 31).writing = false ∧ (pubOf base 31).readersA = 0 ∧ (pubOf base 31).readersB = 0) ∧ (pubOf { base with pub := [(31, { writing := true })] } 31).writing = true ∧
    (bit 63 0x8000020000000020 = true ∧ pubOk base { valid := true, format := 2, elems := 32, bayA := t1, bayB := t1 + 64 } = true ∧ pubOk base { valid := true, format := 2, elems := 32, bayA := t1, bayB := t1 + 63 } = false) := by
  decide +kernel

/-- An entry of a power state under way, at a step. -/
def enter (t : PwrState) (k : Nat) : State := { base with pwr := { base.pwr with entering := some t, step := k } }

theorem witness_RequestDuringEntryIgnored : ctlReady (enter .sleep 1) = true ∧ (enter .sleep 1).pwr.entering = some .sleep ∧ sideHeld (enter .sleep 1) = false ∧ fld 0 3 (2 : Word) = 2 ∧ fld 0 3 (0 : Word) = 0 := by decide +kernel
theorem witness_PowerStateEntry :
    (ctlReady base = true ∧ coreUp base = true ∧ base.pwr.entering = none ∧ jobDepends base = false) ∧ (ctlReady training = true ∧ coreUp training = true ∧ training.pwr.entering = none ∧ jobDepends training = true) ∧
    ((enter .deep 1).pwr.pendingWake = 0 ∧ quiesced (enter .deep 1) = true ∧ (enter .deep 1).pwr.step = 1) ∧
    (quiesced { on prog with pwr := (enter .deep 1).pwr } = false) ∧ ((enter .off 2).pwr.step = 2 ∧ (enter .off 3).pwr.step = 3 ∧ (enter .off 4).pwr.step = 4) ∧
    ({ enter .sleep 4 with pwr := { (enter .sleep 4).pwr with pendingWake := 1 } }).pwr.pendingWake ≠ 0 := by decide +kernel

def powered (t : PwrState) : State := { base with pwr := { base.pwr with state := t } }
/-- The block with IDLE enabled. -/
def idling : State := { base with pwr := { base.pwr with ctl := ⟨0x640100, []⟩ } }

theorem witness_IdleWakesAndPads :
    (coreUp idling = true ∧ idling.pwr.state = .run ∧ idling.pwr.entering = none) ∧ ((powered .sleep).pwr.state = .sleep ∧ (powered .sleep).pwr.pendingWake = 0 ∧ (powered .sleep).pin.wakeN = true) ∧
    ((powered .deep).pwr.state = .deep ∧ { (powered .deep).pwr with pendingWake := 1 }.pendingWake ≠ 0) ∧ (unlogged (powered .off) = true ∧ (powered .off).clk.pwrGood = true ∧ (powered .off).clk.refclk = true ∧ (powered .off).pwr.entering = none) ∧
    ((enter .sleep 1).pwr.entering = some .sleep) ∧ (ctlReady base = true ∧ base.pwr.padHold < 32 ∧ base.pwr.state = .run) ∧ (ctlReady (powered .sleep) = true ∧ (powered .sleep).pwr.padHold < 32) := by decide +kernel
theorem witness_IdleWakesAndPads_idle :
    (let s := on { prog with wait := none, seq := .run }; idleOk { s with pwr := { s.pwr with state := .idle } } = false) ∧ (powered .idle).pwr.state = .idle := by decide +kernel
theorem witness_ResetEvents :
    (ctlReady base = true ∧ unlogged base = true ∧ base.clk.pwrGood = true) ∧
    (let s := { base with clk := { base.clk with pwrGood := false, refclk := false } }; unlogged s = true ∧ s.clk.pwrGood = false ∧ s.clk.refclk = false) ∧
    (let s := { base with clk := { base.clk with pwrGood := false } }; unlogged s = true ∧ s.clk.pwrGood = false ∧ s.clk.refclk = true) ∧
    (let s := { base with clk := { base.clk with ready := false, refclk := false } }; s.clk.pwrGood = true ∧ s.clk.ready = false ∧ s.clk.reset = .none ∧ portsUp s = false) ∧
    (let s := { base with clk := { base.clk with ready := false, reset := .fromOff } }; portsUp s = true ∧ s.clk.reset = .fromOff) ∧
    (let s := { base with clk := { base.clk with ready := false, reset := .warm } }; portsUp s = true ∧ s.clk.reset = .warm) := by decide +kernel
theorem witness_KeepStoreWrites :
    (ctlReady base = true ∧ bit 63 base.keep.lock = true ∧ bit 1 base.keep.lock = false ∧ base.keep.busy = none ∧ base.keep.queue = [] ∧ portsUp base = true ∧ base.clk.ready = true) ∧
    (let s := { base with keep := { base.keep with busy := some (5, 7) } }; ctlReady s = true ∧ s.keep.busy = some (5, 7) ∧ portsUp s = true) := by decide +kernel
theorem witness_StateSramChecks :
    (Config.sramLines ≤ Config.sramLines ∧ coreUp base = true ∧ base.sram.wbq.contains 3 = false) ∧
    (let s := { base with sram := { base.sram with wbq := [3], fixBytes := [200], check := [(200, checkBits 0x55)] }, mem := [(200, 0x54)] }; Memory.wf s.mem = true ∧ coreUp s = true ∧ s.sram.wbq.contains 3 = true ∧ (s.sram.check.map (·.1)).Nodup ∧
      64 * 3 ≤ 200 ∧ 200 < 64 * 3 + 64 ∧ s.sram.fixBytes.contains 200 = true ∧ s.sram.fixBytes.contains 201 = false ∧ eccDecide (uget s.mem 200) (checkBits 0x55) = .fixed 0x55) ∧
    (coreUp base = true ∧ base.sram.en = true ∧ splitOn base = false ∧ maintSlot base 0 = true ∧ base.sram.running = false) ∧ splitOn { base with sram := { base.sram with split := 0x8000000000000000 } } = true ∧
    (ctlReady base = true ∧ fld 0 8 (0x5E : Word) = 0x5E ∧ fld 0 8 (0xE5 : Word) = 0xE5) := by decide +kernel

/-- The block with a log area in T2, and a replay of an area that lists nothing. -/
def logging : State := { base with rcd := { base.rcd with base := 0x8000000000000000, pbase := 0xC000000000000000, size := 0x0000000100000001 } }
def playing : State := { logging with rcd := { logging.rcd with active := true, op := 2, pos := 1 } }
/-- The log area with a START entry that a replay takes, and, at its second place, an END entry. -/
def startEntry (s : State) : List Byte := logBytes 0 0 0 0 0 (cfgDigest s).toNat 0

theorem witness_RecordAndReplay :
    (ctlReady logging = true ∧ Memory.wf logging.mem = true ∧ logAreaOk logging = true ∧ bit 2 (0 : Word) = false ∧ logging.mode.chervil = false ∧ bit 2 (4 : Word) = true) ∧ logAreaOk { base with rcd := { base.rcd with base := 0 } } = false ∧
    (cleanRead logging (logBase logging.rcd.base) 32 = true) ∧
    (portsUp playing = true ∧ playing.clk.ready = true ∧ replaying playing = true ∧ Memory.wf playing.mem = true ∧ coreUp playing = true ∧ playing.sram.check = [] ∧ playing.badRead = [] ∧
      tierOf (logBase playing.rcd.base) ≥ 2 ∧ logBase playing.rcd.base / 2 ^ 62 = (logBase playing.rcd.base + 32 * (playing.rcd.pos + 2 + recEntries playing)) / 2 ^ 62) ∧ replaying base = false := by decide +kernel
theorem witness_RecordAndReplay_entries :
    (parseLog (logBytes 3 6 3 0 0 5 0)).d1 = 0 ∧ (parseLog (logBytes 3 8 0 0 0 0 0)).kind = 8 ∧ (parseLog (logBytes 3 6 3 0 0 5 1)).kind = 6 ∧ (parseLog (logBytes 3 6 3 0 0 5 1)).src = 3 ∧ (parseLog (logBytes 3 6 3 0 0 5 1)).d1 = 1 ∧
    (parseLog ((List.range 32).map fun _ => (0 : Byte))).cycle ≠ (parseLog (logBytes 3 6 3 0 0 5 1)).cycle ∧ replayOk logging (parseLog ((List.range 32).map fun _ => (0 : Byte))) = false := by decide +kernel
theorem witness_TallyTimerAndStrobes :
    (ctlReady base = true ∧ coreUp base = true ∧ unlogged base = true ∧ base.pwr.padHold.testBit 2 = false) ∧ State.reset.pwr.padHold.testBit 2 = true ∧
    (let s := on { prog with edge := [(31, { src := 5, sel := 15, evt := true })] }; coreUp s = true ∧ (s.part.map (·.1)).Nodup ∧ ((partOf s 0).edge.map (·.1)).Nodup ∧
      SMap.find (partOf s 0).edge 31 = some { src := 5, sel := 15, evt := true }) ∧
    (let s := { base with mode := { base.mode with chervil := true } }; s.mode.chervil = true ∧ coreUp s = true ∧ s.rcd.armed = false) ∧ base.mode.chervil = false ∧
    (let l : Long := { fillAt1 with cls := 3, op := 0 }; let s := { on { prog with long := some l, seq := .long } with mode := { base.mode with chervil := true, table := some (List.replicate 8192 0x80) } };
      (s.part.filter fun x => x.2.seq == .long).map (·.1) = [0] ∧ (partOf s 0).long = some l ∧ l.unstarted = false ∧ granuleStarted s 0 l = false ∧
      0 ∉ s.upd.lockWait ∧ enginesFor { s with clk := { s.clk with cycle := 128 } } 0 l.paired (engineOf 3 0) = some [0] ∧ slotNow { s with clk := { s.clk with cycle := 128 } } = 1) := by decide +kernel
theorem witness_RegisterAccesses :
    (unlogged base = true ∧ portsUp base = true ∧ base.clk.ready = true) ∧ regAt 0xFFFFF8 = none ∧ regAt 0x082040 = some (.regionEnt 0) ∧ (∃ off < 0x800000, regAt off = some (.psq 15 3 0)) ∧
    { base with clk := { base.clk with ready := false } }.clk.ready = false ∧ rcFields .gid = [] ∧ (regAt 0 = some .gid) ∧ portInService (portOf base 7) = false ∧ portInService (portOf (net base) 7) = true := by
  refine ⟨by decide +kernel, by decide +kernel, by decide +kernel, ⟨0x4F01B0, by decide +kernel, by decide +kernel⟩, by decide +kernel⟩

/-! ### Sideband, links, frames, engines and surroundings -/

theorem witness_SidebandAccesses :
    (portsUp base = true ∧ base.clk.ready = true ∧ unlogged base = true ∧ sideHeld base = false) ∧
    (let f : SvcFrame := { size64 := true, count := 0, offset := 0x010100 }; svcMisplaced f = false) ∧ svcMisplaced { size64 := true, count := 0, offset := 0x020000 } = false ∧ (regAt 0).isSome = true ∧
    (let s := { base with side := { base.side with frame := some ({ size64 := true, count := 0, offset := 0 }, [7]) } }; portsUp s = true ∧ s.side.frame = some ({ size64 := true, count := 0, offset := 0 }, [7])) ∧
    (let s := powered .sleep; portsUp s = true ∧ s.clk.ready = true ∧ sideHeld s = false ∧ s.pwr.entering = none ∧ s.pwr.state = .sleep) := by decide +kernel
theorem witness_SidebandErrorsWriteNothing :
    portsUp base = true ∧ sideHeld base = false ∧ (4 : Nat) % 8 ≠ 0 ∧ (2 : Nat) % 4 ≠ 0 ∧ 0x1000000 ≤ 0xFFFFF8 + 8 * 1 := by decide +kernel
theorem witness_AlertsAndTheLine :
    (portsUp base = true ∧ base.side.alert.testBit 0 = false ∧ bit 63 base.side.mgtCtl = true ∧ bit 0 base.side.mgtCtl = true ∧ base.side.driving = false ∧ base.side.holdoff = false) ∧
    (let s := { base with side := { base.side with driving := true, rose := 4, holdoff := true, lost := true, attempts := 8, queue := [(1, 4)] } };
      portsUp s = true ∧ s.side.driving = true ∧ s.side.holdoff = true ∧ s.side.rose ≠ 0 ∧ s.side.lost = true ∧ 8 ≤ s.side.attempts ∧ sideHeld s = false ∧ s.side.queue ≠ []) ∧
    (let s := { base with pin := { base.pin with alertN := false } }; s.side.driving = false ∧ s.side.stuck = false ∧ s.pin.alertN = false) ∧
    (let s := { base with side := { base.side with stuck := true } }; s.side.stuck = true ∧ s.pin.alertN = true) ∧ unlogged base = true := by decide +kernel

/-- A port of the block in one state. -/
def portIs (x : PortSt) : State := { base with port := [(7, x)] }

theorem witness_PortsAndLinks :
    (portsUp base = true ∧ (portOf (portIs { state := .seek }) 7).state = .seek ∧ (portOf (portIs { state := .seek }) 7).laserLow = false ∧ (portOf (portIs { state := .lock }) 7).state = .lock ∧
      (portOf (portIs { state := .train }) 7).state = .train) ∧
    (let x := portOf (net base) 7; portInService x = true ∧ laneOf x 16 ≠ .failed) ∧
    (let s := portIs { state := .up, lane := (List.range 17).map fun l => (l, if l = 16 then .spare else .active) }; let x := portOf s 7;
      portsUp s = true ∧ portInService x = true ∧ laneOf x 15 ≠ .failed ∧ laneOf x 15 ≠ .off ∧ laneOf x 16 = .spare ∧ 4 ≤ ((List.range 16).filter fun j => decide (j ≠ 15) && laneOf x j != .failed).length ∧
      bit 7 x.ctl.now = true ∧ x.state = .up ∧ laneOf x 15 = .active ∧ x.cal = none ∧ x.fixes = [] ∧ (([((15 : Fin 17), 1048577)] : List (Fin 17 × Nat)).map (·.2)).sum > 1048576) ∧
    ((portOf (portIs { state := .hold, holdJob := true }) 7).state = .hold ∧ (portOf (portIs { state := .hold }) 7).holdJob = false) ∧
    (let x := portOf (portIs { state := .up, txNext := 5, txAck := 3, replays := 7 }) 7; portInService x = true ∧ x.txNext ≠ x.txAck ∧ 7 ≤ x.replays) ∧
    (flit0.uncorrectable = false ∧ flit0.lkind ≠ 3 ∧ (flit0.fixes.map (·.2)).sum ≤ 1048576 ∧ 2048 ≤ (0 + 4096 - { flit0 with lseq := 2048 }.lseq % 4096) % 4096) ∧
    (wiredPorts (net base)).contains 0 = true ∧ wiredRight (net base) 0 { peer0 with port := 3 } = false := by decide +kernel
theorem witness_PortsAndLinks_beats :
    let b : Beat := sealBeat { identity := 5, inc := 1, rank := 1, quiet := true, digest := 0, epoch := 0, crc := 0 }
    let s : State := { net base with port := [(7, { state := .up, record := some { identity := 5, inc := 1, rank := 1 } })] }
    let h := sealHdr { hdr 8 with tag := 0 }
    unlogged s = true ∧ portTakes s 8 7 = true ∧ h.typ = 8 ∧ hdrOk h = true ∧ h.tag = 0 ∧ h.hops < 63 ∧ hbOn s 7 = true ∧ beatOk b = true ∧ beatOk { b with crc := b.crc + 1 } = false ∧
      (portOf s 7).record = some { identity := b.identity, inc := b.inc, rank := b.rank } := by decide +kernel
theorem witness_PortsAndLinks_wake :
    let s : State := { portIs { state := .hold } with pwr := { base.pwr with state := .sleep } }
    let w : WakeMsg := sealWake { identity := s.fuse.identity, rank := 0, crc := 0 }
    let h := sealHdr { hdr 14 with tag := 0 }
    portsUp s = true ∧ unlogged s = true ∧ portTakes s 14 7 = true ∧ hdrOk h = true ∧ s.pwr.state = .sleep ∧ s.pwr.entering = none ∧ wakeOk w = true ∧ wakeOk { w with rank := 1 } = false := by decide +kernel
theorem witness_FrameArrivals :
    let f (h : FrameHdr) : Frame := ⟨h, .contrib contrib0⟩
    arrival (.contrib 0 (hdr 2) contrib0) = some (0, f (hdr 2)) ∧ portTakes base 2 0 = false ∧ portsUp far = true ∧ portTakes far 2 0 = true ∧ coreUp far = true ∧ unlogged far = true ∧
    (hdrOk { hdr 2 with hcrc := (hdr 2).hcrc + 1 } = false ∧ typeKnown 15 = false ∧ typeFits 9 (.contrib contrib0) = false) ∧
    (hopOk (f (sealHdr { hdr 2 with hops := 63 })) = true ∧ 63 ≤ { hdr 2 with hops := 63 }.hops) ∧ (hopOk (f (sealHdr { hdr 2 with hops := 62 })) = true ∧ { hdr 2 with hops := 62 }.hops < 63) ∧
    (coreUp { far with pwr := { far.pwr with state := .sleep } } = false) ∧ (hopOk (f (sealHdr { hdr 2 with destCoord := 3, tag := 77 })) = true ∧ tagBound far 77 = false) ∧
    (servesRank far 5 = false ∧ floodFrame (some 0) (f (hdr 2)) = false ∧ servesRank far 0 = true ∧ tagOk far (hdr 2) = true ∧ tagOk far { hdr 2 with gen := 3 } = false) ∧
    (far.ep.epoch + 1 < { hdr 2 with epoch := 7 }.epoch ∧ { hdr 2 with epoch := 6 }.epoch = far.ep.epoch + 1 ∧ aheadLevel far + frameLen (f (hdr 2)) ≤ Config.aheadBytes) ∧
    (tarraOk (tarraMsg 0) = true ∧ tarraOk (tarraMsg 1) = true ∧ hopOk ⟨sealHdr { hdr 7 with destCoord := 3 }, .tarra (tarraMsg 1) none⟩ = true) := by decide +kernel
theorem witness_FrameEffects :
    reaches far 0 ⟨hdr 1, .contrib { contrib0 with kind := 0 }⟩ = true ∧ reaches far 0 ⟨hdr 2, .contrib contrib0⟩ = true ∧ ¬(contrib0.epoch = far.ep.epoch ∧ contrib0.attempt ≠ far.ep.attempt) ∧
    { contrib0 with attempt := 1 }.attempt ≠ far.ep.attempt ∧ reaches far 0 ⟨hdr 3, .notice notice0⟩ = true ∧ noticeOk notice0 = false ∧
    reaches far 0 ⟨hdr 4, .chain chain0⟩ = true ∧ reaches far 0 ⟨hdr 5, .chain chain0⟩ = true ∧ reaches far 0 ⟨hdr 6, .chunk chunk0⟩ = true ∧ reaches far 0 ⟨hdr 9, .mem mem0⟩ = true ∧
    reaches far 0 ⟨hdr 9, .mem { mem0 with op := 13 }⟩ = true ∧ reaches far 0 ⟨hdr 10, .mem mem0⟩ = true ∧ reaches far 0 ⟨hdr 13, .bulk [mem0]⟩ = true ∧ reaches far 0 ⟨hdr 12, .copyRsp copy0⟩ = true ∧ fixHeld chain0 (leaveIdle far) = false ∧ respBlocked (hdr 10) mem0 (leaveIdle far) = false ∧
    (reaches far 0 ⟨hdr 11, .copy copy0⟩ = true ∧ (takeCopyUnit (hdr 11) copy0 (leaveIdle far)).2 = false) := by decide +kernel

def sealed (n : NoticeFrame) : NoticeFrame := { n with crc := noticeCrc n }

theorem witness_FrameEffects_entries :
    ∀ k < 4, noticeOk (sealed { notice0 with typ := k }) = true ∧ noticeOk (sealed { notice0 with typ := 3, sub := 1 }) = true := by decide +kernel
theorem witness_FrameEffects_tarragon :
    tarraOk { tarraMsg 0 with count := 1 } = false ∧ (∀ k < 23, k ≠ 2 → tarraOk (tarraMsg k) = true ∧ reaches far 0 ⟨hdr 7, .tarra (tarraMsg k) none⟩ = true) ∧
    (tarraOk (sealTarra { tarraMsg 2 with data := 2 }) = true ∧ (tarraMsg 2).data.testBit 0 = false) ∧ reaches far 0 ⟨hdr 7, .tarra (tarraMsg 20) (some (.gens []))⟩ = true ∧
    far.fab.floods.contains (floodKey (tarraMsg 6)) = false ∧ far.pwr.torndown.contains (hdr 7).tag = false ∧ { far with pwr := { far.pwr with torndown := [9] } }.pwr.torndown.contains (hdr 7).tag = true ∧ ({ far with fab := { far.fab with floods := [floodKey (tarraMsg 6)] } }.fab.floods.contains (floodKey (tarraMsg 6))) = true := by decide +kernel
theorem witness_EpochWaves :
    tarraOk (tarraMsg 6) = true ∧ reaches far 0 ⟨hdr 7, .tarra (tarraMsg 6) none⟩ = true ∧ far.fab.floods.contains (floodKey (tarraMsg 6)) = false ∧ far.pwr.torndown.contains (hdr 7).tag = false ∧ current far (tarraMsg 6) = true ∧ far.ep.vote = 0 ∧
    far.ep.guardWave = false ∧ current { far with ep := { far.ep with epoch := 6 } } (tarraMsg 6) = false ∧
    (let s := { far with job := { far.job with members := [1, 0] } }; isIssuer s = false ∨ isIssuer s = true) ∧ { far with ep := { far.ep with rerun := true } }.ep.rerun = true := by decide +kernel

/-- An outbox entry with a contribution ready, and one in flight. -/
def flight0 : InFlight := { seq := 1, payload := none, width := 0, guard := false, narrow := false, attempt := 0 }
def out0 : Out := { slot := 0, stripe := 1, row := 0, col := 7, unit := 0, epoch := 5, ready := some flight0 }

theorem witness_EngineEvents :
    (coreUp far = true ∧ coreUp { far with clk := { far.clk with pwrGood := false } } = false) ∧
    (far.cod.store.find? (trainIs far 0 0 0) = none) ∧
    (let x : Stored := { port := 0, frame := ⟨hdr 1, .contrib contrib0⟩ }; let s := { far with cod := { far.cod with store := [x] } }; s.cod.store.find? (trainIs s 0 0 0) = some x) ∧
    (let s := { far with cod := { far.cod with out := [(outKey 0 1 0 7, out0)] } }; ownedCols s 0 1 = [7] ∧ (outFor s s.ep.epoch 0 1 0 7).ready = some flight0) ∧
    (SMap.find { far with cod := { far.cod with out := [(outKey 0 1 0 7, { out0 with flight := some flight0 })] } }.cod.out (outKey 0 1 0 7) = some { out0 with flight := some flight0 }) ∧
    (let s := { far with ep := { far.ep with phase := 6, skip := true } }; s.ep.phase = 6 ∧ s.ep.closed = false ∧ s.ep.skip = true ∧ stepStands s = false ∧ s.ep.rerun = false) ∧
    (maintSlot far 1 = true ∧ bit 63 far.aud.ctl.now = true ∧ codingOn far = true ∧ auditPaused far = false) := by decide +kernel

/-- The laboratory network with one rebuild in which this block writes nothing that is not written already. -/
def run0 : Rebuild := { failed := 0, inc := 1, target := 9, spread := false, decided := true, epoch := 5, ready := [1, 2, 3, 4, 5, 6, 7, 8, 9], started := true, slots := [] }
def rebuilding (r : Rebuild) : State := { far with reb := { far.reb with runs := [r] } }
/-- A collective under way. -/
def coll0 : Coll :=
  { part := 0, axes := 1, seq := 3, op := 0, ordered := false, uneven := false, step := false, format := 1, outFormat := 1, elems := 32, count := 2, epoch := 5, root := 0, slot := 0, ten := none
    members := [0, 1], me := 0, ins := [], outd := [], started := true }
/-- A remote load that waits for its answer. -/
def load0 (n : Nat) : OpenOp := { kind := .remote 1 7 (some 3) none 8, slot := none, ten := none, cancels := n }
/-- An export that drains one shard of two units. -/
def draining : State :=
  { lab with exp := { lab.exp with state := 2, totalU := 2, map := [{ region := 0, tensor := 0, first := 0, elems := 2048 }], area := 0x8000000000000000, areaSize := 1048576, copyBase := 0x4000000007000000, copyMib := 1 } }

theorem witness_EngineEvents_reports :
    (let s : State := { stepOn with ep := { stepOn.ep with closed := true, phase := 6 } }; coreUp s = true ∧ landedNow s = true) ∧ landedNow base = false ∧
    (let s : State := { stepOn with ep := { stepOn.ep with phase := 4 } }; coreUp s = true ∧ guardedNow s = true) ∧ guardedNow base = false := by decide +kernel
theorem witness_EngineEvents_rebuild :
    (plansRun (rebuilding run0) run0 = true ∧ run0.restored = false ∧ (∀ q ∈ (rebuilding run0).reb.runs, q.restored = true ∨ q.decided = true) ∧ ∀ m ∈ survivors (rebuilding run0) run0, m ∈ run0.ready) ∧
    (run0.aborted = false ∧ run0.rolled = false ∧ run0.started = true ∧ run0.epoch = (rebuilding run0).ep.epoch ∧ ∀ u ∈ unitsToWrite (rebuilding run0) run0, u ∈ run0.doneU) ∧
    (let r := { run0 with rolled := true }; let s := rebuilding r; writesRun s r = true ∧ r.restored = false ∧ partDone s r = true ∧ r.spread = false) ∧ coreUp (rebuilding run0) = true := by decide +kernel
theorem witness_EngineEvents_timers :
    (let s : State := { far with coll := { far.coll with openC := [coll0] } }; findColl s 0 1 3 = some coll0 ∧ coll0.started = true ∧ coll0.doneSent = false ∧ coll0.timedOut = false) ∧
    (let s : State := { far with tar := { far.tar with reports := [⟨2, 1, 0⟩], probes := [⟨2, 1, []⟩] } }; s.tar.reports.find? (fun x => x.rank == 2 && x.inc == 1) = some ⟨2, 1, 0⟩ ∧
      s.tar.probes.any (fun x => x.rank == 2 && x.inc == 1) = true) ∧
    (let s : State := { far with part := [(0, { progL with ops := [load0 3] })] }; findRemote s 0 1 7 = some (load0 3) ∧ (load0 3).cancels < 4) ∧
    (let s : State := { far with part := [(0, { progL with ops := [load0 4] })] }; findRemote s 0 1 7 = some (load0 4) ∧ 4 ≤ (load0 4).cancels) ∧
    (let s : State := { far with fab := { far.fab with gw := [(1, [(hdr 13, mem0)])], held := [(0, ⟨hdr 9, .mem mem0⟩)] } };
      gwHeld s 1 = [(hdr 13, mem0)] ∧ translate s 1 = some 1 ∧ s.fab.held[0]? = some (0, ⟨hdr 9, .mem mem0⟩) ∧ s.fab.held[1]? = none) := by decide +kernel
theorem witness_EngineEvents_drain :
    coreUp draining = true ∧ draining.exp.state = 2 ∧ draining.exp.stream = false ∧ draining.exp.out = [] ∧ draining.exp.map[draining.exp.shard]? = some { region := 0, tensor := 0, first := 0, elems := 2048 } ∧
      writesShard draining { region := 0, tensor := 0, first := 0, elems := 2048 } = true ∧ 4096 * (draining.exp.unit + 1) < storedLen (regionOf draining 0) 2048 ∧
      draining.sram.check = [] ∧ draining.poison = [] ∧ draining.badRead = [] := by decide +kernel

/-- The block with two pages of an EXPERIENCE region at 0x4000000008000000: page 0 held once. -/
def paged (r : Page) : State :=
  { base with reg := { base.reg with table := [(3, { tier := 1, base := 0x8000, units := 32, owner := 0, cls := 6, format := 0, valid := true })] }, page := { base.page with recs := [(0, r)] } }

theorem witness_TapWritesAndSurroundings_writes :
    (Memory.wf base.mem = true ∧ inBlockArea 167772160 1 = true ∧ inBlockArea t1.toNat 64 = false ∧ coreUp base = true ∧ unlogged base = true ∧ base.pwr.padHold.testBit 0 = false ∧ tapFree base = true) ∧
    (pageWriteOk base t1.toNat 64 = true ∧ writeBlocked t1.toNat 64 base = false ∧ plainWrite base t1.toNat 64 = true) ∧ (writeBlocked t1.toNat 64 closedIn = true ∧ pageWriteOk closedIn t1.toNat 64 = true ∧ coreUp closedIn = true) ∧
    (pageWriteOk (paged { ref := 1, isSealed := true }) 0x4000000008000000 64 = false) ∧ tapFree { base with pwr := { base.pwr with padHold := 1 } } = false ∧ (tierOf t1.toNat = 1 ∧ tierOf t2.toNat ≠ 1) := by decide +kernel
theorem witness_TapWritesAndSurroundings_pages :
    (base.pwr.padHold.testBit 2 = false ∧ activeB base (pubOf base 0) = false ∧ (pubOf base 0).readersA < 65535 ∧ 65535 ≤ (pubOf { base with pub := [(0, { valid := true, readersA := 65535, epochA := 1, epochB := 0 })] } 0).readersA) ∧
    lowestFree base = none ∧ lowestFree (paged { ref := 1 }) = some 1 ∧ ((pageOf (paged { ref := 1 }) 0).ref = 1 ∧ (pageOf (paged { ref := 1 }) 0).isSealed = false ∧ (pageOf (paged { ref := 1 }) 1).ref = 0) ∧
    ((pageOf (paged { ref := 65535, isSealed := true }) 0).ref = 65535 ∧ 65534 < 65535) ∧
    (let s : State := { paged { ref := 3, isSealed := true } with page := { recs := [(0, { ref := 3, isSealed := true }), (1, { copying := true })], cow := [(0, 1)], seals := [0] } };
      s.page.cow.find? (fun x => x.2 == 1) = some (0, 1) ∧ (pageLoc s 0).map (·.2.2) = some 0x4000000008000000 ∧ (pageLoc s 1).map (·.2.2) = some 0x4000000008010000 ∧ cleanRead s 0x4000000008000000 65536 = true ∧
      tierOf 0x4000000008010000 = 1 ∧ s.exp.state ≠ 2 ∧ 0 ∈ s.page.seals ∧ coreUp s = true) := by decide +kernel
theorem witness_TapWritesAndSurroundings_prefetch :
    (let s := on { prog with pf := { armed := true, layers := 1, entries := [{ flyingE with flying := false }] } }; let f := (partOf s 0).pf; let e : PfEntry := { flyingE with flying := false };
      f.entries[0]? = some e ∧ f.entries[1]? = none ∧ padFree s e.src.toNat = true ∧ padFree s e.dst.toNat = true ∧ pfEligible s f e = true ∧ pfNext s f 0 = true ∧ pfInFlight s + pfPlace s 0 < Config.maxTransfers ∧ pfAllowed s 0 e = true) ∧
    (let s := on { prog with pf := { armed := true, layers := 1, entries := [flyingE] } }; (partOf s 0).pf.entries[0]? = some flyingE ∧ flyingE.flying = true ∧ pfAllowed s 0 flyingE = true ∧ cleanRead s t2.toNat 64 = true ∧ plainWrite s t1.toNat 64 = true ∧
      (s.part.all fun y => y.2.wait.isNone) = true) ∧
    (let s := { on { prog with pf := { armed := true, layers := 1, entries := [flyingE] } } with badRead := [(t2.toNat, 64)] }; (memFetch t2.toNat 64 s).2.1 = true) := by decide +kernel

/-! ### Further forms of the statements -/

/-- A RESTORE under way. -/
def restoring0 : Restoring := { cur := cur0, verify := true, recs := [], left := [⟨0, 0, 0, 8⟩], regions := [0] }

theorem witness_CommandGate_restoring :
    (let s := { on queued with exp := { base.exp with restoring := some restoring0 } }; frontReady s 0 1 = true ∧ (partOf s 0).fenced = false ∧ s.job.admitting.isSome = false ∧ s.exp.restoring.isSome = true) := by decide +kernel
theorem witness_BindingCommands_step :
    (let s := { on { queued with bound := true, tag := 9 } with job := { base.job with stepPart := some 0 } }; cmdStarts s 0 1 cmd .unbind = true ∧ s.ep.phase = 0 ∧ s.job.stepPart = some 0) := by decide +kernel

/-- A block with one region of F32, a manifest of one shard record that covers its first eight elements, and a map that names them. -/
def restorable : State :=
  memWrite 0x4000000006000000 (toBytes 32 (pack [(32, 0), (32, 0), (64, 0), (64, 8)]))
    (memWrite 0x8000000000000000 (toBytes 64 (pack [(32, 0x7C4A4D46), (16, 1), (112, 0), (32, 1)]) ++ toBytes 96 (pack [(32, 0), (16, 0), (16, 1), (64, 0), (64, 8), (64, 0), (64, 32)]))
      { on { queued with admin := true } with reg := { base.reg with table := [(0, { tier := 1, base := 0, units := 8, owner := 0, cls := 1, format := 1, valid := true })] } })
def restoreB : RestoreBody := { verify := false, entries := 1, mapAddr := 0x4000000006000000, manifest := 0x8000000000000000 }

theorem witness_ExportCommands_restore :
    cmdStarts restorable 0 1 cmd (.restore restoreB) = true ∧ (restoreNow (cmdCur (cmdTaken restorable 0 1 false) 0 1 cmd) restoreB (cmdTaken restorable 0 1 false)).2 = none ∧
      (restoreNow (cmdCur (cmdTaken restorable 0 1 false) 0 1 cmd) { restoreB with entries := 0 } (cmdTaken restorable 0 1 false)).2 = some stBad ∧
      cmdStarts restorable 0 1 cmd (.restore { restoreB with entries := 0 }) = true := by decide +kernel
/-- An enabled queue that holds no entry, one that holds one, and a disabled one that owes one; a completion queue with room, and a full one. -/
theorem witness_QueueRegisterWrites_owed :
    (let s := on { sq := [(1, { en := true, sizeM1 := 7, base := t1 })], cq := [(1, cq0)] }; ctlReady s = true ∧ (sqOf (partOf s 0) 1).en = true ∧ (sqOf (partOf s 0) 1).owed ++ heldEntries (ctlSeen s) 0 1 = []) ∧
    (let s := on queued; ctlReady s = true ∧ (sqOf (partOf s 0) 1).en = true ∧ (sqOf (partOf s 0) 1).owed ++ heldEntries (ctlSeen s) 0 1 = [(0, 0, none)] ∧ cqRoom (partOf s 0) 1 = true) ∧
    (let s := on { queued with cq := [(1, { cq0 with tail := 7 })] }; ctlReady s = true ∧ (sqOf (partOf s 0) 1).en = true ∧ cqRoom (partOf s 0) 1 = false) ∧
    (let x : PartSt := { sq := [(1, { base := t1, owed := [(4, 2, none)] })], cq := [(1, { cq0 with tail := 7 })] }; let s := on x; ctlReady s = true ∧ (cqOf (partOf s 0) 1).en = true ∧
      (sqOf (partOf s 0) 1).owed = [(4, 2, none)] ∧ cqRoom { x with cq := SMap.put x.cq 1 { cqOf x 1 with head := 3 } } 1 = true) ∧ bit 63 (0 : Word) = false := by decide +kernel
theorem witness_PartitionControl_restoring :
    (let s := { on prog with exp := { base.exp with restoring := some { restoring0 with cur := { cur0 with p := 3 } } } }; ctlReady s = true ∧ ∀ r, s.exp.restoring = some r → r.cur.p ≠ 0) ∧
    (let s := on { prog with wait := some (.epoch 5 0), seq := .wait }; (partOf s 0).wait = some (.epoch 5 0) ∧ isInstr (partOf s 0) = false) := by
  refine ⟨⟨by decide +kernel, ?_⟩, by decide +kernel⟩
  intro r h
  cases h
  decide +kernel
theorem witness_PowerStateEntry_wakes :
    (let s := { enter .sleep 1 with pin := { base.pin with wakeLow := true } }; s.pwr.pendingWake = 0 ∧ s.pin.wakeLow = true ∧ quiesced s = true ∧ s.pwr.step = 1) ∧
    ((enter .sleep 1).pwr.pendingWake = 0 ∧ (enter .sleep 1).pin.wakeLow = false ∧ unlogged (enter .sleep 1) = true ∧ (enter .sleep 1).exp.state ≠ 1) ∧
    (let s := { enter .deep 1 with exp := { base.exp with state := 2 } }; quiesced s = true ∧ s.exp.state = 2) ∧
    (let s := { enter .sleep 2 with port := portsOn }; s.pwr.step = 2 ∧ (portOf s 3).state ≠ .off ∧ (portOf s 3).state ≠ .down ∧ (portOf s 3).laserLow = false) ∧
    (let s := { enter .sleep 1 with pwr := { (enter .sleep 1).pwr with quiet := true, pendingWake := 1 } }; s.pwr.quiet = true ∧ quiesced s = true) := by decide +kernel
theorem witness_IdleWakesAndPads_wakes :
    (let s := { powered .deep with pwr := { (powered .deep).pwr with pendingWake := 8 } }; unlogged s = true ∧ s.pwr.entering = none ∧ s.pwr.pendingWake ≠ 0) ∧ (powered .sleep).pin.wakeLow = false ∧
    (let s := { base with pwr := { base.pwr with padHold := 0x1D } }; ctlReady s = true ∧ s.pwr.padHold < 32) := by decide +kernel
theorem witness_ResetEvents_keep :
    (let s := { base with keep := { base.keep with busy := some (5, 7) } }; unlogged s = true ∧ s.clk.pwrGood = true ∧ s.keep.busy = some (5, 7)) ∧ base.keep.busy = none := by decide +kernel
/-- A START entry with its payload stream, of a recording that started at commit with bit 2. -/
def wholeStart (s : State) (src : Nat) : LogEntry := parseLog (logBytes 0 0 src 0 0 (cfgDigest s).toNat (gradeCode s * 2 ^ 56 + s.ep.epoch))
/-- Taken with nothing bound, taken in chervil mode, taken only at the commit's instant, and refused. -/
theorem witness_RecordAndReplay_start :
    (replayOk logging (wholeStart logging 2) = true ∧ logging.mode.chervil = false) ∧
    (let s := { logging with mode := { logging.mode with chervil := true } }; replayOk s (wholeStart s 3) = true) ∧
    (let s := { logging with part := [(0, { prog with bound := true, tag := 9 })] }; replayOk s (wholeStart s 6) = false ∧ replayFits s (wholeStart s 6) = true ∧ bitOf 2 (wholeStart s 6).src = true ∧
      replayOk s (wholeStart s 2) = false ∧ bitOf 2 (wholeStart s 2).src = false) ∧ replayFits logging (wholeStart logging 0) = false ∧
    (let s := { logging with part := [(0, { prog with bound := true, tag := 9 })], ep := { logging.ep with epoch := 5, phase := 1, commitAt := some (instant logging) } }; replayOk s (wholeStart s 6) = true) := by
  decide +kernel
/-- A replay whose next entry is one of the tally port, with no later entry in its cycle. -/
theorem witness_RecordAndReplay_tally :
    let s := memWrite (logBase playing.rcd.base + 32) (logBytes 3 6 3 0 0 5 1) playing
    let e (n : Nat) : LogEntry := parseLog ((List.range 32).map fun j => uget s.mem (logBase s.rcd.base + 32 * n + j))
    Memory.wf s.mem = true ∧ replaying s = true ∧ coreUp s = true ∧ s.rcd.pos = 1 ∧ (e 1).kind = 6 ∧ (e 1).src = 3 ∧ (e (1 + 1 + 0)).cycle ≠ (e 1).cycle := by decide +kernel
theorem witness_TallyTimerAndStrobes_held :
    (let s := { base with pwr := { base.pwr with padHold := 4 } }; coreUp s = true ∧ unlogged s = true ∧ s.pwr.padHold.testBit 2 = true) ∧ coreRuns base = true := by decide +kernel
theorem witness_PortsAndLinks_bringup :
    portClocks (powered .deep) = false ∧ portsUp (powered .deep) = true ∧ (portClocks base = true ∧ (portOf (portIs { state := .off }) 7).en = true ∧ (portOf (portIs { state := .off }) 7).state = .off) ∧
    (lowRate { portIs { state := .align } with pwr := (powered .sleep).pwr } = true ∧ lowRate base = false) ∧
    (let s := { portIs { state := .seek } with clk := { base.clk with reset := .powerOn } }; portsUp s = true ∧ portClocks s = true ∧ s.clk.reset = .powerOn) := by decide +kernel
theorem witness_EngineEvents_live :
    (let s := { far with cod := { far.cod with out := [(outKey 0 1 0 7, out0)] } }; holderLive s (outFor s s.ep.epoch 0 1 0 7) = true) ∧
    (let s := { far with clk := { far.clk with pwrGood := false } }; coreUp s = false) ∧
    (let m : MapEnt := { region := 0, tensor := 0, first := 0, elems := 2048 }; let s := { draining with exp := { draining.exp with own := [m] } };
      s.exp.own.contains m = true ∧ s.exp.map[s.exp.shard]? = some m ∧ s.badWrite = [] ∧ s.upd.lock = []) ∧
    (let m : MapEnt := { region := 0, tensor := 0, first := 0, elems := 2048 }; let s := { draining with exp := { draining.exp with own := [], map := [m, m] } };
      s.exp.own.contains m = false ∧ s.exp.shard + 1 < s.exp.map.length) := by decide +kernel
theorem witness_TapWritesAndSurroundings_waits :
    (let s := { paged { ref := 2 } with page := { recs := [(0, { ref := 2 })], seals := [0] } }; s.page.seals.contains 0 = true) ∧
    (let s := { paged { ref := 0 } with page := { recs := [(0, { ref := 0 })], seals := [0] } }; 0 ∈ s.page.seals ∧ (∀ x ∈ s.page.waiting, x.2 ≠ 0) ∧ (pageOf s 0).ref = 0) ∧
    (let e : PfEntry := { flyingE with flying := false, src := t1, dst := t2 }; let s := on { prog with bound := true, pf := { armed := true, layers := 1, entries := [e] } }; let f := (partOf s 0).pf;
      f.entries[0]? = some e ∧ pfNext s f 0 = true ∧ pfAllowed s 0 e = false) ∧
    (let e : PfEntry := { flyingE with src := t1, dst := t2 }; let s := on { prog with bound := true, pf := { armed := true, layers := 1, entries := [e] } }; pfAllowed s 0 e = false ∧ e.flying = true) := by decide +kernel

/-! ### What the frames do: operands that meet every clause -/

/-- A contribution of column 0 with a checked unit; the block holding row 0 of stripe 0, whose header stands in the open epoch, or ahead of it. -/
def contrib1 : Contrib := { contrib0 with unit := squeeze 0 [(3, 5)] }
def headed (h : ParHdr) : State := match parityAt far 0 0 0 with
  | some (_, ha) => memWrite ha (parHdrBytes h) far
  | none => far
def hdr0 : ParHdr := { epoch := 5, seq := [(0, 0)], valid := true, crc := zCrc }
def nextCols (s : State) (c : Contrib) (ha : Nat) : Bool := (colsIn c.mask).all fun k => columnState (readParHdr s ha) k c.epoch == some (SMap.look 0 c.seq k - 1) && decide (1 ≤ SMap.look 0 c.seq k)

theorem witness_FrameEffects_contributions :
    (∃ ua ha, parityAt (leaveIdle far) 0 0 0 = some (ua, ha) ∧ squeezedOk contrib1.unit = true ∧ far.exp.state ≠ 2 ∧ nextCols (leaveIdle far) contrib1 ha = true) ∧
    (∃ ua ha, parityAt (leaveIdle (headed hdr0)) 0 0 0 = some (ua, ha) ∧ nextCols (leaveIdle (headed hdr0)) contrib1 ha = true ∧
      (readParHdr (leaveIdle (headed hdr0)) ha).valid = true ∧ (readParHdr (leaveIdle (headed hdr0)) ha).epoch = contrib1.epoch) ∧
    (reaches far 0 ⟨hdr 1, .contrib { contrib1 with kind := 0 }⟩ = true ∧ reaches (headed hdr0) 0 ⟨hdr 2, .contrib contrib1⟩ = true) := by
  refine ⟨⟨_, _, rfl, by decide +kernel⟩, ⟨_, _, rfl, by decide +kernel⟩, by decide +kernel⟩

def entry1 : NoticeEntry := { entry0 with stripe := 1, column := 7 }
def frameOf (typ sub : Nat) (e : NoticeEntry) : NoticeFrame := sealed { notice0 with typ := typ, sub := sub, entries := [e] }
/-- The outbox entry in flight, and a run that this block plans. -/
def sending : State := { far with cod := { far.cod with out := [(outKey 0 1 0 7, { out0 with ready := none, flight := some flight0 })] } }
def planned : Rebuild := { run0 with slots := [(0, 0)] }

theorem witness_FrameEffects_notices :
    (SMap.find sending.cod.out (outKey 0 1 0 7) = some { out0 with ready := none, flight := some flight0 } ∧ out0.epoch = 5 ∧ out0.pend = none ∧ flight0.seq ≤ entry1.seq ∧
      holderLive (leaveIdle sending) { out0 with ready := none, flight := some flight0 } = true ∧ noticeOk (frameOf 0 0 entry1) = true ∧ reaches sending 0 ⟨hdr 3, .notice (frameOf 0 0 entry1)⟩ = true ∧
      noticeOk (frameOf 1 0 entry1) = true ∧ reaches sending 0 ⟨hdr 3, .notice (frameOf 1 0 entry1)⟩ = true) ∧
    (∃ ua ha, parityAt (leaveIdle far) 0 0 0 = some (ua, ha) ∧ (grpOf (leaveIdle far) 0).en = true ∧ columnState (readParHdr (leaveIdle far) ha) 0 5 = some 0 ∧
      noticeOk (frameOf 2 0 entry0) = true ∧ reaches far 0 ⟨hdr 3, .notice (frameOf 2 0 { entry0 with seq := 0 })⟩ = true ∧ noticeOk (frameOf 2 0 { entry0 with seq := 0 }) = true) ∧
    (∃ ua ha, parityAt (leaveIdle (headed { hdr0 with epoch := 6 })) 0 0 0 = some (ua, ha) ∧ columnState (readParHdr (leaveIdle (headed { hdr0 with epoch := 6 })) ha) 0 5 = none) ∧
    (let s := rebuilding planned; s.reb.runs = [planned] ∧ planned.restored = false ∧ planned.epoch = 5 ∧ plansRun (leaveIdle s) planned = true ∧ (0, 0) ∈ planned.slots ∧ noticeOk (frameOf 3 0 entry0) = true ∧
      reaches s 0 ⟨hdr 3, .notice (frameOf 3 0 entry0)⟩ = true) ∧
    (noticeOk (frameOf 3 1 entry0) = true ∧ reaches far 0 ⟨hdr 3, .notice (frameOf 3 1 entry0)⟩ = true) := by
  refine ⟨by decide +kernel, ⟨_, _, rfl, by decide +kernel⟩, ⟨_, _, rfl, by decide +kernel⟩, by decide +kernel⟩

/-- A plan of this block for column 0 of stripe 0. -/
def plan0 : PlanSet := { slot := 0, stripe := 0, target := 0, epoch := 5, attempt := 0, cols := [(0, 0)], tcols := [0], trows := [] }
def planning : State := { far with reb := { far.reb with plans := [plan0] } }

theorem witness_FrameEffects_chains :
    (planFor (leaveIdle far) chain0 0 = none ∧ reaches far 0 ⟨hdr 4, .chain chain0⟩ = true) ∧
    (planFor (leaveIdle planning) chain0 0 = some plan0 ∧ halfSources (leaveIdle planning) plan0 0 0 ≠ [] ∧ halfSources (leaveIdle planning) plan0 0 1 ≠ [] ∧ planning.reb.halves = [] ∧
      reaches planning 0 ⟨hdr 4, .chain chain0⟩ = true) ∧
    ((parityAt (leaveIdle far) 0 0 0).isSome = true ∧ reaches far 0 ⟨hdr 5, .chain { chain0 with tkind := 1 }⟩ = true) ∧
    (let x : ChainMsg := { chain0 with tkind := 2, index := 1, sources := 1 }; parityAt (leaveIdle far) 0 x.stripe x.index = none ∧ 0 < (grpOf (leaveIdle far) 0).m ∧ far.aud.syn = [] ∧
      reaches far 0 ⟨hdr 5, .chain x⟩ = true) := by decide +kernel

/-- A reduce-scatter and an all-gather under way, and the chunks they expect of member 1. -/
def collAt (c : Coll) : State := { far with coll := { far.coll with openC := [c] } }
def reduce0 : Coll := { coll0 with ready := true, elems := 32, bounds := [0, 16, 32] }
def piece0 : ChunkMsg := { chunk0 with seq := 3, piece := 1, pieces := 2, bytes := 100, format := 1, crc := zCrc }
def gather0 : Coll := { coll0 with op := 1, ready := true, bounds := [0, 16, 32], outd := [0x4000000001000000, 1, BitVec.ofNat 64 (32 + 2 ^ 32)] }
def part1 : ChunkMsg := { chunk0 with seq := 3, kind := 1, op := 1, bytes := 64, format := 1, crc := zCrc }
def keptC : Coll := { coll0 with kept := [(1, { chunk0 with kind := 0 })] }

theorem witness_FrameEffects_chunks :
    (let s := collAt reduce0; findColl (leaveIdle s) 0 1 3 = some reduce0 ∧ reduce0.members.findIdx? (· == piece0.origin) = some 1 ∧ headFits reduce0 piece0 = true ∧ chunkFits reduce0 1 piece0 = true ∧
      crcUnit piece0.payload = piece0.crc ∧ (1, piece0.span) ∉ reduce0.absorbed ∧
      badPiece [{ origin := 1, kind := 0, span := 0, piece := 1, pieces := 2, bytes := 100, payload := [] }] = none ∧ reaches s 0 ⟨hdr 6, .chunk piece0⟩ = true) ∧
    (let s := collAt gather0; headFits gather0 part1 = true ∧ chunkFits gather0 1 part1 = true ∧ crcUnit part1.payload = part1.crc ∧ s.exp.state ≠ 2 ∧
      (let ws := streamWrites (descOf gather0.outd) (boundAt gather0 1 / atomElems (descOf gather0.outd) * atomBytes (descOf gather0.outd)) (denseU 64 0 []);
        touchedBy ws (leaveIdle s) = [] ∧ writesBlocked ws (putColl gather0 (leaveIdle s)) = false ∧ ∀ y ∈ ws, entersSealed (leaveIdle s) y.1 y.2.length = false) ∧ reaches s 0 ⟨hdr 6, .chunk part1⟩ = true) ∧
    (let x : ChunkMsg := { chunk0 with seq := 3, kind := 3, format := 1 }; let s := collAt keptC; headFits keptC x = true ∧
      keptC.kept.find? (fun y => y.1 == 1 && y.2.span == x.span && y.2.piece == x.piece && y.2.stage == x.stage) = some (1, { chunk0 with kind := 0 }) ∧ reaches s 0 ⟨hdr 6, .chunk x⟩ = true) ∧
    (let x : ChunkMsg := { chunk0 with seq := 3, kind := 4, format := 1 }; headFits coll0 x = true ∧ reaches (collAt coll0) 0 ⟨hdr 6, .chunk x⟩ = true ∧ findColl (leaveIdle far) 0 1 3 = none ∧ far.coll.openC = [] ∧
      SMap.look 0 far.coll.seq 1 ≤ 3 ∧ 3 < SMap.look 0 far.coll.seq 1 + 8 ∧ reaches far 0 ⟨hdr 6, .chunk x⟩ = true) := by decide +kernel

def store0 : MemMsg := { mem0 with op := 1, opseq := 0, addr := 0x4000000001030000, size := 8, data := [1, 2, 3, 4, 5, 6, 7, 8] }
def copied : CopyMsg := { copy0 with units := 2, daddr := 0x4000000001040000, bytes := 64, crc := crc32c (List.replicate 64 0) }
def copying0 (landed : List Nat) : OpenOp := { kind := .copy 1 1 t1 2 t1 0 false, slot := some 0, ten := none, landed := landed }

theorem witness_FrameEffects_memory :
    (∃ x, pairFor (leaveIdle far) (hdr 9) store0 = some x ∧ x.ops = [] ∧ store0.opseq = x.next ∧ memShapeOk store0 = true ∧ tierOf store0.addr.toNat < 2 ∧ padFree far store0.addr.toNat = true ∧
      inWindow far (hdr 9).part store0.addr.toNat 8 = true ∧ writeBlocked store0.addr.toNat 8 (leaveIdle far) = false ∧ reaches far 0 ⟨hdr 9, .mem store0⟩ = true ∧
      reaches far 0 ⟨hdr 13, .bulk [store0]⟩ = true ∧ (hdr 13).part = (hdr 9).part ∧ (pairFor (leaveIdle far) (hdr 13) store0).isSome = true ∧
      SMap.find x.ops 0 = none ∧ (0 + 65536 - x.next) % 65536 < 32768 ∧ reaches far 0 ⟨hdr 9, .mem { store0 with op := 13 }⟩ = true) ∧
    (let s : State := { far with part := [(0, { progL with ops := [load0 0] })] }; let m : MemMsg := { mem0 with opseq := 7, data := [9, 0, 0, 0, 0, 0, 0, 0] }
      m.rstat = 0 ∧ findRemote (leaveIdle s) 0 1 7 = some (load0 0) ∧ respBlocked (hdr 10) m (leaveIdle s) = false ∧ (load0 0).kind = .remote 1 7 (some 3) none 8 ∧ reaches s 0 ⟨hdr 10, .mem m⟩ = true) ∧
    (let a := copied.daddr.toNat; tierOf a < 2 ∧ inWindow (leaveIdle far) 0 a 64 = true ∧ crc32c (denseU 64 0 []) = copied.crc ∧ padFree (leaveIdle far) a = true ∧ writeBlocked a 64 (leaveIdle far) = false ∧
      reaches far 0 ⟨hdr 11, .copy copied⟩ = true) ∧
    (let s (l : List Nat) : State := { far with part := [(0, { progL with ops := [copying0 l] })] }; findCopy (leaveIdle (s [])) 0 1 1 = some (copying0 []) ∧ findCopy (leaveIdle (s [1])) 0 1 1 = some (copying0 [1]) ∧
      reaches (s []) 0 ⟨hdr 12, .copyRsp copied⟩ = true ∧ [0].length < copied.units ∧ copied.units ≤ [0, 1].length) := by
  refine ⟨⟨_, rfl, by decide +kernel⟩, by decide +kernel⟩

/-! ### What the messages do: operands that meet every clause -/

/-- A message with data, and the words of a collective's message for partition 0, axes 1, sequence 3. -/
def msg (kind cause data : Nat) : Tarra := sealTarra { tarraMsg kind with cause := cause, data := data }
def collMsg (kind st : Nat) : Tarra := msg kind 0 (collData 3 st 1 0)
def comes (s : State) (t : Tarra) : Bool := tarraOk t && reaches s 0 ⟨hdr 7, .tarra t none⟩
def decided0 : CollOut := { part := 0, axes := 1, seq := 3, status := stOk, rank := 0 }
def about (t : Tarra) (rank : Nat) : Tarra := sealTarra { t with rank := rank, inc := 1 }

theorem witness_EpochWaves_collectives :
    (let t := collMsg 16 stCheckFail; bitsOf 44 4 t.data = 0 ∧ bitsOf 40 4 t.data = 1 ∧ bitsOf 0 32 t.data = 3 ∧ bitsOf 32 8 t.data = stCheckFail ∧ stCheckFail ≠ stCollTimeout ∧ comes far t = true ∧
      collOuts far 0 1 = []) ∧
    (let s := { far with coll := { far.coll with decided := [decided0] } }; comes s (collMsg 16 stCheckFail) = true ∧ (collOuts s 0 1).find? (fun k => k.seq == 3) = some decided0) ∧
    (comes far (collMsg 17 0) = true ∧ far.coll.roots = [] ∧ (memberSet (leaveIdle far) 1).any (fun m => !([1] : List Nat).contains m) = true) ∧
    (let s := { far with coll := { far.coll with roots := [{ part := 0, axes := 1, seq := 3, done := (memberSet far 1).filter (· != 1) }] } }; comes s (collMsg 17 0) = true ∧
      (memberSet (leaveIdle s) 1).all (fun m => (1 :: (memberSet far 1).filter (· != 1)).contains m) = true) ∧
    (comes far (collMsg 18 0) = true ∧ findColl far 0 1 3 = none ∧ SMap.look 0 far.coll.seq (0 * 16 + 1) ≤ 3 ∧ far.coll.kept = []) ∧
    (comes (collAt coll0) (collMsg 18 0) = true ∧ findColl (collAt coll0) 0 1 3 = some coll0 ∧ coll0.started = true) := by decide +kernel

/-- The leader with a probe of rank 2 under way, and a port that raised it. -/
def probing : State := { far with tar := { far.tar with probes := [⟨2, 1, [4]⟩] }, port := SMap.put portsOn 3 { state := .up, peer := some peer0, record := some { identity := 5, inc := 1, rank := 2 }, suspect := true } }

theorem witness_EpochWaves_failures :
    (comes { far with ep := { far.ep with phase := 0 } } (about (msg 0 1 0) 2) = true ∧ far.ep.phase ≠ 0 ∧ SMap.find far.job.peers 2 = none) ∧
    (comes probing (about (msg 0 1 0) 2) = true ∧ probing.tar.probes.find? (fun y => y.rank == 2 && y.inc == 1) = some ⟨2, 1, [4]⟩ ∧ ([4] : List Nat).contains 1 = false) ∧
    (comes far (about (msg 0 1 0) 2) = true ∧ far.tar.probes = [] ∧ far.tar.failed.contains (2, 1) = false ∧ comes far (about (msg 0 2 0) 2) = true ∧ comes far (about (msg 0 5 0) 2) = true) ∧
    comes far (msg 3 0 0) = true ∧
    (comes probing (about (msg 4 0 0) 2) = true ∧ probing.tar.probes.find? (fun y => y.rank == 2) = some ⟨2, 1, [4]⟩) ∧
    (comes probing (about (msg 1 0 0) 2) = true ∧ (portOf probing 3).record = some { identity := 5, inc := 1, rank := 2 } ∧ (portOf probing 3).suspect = true ∧ (portOf probing 3).state = .up) ∧
    (let s : State := { far with fab := { far.fab with coord := 1 } }; tarraOk (msg 2 4 0) = true ∧ reaches s 0 ⟨sealHdr { hdr 7 with destCoord := 1, destRank := 1 }, .tarra (msg 2 4 0) none⟩ = true ∧ isIssuer s = false ∧ s.ep.phase ≠ 0) ∧
    ((msg 2 4 0).data.testBit 0 = false ∧ (msg 2 4 0).data.testBit 2 = false ∧ comes { far with ep := { far.ep with phase := 0 } } (msg 2 4 0) = true) ∧ comes far (about (msg 15 0 0) 2) = true := by decide +kernel

def run2 : Rebuild := { run0 with failed := 2, target := 0, spread := true }

theorem witness_EpochWaves_reports :
    (current far (tarraMsg 7) = true ∧ isIssuer far = true ∧ far.tar.issuer.taking = false ∧ ([5, 7, 8, 10, 22].all fun k => comes far (tarraMsg k)) = true) ∧
    (rebOf (rebuilding run2) 2 = some run2 ∧ run2.spread = true ∧ plansRun (rebuilding run2) run2 = true ∧ (1 : Nat) ≠ runRank run2 ∧ comes (rebuilding run2) (about (msg 13 0 0) 2) = true ∧
      comes (rebuilding run2) (about (msg 21 0 0) 2) = true) ∧
    (rebOf far 2 = none ∧ comes far (about (msg 13 0 0) 2) = true) ∧
    (let t := tarraMsg 20; comes far t = true ∧ far.job.exchanged = false ∧ reaches far 0 ⟨hdr 7, .tarra t (some (.identity 5))⟩ = true ∧ reaches far 0 ⟨hdr 7, .tarra t (some .done)⟩ = true ∧
      reaches far 0 ⟨hdr 7, .tarra t (some (.step 0 { cls := 3, op := 0, hyper := [], micro := [], ins := [], outs := [], masks := [] }))⟩ = true) := by decide +kernel
theorem witness_EpochWaves_lost :
    (let s : State := { far with grp := [(0, { grpOf far 0 with lost := true })] }; let t := tarraMsg 19; let hit := (slotsOn s).filter fun sl => (grpOf s sl).rank0 == t.rank && (grpOf s sl).axis == t.data % 4
      hit ≠ [] ∧ (∀ sl ∈ hit, (grpOf s sl).lost = true) ∧ s.fab.floods.contains (floodKey t) = false ∧ comes s t = true) ∧
    (let t := sealTarra { tarraMsg 19 with attempt := 1 }; let hit := (slotsOn far).filter fun sl => (grpOf far sl).rank0 == t.rank && (grpOf far sl).axis == t.data % 4
      0 ∈ hit ∧ (grpOf far 0).lost = false ∧ far.coll.openC = [] ∧ (t.epoch = far.ep.epoch ∧ t.attempt ≠ far.ep.attempt) ∧ (∀ x ∈ far.part, x.2.ops = [] ∧ x.2.long = none ∧ x.2.cur = none ∧ x.2.wait = none) ∧
      comes far t = true) := by decide +kernel

/-! ### What a granule writes: a running instruction of each kind -/

/-- A long instruction at its first granule of the number given, on n elements. -/
def longOf (cls op : Nat) (f : FmtT) (x2 : Word) (n total : Nat) : Long := { cls := cls, op := op, f := f, x2 := x2, key := 0, total := total, count := 0, extent := n, step := false, unstarted := false }
/-- It runs in partition 0 of a block without coded regions, with publication entry 0, page 0 held once, and a mask of which eight elements are active. -/
def runningL (l : Long) : State :=
  { on { progL with bound := false, long := some l, seq := .long } with
    reg := { base.reg with table := [(3, { tier := 1, base := 0x8000, units := 32, owner := 0, cls := 6, format := 0, valid := true })] }
    page := { recs := [(0, { ref := 1 })] }, pub := lab.pub, mem := [(0x4000000001006000, 0xFF)] }
def granReady (l : Long) : Bool :=
  let s := runningL l
  let v := engineStarts false (lockNext 0 (recordStep 0 l s))
  match (partOf v 0).long with
  | some l' => coreUp s && { l' with ins := l.ins } == l && granuleStarted v 0 l' && !v.upd.lockWait.contains 0 && coreMaskOf v 0 != 0 && decide (l.count < l.total) && cleanMemory s &&
      (s.part.all fun y => y.2.wait.isNone)
  | none => false
/-- The conditions of plainWrites, over the elements that a walk has. -/
def plainRun (l : Long) (place : Nat → Nat) (ws : Writes) : Bool :=
  let s := runningL l
  let outs := longOuts (partOf s 0) l
  (ws.all fun w => plainWrite s w.1 w.2.length && (!anyBound s || decide (tierOf w.1 < 2))) && (List.range l.extent).all fun k => (unitsAt s outs l.extent place k).isEmpty
theorem plainRun_plainWrites (l : Long) (place : Nat → Nat) (ws : Writes) (h : plainRun l place ws = true) :
    plainWrites (runningL l) l (longOuts (partOf (runningL l) 0) l) place ws := by
  simp only [plainRun, Bool.and_eq_true, List.all_eq_true, List.mem_range, List.isEmpty_iff, Bool.or_eq_true, Bool.not_eq_true', decide_eq_true_eq] at h
  refine ⟨fun w hw => ⟨(h.1 w hw).1, fun hb => ?_⟩, fun k => ?_⟩
  · rcases (h.1 w hw).2 with h' | h'
    · simp [h'] at hb
    · exact h'
  · by_cases hk : l.extent ≤ k
    · simp [unitsAt, hk]
    · exact h.2 k (by omega)
def insOf (l : Long) : List Desc := longIns (partOf (runningL l) 0) l
def outsOf (l : Long) : List Desc := longOuts (partOf (runningL l) 0) l
def masksOf (l : Long) : List Desc := longMasks (partOf (runningL l) 0) l.cls l.op (insOf l) (outsOf l)
def spanOf (l : Long) : Nat × Nat := granSpan (runningL l) l.cls l.op (masksOf l) (longWalk (runningL l) 0 l.cls l.op l.x2 (insOf l) (outsOf l)) l.count
def activeOf (l : Long) : List Nat := (span (spanOf l).1 (spanOf l).2).filter (active (runningL l) (masksOf l))
/-- A ready instruction whose writes are plain. -/
def runs (l : Long) (ws : List Desc → Desc → Desc → Nat → Nat → State → Writes) : Bool :=
  granReady l && plainRun l id (ws (masksOf l) ((insOf l).headD {}) ((outsOf l).headD {}) (spanOf l).1 (spanOf l).2 (runningL l))

theorem witness_GranuleEndKeepsProgress_tensor :
    runs (longOf 2 0 (fD 0 1 0 0) (sec2Word s2) 32 1) moveOut = true ∧ runs (longOf 2 1 (fD 4 1 0 0) (sec2Word s2) 32 1) convertOut = true ∧ fmtMx (dFmt ((outsOf (longOf 2 1 (fD 4 1 0 0) (sec2Word s2) 32 1)).headD {})) = false ∧
    (let l := longOf 2 2 (fD 4 1 0 0) (sec2Word s2) 32 1; runs l (fun _ _ o _ _ s => (activeOf l).map fun k => elemWrite o k (gReg (partOf s 0) 1).toNat) = true) ∧
    (let l := longOf 2 4 { fD 5 0 0 0 with ten := true, tally := 3 } (sec2Word { s2 with xfill := true }) 32 1; runs l (fun ms i o e n s => (expandOut true ms i o e n 0 s).1) = true ∧ (activeOf l).length = 8) ∧
    runs (longOf 2 8 (fD 0 1 0 0) (sec2Word s2) 32 1) (fun ms i _ e n s => publishOut 0 ms i e n s) = true := by decide +kernel
/-- COMPRESS of eight of 32 elements, at its last granule and before it. -/
theorem witness_GranuleEndKeepsProgress_compress :
    ∀ t ∈ [1, 2], let l := longOf 2 3 (fD 0 5 0 0) (sec2Word s2) 32 t
      granReady l = true ∧ (activeOf l).length = 8 ∧ plainRun l (packedPlace (runningL l) (masksOf l) 0 (spanOf l).1) (compressOut (masksOf l) ((insOf l).headD {}) ((outsOf l).headD {}) (spanOf l).1 (spanOf l).2 0 (runningL l)).1 = true := by
  decide +kernel
theorem witness_GranuleEndKeepsProgress_pages :
    let l := longOf 2 10 (fD 0 9 0 0) (sec2Word { s2 with pop := 1 }) 4 1
    let s := runningL l
    granReady l = true ∧ (activeOf l).length = 4 ∧ (pageOps 0 1 ((activeOf l).map (readElem s ((insOf l).headD {}))) s).2 = stOk ∧ s.page.seals = [] := by decide +kernel
theorem witness_GranuleEndKeepsProgress_lanes :
    (let l := longOf 3 0 (fD 0 1 2 0) (sec34Word s34) 32 1; runs l (fun ms _ o e n s => (ewOut 0 0 (laneTyOf 0) ms (insOf l) o e n s).1) = true) ∧
    (let l := longOf 3 1 (fD 0 1 2 0) (sec34Word s34) 32 1; runs l (fun _ _ o _ _ _ => (activeOf l).map fun k => elemWrite o k 0) = true) ∧
    (∀ op ∈ [0, 1, 2], let l := longOf 4 op (fD 0 0 1 2) (sec34Word { s34 with e3 := true }) 32 1; runs l (fun _ _ _ _ _ _ => (activeOf l).flatMap fun k => (outsOf l).map fun d => elemWrite d k 0) = true) ∧
    (let l := longOf 4 3 (fD 0 0 1 2) (sec34Word s34) 32 1; runs l (fun _ _ _ _ _ _ => (activeOf l).flatMap fun k => (outsOf l).map fun d => elemWrite d k 0) = true) ∧
    (let l := longOf 5 0 (fD 11 0 0 0) (sec5Word s5) 32 1; runs l (fun _ i o _ _ s => (activeOf l).map fun k => elemWrite o k (readElem s o k ^^^ readElem s i k)) = true) ∧
    granReady (longOf 5 1 (fD 11 0 0 0) (sec5Word s5) 32 1) = true := by decide +kernel
/-- The last granule of a FILL that ends well, with a tally, and one of a COMPRESS that ran out of room. -/
theorem witness_GranuleEndKeepsProgress_last :
    (let l := longOf 2 2 { fD 4 1 0 0 with ten := true, tally := 3 } (sec2Word s2) 32 1
      let v := engineStarts false (lockNext 0 (recordStep 0 l (runningL l)))
      granReady l = true ∧ l.count + 1 = l.total ∧ isInstr (partOf (runningL l) 0) = false ∧
      (match granule 0 l v with
        | .go t => (partOf t 0).long.isSome
        | _ => false) = true) ∧
    (let l := { longOf 2 3 (fD 6 5 0 0) (sec2Word s2) 32 2 with count := 1, result := 5 }; dCount ((outsOf l).headD {}) < 4 + 1 ∧ l.count + 1 = l.total) := by decide +kernel

/-! ### Further clauses -/

/-- A partition that owns no memory window reaches nothing; its access is aligned, in T1 and in T2, with and without a bound partition. -/
theorem witness_ScalarAccessRefused_outside :
    (let s := on { withG prog 2 t1 with mwin := [], bound := true }; insnReady s 0 0 false = true ∧ noCodedWork s = true ∧ t1.toNat % 8 = 0 ∧ inWindow s 0 t1.toNat 8 = false ∧ inWindow s 0 t1.toNat 48 = false ∧
      anyBound s = true ∧ tierOf t1.toNat < 2) ∧
    (let s := on { withG prog 2 t2 with mwin := [] }; insnReady s 0 0 false = true ∧ noCodedWork s = true ∧ t2.toNat % 8 = 0 ∧ inWindow s 0 t2.toNat 8 = false ∧ inWindow s 0 t2.toNat 48 = false ∧ anyBound s = false) := by decide +kernel
theorem witness_ScalarLoads_poison :
    let s := { on (withG prog 2 t1) with poison := [t1.toNat] }
    insnReady s 0 0 false = true ∧ noCodedWork s = true ∧ t1.toNat % 8 = 0 ∧ inWindow s 0 t1.toNat 48 = true ∧ tierOf t1.toNat = 1 ∧ tapFree s = true ∧
      (s.poison.any fun l => decide (l < t1.toNat + 48 ∧ t1.toNat < l + 64)) = true := by decide +kernel
/-- PC past the code area, and at a second word, with and without a current command. -/
theorem witness_ControlTransferAndSpecials_stop :
    (let s := on { prog with pc := 100 }; atBoundary s 0 = true ∧ (partOf s 0).image = some img ∧ codeAt img (partOf s 0).pc = false ∧ (partOf s 0).cur = none) ∧
    (let s := on { prog with image := some { img with second := [11] }, pc := 11, cur := some cur0 }; atBoundary s 0 = true ∧ codeAt { img with second := [11] } (partOf s 0).pc = false ∧
      codeAt img (partOf s 0).pc = true ∧ (partOf s 0).cur = some cur0) := by decide +kernel
theorem witness_WaitInstructions_epochs :
    (let s := { on prog with ep := { base.ep with limit := true } }; insnReady s 0 0 false = true ∧ s.ep.limit = true) ∧ ((on prog).ep.limit = false ∧ (on prog).ep.phase = 0) ∧
    (let s := on { prog with flushing := true, wait := none }; insnReady s 0 0 false = true ∧ (partOf s 0).flushing = true) := by decide +kernel
/-- An expiry that is missed: the timer is periodic and its last expiry has not been taken. -/
theorem witness_TimerExpiry_missed :
    let s := on { prog with timer := [(0, { en := true, periodic := true, evt := true, expired := true, missed := 4095, period := 40, deadline := 100 })] }
    vigilUp s = true ∧ s.clk.pwrGood = true ∧ (timerOf (partOf s 0) 0).en = true ∧ ((timerOf (partOf s 0) 0).periodic && (timerOf (partOf s 0) 0).expired) = true := by decide +kernel
theorem witness_EventTaken_never :
    (let x := { alarmed with image := some { img with entries := [0, 0, 0, 4] } }; entryOf { img with entries := [0, 0, 0, 4] } 2 = none ∧ canTake x = false) ∧
    (let x := { alarmed with cur := some { cur0 with instr := true } }; isInstr x = true ∧ canTake x = false) ∧ canTake { alarmed with seq := .noImage } = false ∧ canTake { alarmed with seq := .handler } = false ∧
    coreUp (on alarmed) = true := by decide +kernel
theorem witness_PrefetchArms_tally : tenOk arming 0 { fT with ten := true, tally := 3 } = true ∧ tenOf { fT with ten := true, tally := 3 } = some 3 ∧ tenOk arming 0 fT = true := by decide +kernel
/-- CALL without an image and while a program runs, an ADMIN command without ADMIN, and LOAD whose interface is held. -/
theorem witness_CommandGate_rows :
    (frontCmd (.call 0 1 cmd 3 ⟨0, 0, 0, 0, 0, 0⟩) = some (0, 1, cmd, .call 3 ⟨0, 0, 0, 0, 0, 0⟩) ∧ onSequencer (.call 3 ⟨0, 0, 0, 0, 0, 0⟩) = true ∧ (partOf (on queued) 0).seq = .noImage ∧
      frontReady (on { queued with image := some img, seq := .run }) 0 1 = true) ∧
    (frontCmd (.teardown 0 1 cmd) = some (0, 1, cmd, .teardown) ∧ adminCmd .teardown = true ∧ (partOf (on queued) 0).admin = false ∧ onSequencer .teardown = false) ∧
    (let s := { on { queued with cq := [(1, { cq0 with base := 0xC000000000000000 })] } with pwr := { base.pwr with padHold := 1 } };
      frontReady s 0 1 = true ∧ (cmdAddrs (.load t1)).all (fun a => padFree s a.toNat) = false) ∧
    (let s := on queued; frontReady s 0 1 = true ∧ { cmd with fence := true }.fence = true ∧ (sqOf (partOf (on { queued with sq := [(1, { outstanding := 1 })] }) 0) 1).outstanding ≠ 0) := by decide +kernel
theorem witness_LoadCommands_area :
    cmdStarts (on { queued with admin := true }) 0 1 cmd (.slottab 0xA000000) = true ∧ inBlockArea (0xA000000 : Word).toNat 8192 = true ∧ inBlockArea t1.toNat 8192 = false ∧
    (let s := { on { queued with admin := true } with part := [(0, { queued with admin := true, bound := true })] }; cmdStarts s 0 1 cmd (.slottab t1) = true ∧ anyBound s = true ∧ cleanRead s t1.toNat 8192 = true) := by decide +kernel
/-- Queues 1 and 2 with a CALL each at their heads; the sequencer served queue 1 last, or queue 0. -/
def calling (lastQ : Nat) : State :=
  memWrite 0x4000000005000000 (cmdBytes cmd (.call 3 ⟨0, 0, 0, 0, 0, 0⟩))
    (on { prog with seq := .dispatch, lastQ := lastQ, cq := [(1, cq0), (2, cq0)]
                    sq := [(1, { en := true, base := 0x4000000005000000, sizeM1 := 7, tail := 1 }), (2, { en := true, base := 0x4000000005000000, sizeM1 := 7, tail := 1 })] })
theorem witness_CommandFetchTakesTheHead_turn :
    ∀ q ∈ [0, 1], let s := calling q
      coreRuns s = true ∧ unlogged s = true ∧ s.pwr.entering = none ∧ sqHas (partOf s 0) 1 = true ∧ cqRoom (partOf s 0) 1 = true ∧ cleanRead s 0x4000000005000000 64 = true ∧
      (forced (partOf s 0) 1 true).isSome = false ∧ onSequencer (sqEntry s 0 1).2 = true ∧ startGate s 0 1 (sqEntry s 0 1).1 (sqEntry s 0 1).2 = .start ∧ servedNext s 0 = some (q + 1) := by decide +kernel
theorem witness_QueueRegisterWrites_pads :
    let s := { on queued with pwr := { base.pwr with padHold := 1 } }
    ctlReady s = true ∧ (sqOf (partOf s 0) 1).en = true ∧ padFree s (cqOf (partOf s 0) 1).base.toNat = false := by decide +kernel
theorem witness_IdleWakesAndPads_nothing_owed : ctlReady base = true ∧ base.side.owed = false ∧ base.rcd.buf = [] ∧ base.rcd.waits = false ∧ base.part = [] := by decide +kernel
theorem witness_RecordAndReplay_held :
    let s := { logging with pwr := { logging.pwr with padHold := 8 } }
    ctlReady s = true ∧ logAreaOk s = true ∧ hostHeld s = true ∧ s.mode.chervil = false := by decide +kernel
theorem witness_AlertsAndTheLine_waits :
    (let s := { base with side := { base.side with owed := true }, pwr := { base.pwr with padHold := 16 } }; portsUp s = true ∧ sideHeld s = true ∧ ctlReady s = true ∧ s.side.owed = true ∧ s.side.stuck = false ∧
      s.pwr.state = .run ∧ s.rcd.waits = false ∧ s.part = []) ∧
    (let s := { base with side := { base.side with queue := [(1, 4)] } }; s.pending = [] ∧ portsUp s = true ∧ s.pwr.entering = none ∧ (s.port.all fun x => x.2.cal.isNone) = true ∧ s.tar.issuer.tied = [] ∧
      s.exp.restoring = none ∧ s.side.queue = [(1, 4)] ∧ s.side.lost = false ∧ sideHeld s = false) := by decide +kernel
theorem witness_PortsAndLinks_training :
    portClocks (portIs { state := .align }) = true ∧ (portOf (portIs { state := .align }) 7).state = .align ∧
    (let x := portOf (portIs { state := .up, lane := (List.range 17).map fun l => (l, if l = 16 then .spare else if l < 12 then .failed else .active) }) 7;
      laneOf x 15 = .active ∧ laneOf x 16 = .spare ∧ ((List.range 16).filter fun j => decide (j ≠ 15) && laneOf x j != .failed).length = 3) := by decide +kernel
theorem witness_EpochWaves_marks :
    (let s : State := { far with tar := { far.tar with heard := [(4, 2, 1)], counted := [(2, 1)] }, fab := { far.fab with coord := 1 } }; let t := about (msg 2 4 0) 2
      s.tar.heard.contains (t.cause, t.rank, t.inc) = true ∧ isIssuer s = false ∧ tarraOk t = true ∧ s.tar.counted.contains (t.rank, t.inc) = true ∧
      reaches s 0 ⟨sealHdr { hdr 7 with destCoord := 1, destRank := 1 }, .tarra t none⟩ = true) ∧
    far.tar.heard = [] ∧ (far.tar.issuer.taking = false ∧ current far (tarraMsg 22) = true ∧ isIssuer far = true ∧ comes far (tarraMsg 22) = true) ∧
    (let s : State := { far with mode := { far.mode with tableNext := some [1] } }; current s (tarraMsg 11) = true ∧ comes s (tarraMsg 11) = true ∧ s.fab.floods.contains (floodKey (tarraMsg 11)) = false) := by decide +kernel
theorem witness_EngineEvents_mover :
    (let m : MapEnt := { region := 0, tensor := 0, first := 0, elems := 2048 }; moverFree draining draining.exp.part.val = true ∧ 4096 * (draining.exp.unit + 1) < storedLen (cutRegion draining m.region) m.elems ∧
      cleanMemory draining = true ∧ draining.upd.lock = []) ∧
    (let s := { draining with mode := { draining.mode with chervil := true } }; coreUp s = true ∧ s.exp.state = 2 ∧ s.exp.stream = false ∧ moverFree s s.exp.part.val = false) := by decide +kernel
theorem witness_TapWritesAndSurroundings_records :
    (recFree (pageOf (paged {}) 0) = true ∧ (paged {}).page.seals = [] ∧ coreUp (paged {}) = true ∧ unlogged (paged {}) = true) ∧
    (let s := paged { lost := true }; recFree (pageOf s 0) = false ∧ (pageOf s 0).ref < 65535 ∧ (pageOf s 0).ref = 0) ∧ recFree { ref := 65535 } = false ∧
    (let s := on { prog with pf := { armed := true, layers := 1, entries := [{ flyingE with flying := false }] } }; moverFree s 0 = true ∧ pendLocked flyingE.dst.toNat flyingE.size s = false) ∧
    (let r : Region := { coded0 with exportPend := true }; let s : State := { on { prog with pf := { armed := true, layers := 1, entries := [flyingE] } } with
        reg := { base.reg with table := [(0, r)] }, upd := { base.upd with lock := [(0, t1.toNat)] } };
      pendLocked flyingE.dst.toNat flyingE.size s = true ∧ (partOf s 0).pf.entries[0]? = some flyingE) := by decide +kernel

end Sys2Proof.Tests
end

section
/-! Proofs about the wait instructions of class 8 (spec/10 Table 10.12, R309): what SWAIT does on a slot that is not busy. -/

namespace Sys2Proof.Machine

/-- A partition whose sequencer has entered WAIT, as waitOn leaves it before it looks whether the wait has ended. -/
def enterWait (w : Wait) (x : PartSt) : PartSt := { x with wait := some w, seq := .wait }

/-- A wait on a slot that is not busy ends at once with the slot's status (R309). -/
theorem waitOn_slot_free {s : State} {p n : Nat} (hb : (slotOf (partOf s p) n).busy = false) :
    waitOn p (.slot n) s = instrEnd p 8 (slotOf (partOf s p) n).status 0 (modPart p (enterWait (.slot n)) s) := by
  have hslot : slotOf (enterWait (.slot n) (partOf s p)) n = slotOf (partOf s p) n := rfl
  have hwait : (enterWait (.slot n) (partOf s p)).wait = some (.slot n) := rfl
  change wakePart p (modPart p (enterWait (.slot n)) s) = _
  simp [wakePart, waitResult, hwait, hslot, hb]

/-- What a status also shows changes no wait. -/
theorem noteCheck_wait (p st : Nat) (s : State) : (partOf (noteCheck p st s) p).wait = (partOf s p).wait := by
  unfold noteCheck
  split
  · simp [setEpend]
  · split <;> rfl

/-- A program waits for nothing once its instruction has ended. -/
theorem instrEnd_wait {s : State} {p cls st : Nat} (r : Word) (h : isInstr (partOf s p) = false) :
    (partOf (instrEnd p cls st r s) p).wait = none := by
  simp [instrEnd, h, noteCheck_wait]

/-- An instruction of a program that ends RANK_UNMAPPED is counted in TKJ_XLAT_STAT.UNMAPPED, up to 65,535 (spec/08 R218). -/
theorem instrEnd_unmapped_count {s : State} {p cls : Nat} (r : Word) (h : isInstr (partOf s p) = false) :
    (instrEnd p cls stUnmapped r s).fab.unmapped = min (s.fab.unmapped + 1) 0xFFFF := by
  have hne : stUnmapped ≠ stCheckFail := by decide
  simp [instrEnd, noteCheck, h, hne]

/-- SWAIT at its program's instruction waits on slot IMM[4:0] (Table 10.12). -/
theorem exec_swait_ready {p : Part} {f : FmtR} {s : State} (h : insnReady s p.val f.pred f.pneg = true) :
    exec (.swait p f) s = .next (waitInsn p.val 8 (.slot (f.imm.toNat % 32)) s) := by
  have hx : exec (.swait p f) s = .next (issueR p.val 8 f (tallyOp p.val 0x08 f) s) := rfl
  rw [hx, issueR, issue_ready _ h]
  simp [tallyOp, bitsOf]

/-- SWAIT on a slot that ended RANK_UNMAPPED ends RANK_UNMAPPED itself, and so counts in TKJ_XLAT_STAT.UNMAPPED. -/
theorem exec_swait_unmapped {p : Part} {f : FmtR} {s : State} (h : insnReady s p.val f.pred f.pneg = true)
    (hb : (slotOf (partOf s p.val) (f.imm.toNat % 32)).busy = false)
    (hst : (slotOf (partOf s p.val) (f.imm.toNat % 32)).status = stUnmapped) :
    ∃ t, exec (.swait p f) s = .next t ∧ t.fab.unmapped = min (s.fab.unmapped + 1) 0xFFFF := by
  obtain ⟨hprog, -, -⟩ := insnReady_program h
  have hentered : isInstr (partOf (modPart p.val (enterWait (.slot (f.imm.toNat % 32))) s) p.val) = false := by
    rw [partOf_modPart]
    exact hprog
  refine ⟨_, exec_swait_ready h, ?_⟩
  rw [waitInsn, waitOn_slot_free hb, hst, if_neg (by rw [instrEnd_wait _ hentered]; simp)]
  exact instrEnd_unmapped_count 0 hentered

/-- Where nothing but a partition's record differs, the count of RANK_UNMAPPED is the same. -/
theorem onlyPart_unmapped {p : Nat} {s t : State} (h : onlyPart p s t) : t.fab.unmapped = s.fab.unmapped := by
  obtain ⟨hrest, -⟩ := h
  rw [← hrest]

/-- The block after reset, with a program of partition 0 at word 1 of its image and its slot 0 ended RANK_UNMAPPED: the outcome of a collective that a member reported so (spec/06 R173). -/
def slotEndedUnmapped : State :=
  { State.reset with part := [(0, {
      image := some { id := 7, version := 1, words := [], entries := [], micros := [], codeOff := 1, codeEnd := 100, second := [] }
      seq := .run, pc := 1, slots := [(0, { busy := false, status := stUnmapped })] })] }

/-- SWAIT s0, under the predicate p0 that always holds. -/
def swaitSlot0 : FmtR := { pred := 0, pneg := false, rd := 0, ra := 0, rb := 0, imm := 0 }

theorem slotEndedUnmapped_ready : insnReady slotEndedUnmapped 0 swaitSlot0.pred swaitSlot0.pneg = true := by decide

/-- Refutes O18: the frame of SWAIT fails on a slot whose status is RANK_UNMAPPED. There the model's SWAIT counts in TKJ_XLAT_STAT.UNMAPPED, which is no part of the partition's record. In the counterexample the count goes from 0 to 1. -/
theorem not_waitInstructions : ¬ Obligations.WaitInstructions := by
  unfold Obligations.WaitInstructions
  intro h
  obtain ⟨-, hswait, -⟩ := h 0 swaitSlot0 slotEndedUnmapped slotEndedUnmapped_ready
  have hfree : (slotOf (partOf slotEndedUnmapped 0) (swaitSlot0.imm.toNat % 32)).busy = false := by decide
  have hst : (slotOf (partOf slotEndedUnmapped 0) (swaitSlot0.imm.toNat % 32)).status = stUnmapped := by decide
  obtain ⟨t, hexec, hframe, -⟩ : ∃ t, exec (.swait 0 swaitSlot0) slotEndedUnmapped = .next t ∧ onlyPart 0 slotEndedUnmapped t ∧ _ := by
    simpa [hfree] using hswait
  obtain ⟨u, hexec', hcount⟩ := exec_swait_unmapped (p := 0) slotEndedUnmapped_ready hfree hst
  obtain rfl : t = u := Host.Outcome.next.inj (hexec.symm.trans hexec')
  have hzero : slotEndedUnmapped.fab.unmapped = 0 := by decide
  rw [onlyPart_unmapped hframe, hzero] at hcount
  exact absurd hcount (by decide)

end Sys2Proof.Machine
end

section
/-! Proofs about open instructions (spec/09 R267): what the wait for a busy slot leaves, what acceptance leaves, and when AUDIT, REBUILD and the collectives are accepted (spec/10 R299, R300, R302). -/

namespace Sys2Proof.Machine

/-! ### The gate of an open instruction -/

theorem slotGate_free {p cls : Nat} {f : FmtT} {k : State → State} {s : State}
    (hf : (partOf s p).flushing = false) (hb : (slotOf (partOf s p) f.slot.val).busy = false) :
    slotGate p cls f k s = k s := by
  simp [slotGate, flushGate, hf, hb]

theorem slotGate_busy {p cls : Nat} {f : FmtT} {k : State → State} {s : State}
    (hf : (partOf s p).flushing = false) (hb : (slotOf (partOf s p) f.slot.val).busy = true) :
    slotGate p cls f k s = modPart p (enterWait (.slotFree f.slot.val)) s := by
  simp only [slotGate, flushGate, hf, hb, Bool.false_and, Bool.false_eq_true, if_false, if_true]
  rfl

/-- An update of one partition's record is seen nowhere else. -/
theorem onlyPart_modPart (p : Nat) (g : PartSt → PartSt) (s : State) : onlyPart p s (modPart p g s) :=
  ⟨rfl, fun _ hk => partOf_modPart_ne hk g s⟩

/-- An open instruction at its program's word waits for its slot, where that is busy, and does nothing else. -/
theorem open_waits_for_busy_slot {p : Part} {cls : Nat} {f : FmtT} {k : State → State} {i : Instr} {s : State}
    (hexec : exec i s = .next (settle (issueT p.val cls f (slotGate p.val cls f k) s)))
    (hready : insnReady s p.val f.pred f.pneg = true) (hflush : (partOf s p.val).flushing = false)
    (hbusy : (slotOf (partOf s p.val) f.slot.val).busy = true) :
    ∃ t, exec i s = .next (settle t) ∧ onlyPart p.val s t ∧
      partOf t p.val = { partOf s p.val with wait := some (.slotFree f.slot.val), seq := .wait } := by
  refine ⟨modPart p.val (enterWait (.slotFree f.slot.val)) s, ?_, onlyPart_modPart .., partOf_modPart ..⟩
  rw [hexec, issueT, issue_ready _ hready, slotGate_busy hflush hbusy]

/-! ### Acceptance -/

/-- Two updates of a partition that agree on its record are one. -/
theorem modPart_congr {p : Nat} {g h : PartSt → PartSt} {s : State} (e : g (partOf s p) = h (partOf s p)) : modPart p g s = modPart p h s := by
  rw [modPart, modPart, e]

/-- A partition whose program has had an open instruction accepted (R267). -/
def openedPart (f : FmtT) (o : OpenOp) (x : PartSt) : PartSt :=
  { atPc x (x.pc + 2) with
    st := stOk, ops := x.ops ++ [{ o with cur := none }], retry := none
    slots := SMap.put x.slots f.slot.val { slotOf x f.slot.val with busy := true } }

/-- Acceptance changes the record of the program's partition alone. -/
theorem openTake_program {p cls : Nat} (f : FmtT) (o : OpenOp) {s : State}
    (hprog : isInstr (partOf s p) = false) (hcls : classWords cls = 2) :
    openTake p cls f o s = modPart p (openedPart f o) s := by
  have hcheck : stOk ≠ stCheckFail := by decide
  have hunmapped : stOk ≠ stUnmapped := by decide
  have hstill : ∀ x : PartSt, x.cur = (partOf s p).cur → isInstr x = false := fun x hx => by rw [isInstr, hx]; exact hprog
  simp only [openTake, modSlot, instrEnd, noteCheck, modPart_modPart, partOf_modPart, hstill, hcheck, hunmapped, hcls, Bool.false_eq_true, if_false]
  exact modPart_congr (by simp [openedPart, atPc, onward, slotOf, hprog])

/-- Where memory stands and the partitions are as an acceptance leaves them, an open instruction was accepted, whatever its engine has queued. -/
theorem accepted_of_openedPart {p : Nat} {f : FmtT} {o : OpenOp} {s u : State} (hpart : u.part = (modPart p (openedPart f o) s).part)
    (hmem : u.mem = s.mem) (hslot : o.slot = some f.slot.val) (hten : o.ten = tenOf f) : accepted p f s u := by
  have hu : ∀ k, partOf u k = partOf (modPart p (openedPart f o) s) k := fun k => by rw [partOf, hpart]; rfl
  have hself : partOf u p = openedPart f o (partOf s p) := (hu p).trans (partOf_modPart ..)
  unfold accepted
  rw [hself]
  refine ⟨?busy, rfl, rfl, rfl, rfl, rfl, rfl, ⟨_, rfl, hslot, hten⟩, ?slots, ?parts, hmem⟩
  case busy => simp [openedPart, slotOf]
  case slots => exact fun k hk => SMap.look_put_ne _ _ _ hk
  case parts => exact fun k hk => (hu k).trans (partOf_modPart_ne hk ..)

/-! ### AUDIT and REBUILD -/

section
variable {p : Part} {f : FmtT} {s : State}
  (hready : insnReady s p.val f.pred f.pneg = true) (hflush : (partOf s p.val).flushing = false)
  (hfree : (slotOf (partOf s p.val) f.slot.val).busy = false)
include hready hflush hfree

/-- The stripes that an AUDIT names and that have a parity, as they join the queue of the audit engine (R299). -/
def auditedStripes (s : State) (p : Nat) (f : FmtT) (y : Sec5) : List (Nat × Nat × Nat × Nat) :=
  ((List.range (gStripes (grpOf s y.gslot.val))).filter fun st =>
    decide ((gReg (partOf s p) y.freg.val).toNat ≤ st ∧ st < (gReg (partOf s p) y.freg.val).toNat + (gReg (partOf s p) y.nreg.val).toNat) &&
      (parityAt s y.gslot.val st 0).isSome).map fun st => (auditKey p f.slot.val, y.gslot.val, st, 2)

theorem audit_accepted (y : Sec5) (hbound : (partOf s p.val).bound = true) (hgrp : (grpOf s y.gslot.val).en = true) (hcoding : codingOn s = true)
    (hten : tenOk s p.val f = true) (hengine : engineRefused s p.val [3] = false) :
    ∃ u, exec (.audit p f y) s = .next (settle (auditsEnd (auditGo u))) ∧ accepted p.val f s u ∧
      u.aud.jobs = s.aud.jobs ++ auditedStripes s p.val f y := by
  obtain ⟨hprog, -, -⟩ := insnReady_program hready
  have hexec : exec (.audit p f y) s = .next (settle (issueT p.val 5 f (auditIssue p.val f y) s)) := rfl
  rw [hexec, issueT, issue_ready _ hready, auditIssue, slotGate_free hflush hfree]
  simp only [hbound, hgrp, hcoding, hten, hengine, openTake_program f _ hprog (cls := 5) rfl, Bool.not_true, Bool.or_false, Bool.false_eq_true, if_false]
  exact ⟨_, rfl, accepted_of_openedPart rfl rfl rfl rfl, rfl⟩

theorem rebuild_accepted (y : Sec5) (hbound : (partOf s p.val).bound = true) (hruns : s.reb.runs.filter (runHere s) ≠ [])
    (hten : tenOk s p.val f = true) (hengine : engineRefused s p.val [3] = false) :
    ∃ u, accepted p.val f s u ∧ exec (.rebuild p f y) s = .next (settle (if isStepPart s p.val then
      (s.reb.runs.filter (runHere s)).foldl (fun s r => sendReady r.failed (putRun { r with joined := true } s)) u else u)) := by
  obtain ⟨hprog, -, -⟩ := insnReady_program hready
  have hexec : exec (.rebuild p f y) s = .next (settle (issueT p.val 5 f (rebuildIssue p.val f) s)) := rfl
  have hstep (o : OpenOp) : isStepPart (modPart p.val (openedPart f o) s) p.val = isStepPart s p.val := by
    simp [isStepPart, openedPart, atPc]
  refine ⟨modPart p.val (openedPart f { kind := .rebuild ((s.reb.runs.filter (runHere s)).map (·.failed)), slot := some f.slot.val, ten := tenOf f }) s,
    accepted_of_openedPart rfl rfl rfl rfl, ?_⟩
  rw [hexec, issueT, issue_ready _ hready, rebuildIssue, slotGate_free hflush hfree]
  simp only [hbound, List.isEmpty_eq_false_iff.mpr hruns, hten, hengine, openTake_program f _ hprog (cls := 5) rfl, hstep, Bool.not_true, Bool.or_false, Bool.false_eq_true, if_false]

/-! ### Collectives -/

/-- The inputs of a collective on this member: none on a member of a broadcast other than its root. -/
def collInputs (s : State) (p op : Nat) (f : FmtT) (y : Sec6) : List Desc :=
  if op = 3 ∧ ((memberSet s y.axes.val).findIdx? (· == servedRank s)).getD 0 ≠ y.root.val then []
  else ([f.sa.val, f.sb.val, f.sc.val, y.in3.val].take (y.nin.val + 1)).map (dReg (partOf s p))

theorem collective_accepted {i : Instr} {op : Nat} (y : Sec6)
    (hexec : exec i s = .next (settle (issueT p.val 6 f (collIssue p.val op f y) s)))
    (hbound : (partOf s p.val).bound = true) (htag : (partOf s p.val).tag = s.job.tag)
    (hepoch : collEpoch s (fld 0 32 (gReg (partOf s p.val) y.ereg.val)) = none)
    (hok : collOk s p.val op f y (collInputs s p.val op f y) (dReg (partOf s p.val) f.dst.val) (memberSet s y.axes.val) = true)
    (hengine : engineRefused s p.val (collEngines op (collOrdered s f y)) = false)
    (hwin : ((dReg (partOf s p.val) f.dst.val :: collInputs s p.val op f y).all fun d => inWindow s p.val (descExtent d).1 (descExtent d).2) = true)
    (hpad : ((dReg (partOf s p.val) f.dst.val :: collInputs s p.val op f y).all fun d => padFree s d.w0.toNat) = true) :
    ∃ u c, exec i s = .next (settle (startWaiting u)) ∧ accepted p.val f s u ∧ u.coll.openC = s.coll.openC ++ [c] ∧
      c.part = p.val ∧ c.axes = y.axes.val ∧ c.seq = SMap.look 0 s.coll.seq (p.val * 16 + y.axes.val) ∧ c.op = op ∧
      c.epoch = fld 0 32 (gReg (partOf s p.val) y.ereg.val) ∧ c.members = memberSet s y.axes.val ∧ c.slot = f.slot.val ∧
      SMap.look 0 u.coll.seq (p.val * 16 + y.axes.val) = (SMap.look 0 s.coll.seq (p.val * 16 + y.axes.val) + 1) % 2 ^ 32 := by
  obtain ⟨hprog, -, -⟩ := insnReady_program hready
  rw [hexec, issueT, issue_ready _ hready, collIssue, slotGate_free hflush hfree]
  unfold collInputs at hok hwin hpad
  simp only [hbound, htag, hepoch, hok, hengine, hwin, hpad, openTake_program f _ hprog (cls := 6) rfl, bne_self_eq_false, Option.isSome_none, reduceCtorEq,
    Bool.not_true, Bool.or_false, Bool.false_eq_true, if_false]
  exact ⟨_, _, rfl, accepted_of_openedPart rfl rfl rfl rfl, rfl, rfl, rfl, rfl, rfl, rfl, rfl, rfl, SMap.look_put ..⟩

end

/-- Settles O27: each open instruction is its slot's gate before its checks, and acceptance is one update of its partition's record. -/
theorem openInstructionsAccepted : Obligations.OpenInstructionsAccepted := by
  unfold Obligations.OpenInstructionsAccepted
  intro p f s hready hflush
  refine ⟨fun y => ⟨?audit_waits, ?rebuild_waits, ?audit, ?rebuild⟩, fun y => ⟨?rs_waits, ?ag_waits, ?ar_waits, ?bc_waits, ?rs, ?ag, ?ar, ?bc⟩⟩
  case audit => exact fun hfree => audit_accepted hready hflush hfree y
  case rebuild => exact fun hfree => rebuild_accepted hready hflush hfree y
  case rs | ag | ar | bc => exact fun hfree => collective_accepted hready hflush hfree y rfl
  all_goals exact open_waits_for_busy_slot rfl hready hflush

end Sys2Proof.Machine
end

section
/-! Proofs about requests during a power state's entry (spec/16 R435): what a write of TKJ_PWR_CTL does by its REQ, and the ways by which such a write comes. -/

namespace Sys2Proof.Machine

/-! ### Requests during an entry -/

/-- The entry of state e that a power record shows goes on as it was. -/
def entryStands (e : PwrState) (x y : Pwr) : Prop :=
  y.entering = some e ∧ y.step = x.step ∧ y.req = x.req ∧ y.state = x.state ∧ y.pendingWake = x.pendingWake ∧ y.quiet = x.quiet

/-- The entry of state e is at the step it was at, with the control port's wake pending. -/
def entryWoken (e : PwrState) (x y : Pwr) : Prop :=
  y.entering = some e ∧ y.step = x.step ∧ y.state = x.state ∧ y.pendingWake = x.pendingWake ||| 2

theorem reqState_during_entry {e : PwrState} {s : State} (t : PwrState) (he : s.pwr.entering = some e) : reqState t s = s := by
  simp [reqState, he]

/-- Wake source 1 is pending during the entry of any state, also where its row of Table 16.5 has no such state. -/
theorem wake_controlPort_during_entry {e : PwrState} {s : State} (he : s.pwr.entering = some e) :
    wake 1 s = { s with pwr := { s.pwr with pendingWake := s.pwr.pendingWake ||| 2 } } := by
  simp [wake, he]

theorem reqRunOp_during_entry {e : PwrState} {s : State} (he : s.pwr.entering = some e) :
    reqRunOp s = { s with pwr := { s.pwr with req := 0, pendingWake := s.pwr.pendingWake ||| 2 } } :=
  wake_controlPort_during_entry he

/-! ### A write of TKJ_PWR_CTL -/

/-- What a write of TKJ_PWR_CTL that reaches REQ has done before REQ acts: REFUSED is cleared, and the plain fields are taken (Table 16.12). -/
def pwrCtlFields (mask v : Word) (s : State) : State :=
  let d := putField 16 16 anyVal mask v (putField 8 1 anyVal mask v (deferRead s.pwr.ctl))
  { s with pwr := { s.pwr with
      refused := !bit 63 (v &&& mask) && s.pwr.refused, ctl := deferWrite (anyBound s) (instant s) s.pwr.ctl d } }

/-- What REQ does by its code (Table 16.12). -/
def reqAct (code : Nat) (s : State) : State :=
  match code with
  | 0 => reqRunOp s
  | 2 => reqState .sleep s
  | 3 => reqState .deep s
  | 4 => reqState .off s
  | _ => s

/-- A write that reaches REQ takes the other fields first; REQ then acts by its code. -/
theorem pwrCtlWrite_eq_reqAct {mask : Word} (v : Word) (s : State) (hmask : bit 0 mask = true) :
    pwrCtlWrite mask v s = reqAct (fld 0 3 v) (pwrCtlFields mask v s) := by
  cases hclear : bit 63 (v &&& mask) <;> simp only [pwrCtlWrite, pwrCtlFields, hmask, hclear] <;> rfl

theorem reqAct_state_during_entry {e : PwrState} {s : State} {code : Nat} (he : s.pwr.entering = some e) (hcode : code = 2 ∨ code = 3 ∨ code = 4) :
    reqAct code s = s := by
  obtain rfl | rfl | rfl := hcode
  all_goals exact reqState_during_entry _ he

theorem pwrCtlWrite_entryStands {e : PwrState} {mask v : Word} {s : State} (he : s.pwr.entering = some e) (hmask : bit 0 mask = true)
    (hreq : fld 0 3 v = 2 ∨ fld 0 3 v = 3 ∨ fld 0 3 v = 4) : entryStands e s.pwr (pwrCtlWrite mask v s).pwr := by
  rw [pwrCtlWrite_eq_reqAct v s hmask, reqAct_state_during_entry (s := pwrCtlFields mask v s) he hreq]
  exact ⟨he, rfl, rfl, rfl, rfl, rfl⟩

theorem pwrCtlWrite_entryWoken {e : PwrState} {mask v : Word} {s : State} (he : s.pwr.entering = some e) (hmask : bit 0 mask = true)
    (hreq : fld 0 3 v = 0) : entryWoken e s.pwr (pwrCtlWrite mask v s).pwr := by
  rw [pwrCtlWrite_eq_reqAct v s hmask, hreq, reqAct, reqRunOp_during_entry (s := pwrCtlFields mask v s) he]
  exact ⟨he, rfl, rfl, rfl⟩

/-! ### The ways of a write -/

/-- A control-port write of a register outside the record unit acts on the state as it finds it. -/
theorem ctlInput_ready {s : State} {off : Nat} (a : Acc) (v : Word) (f : Bool → State → State) (hready : ctlReady s = true) (hoff : off ≠ 0x1C0000) :
    ctlInput off a v f s = f s.sram.splitArm (ctlSeen s) := by
  obtain ⟨hup, hlog⟩ : (portsUp s && s.clk.ready) = true ∧ unlogged s = true := by simpa [ctlReady] using hready
  rw [ctlInput, if_pos hup, if_neg hoff, external_unlogged _ _ _ _ _ _ hlog]
  rfl

theorem exec_registerWrite_pwrCtl {s : State} (a : Acc) (v : Word) (hready : ctlReady s = true) :
    exec (.registerWrite 0x10000 a v) s = .next (pwrCtlWrite (accMask a) (accVal a v) (ctlSeen s)) :=
  congrArg Host.Outcome.next (ctlInput_ready a v _ hready (by decide))

/-- The state as an I2C write of TKJ_PWR_CTL finds it: the target has taken its pointer (spec/17 R457). -/
def i2cPointed (off : Nat) (s : State) : State := { s with side := { s.side with target := false, ptr := off } }

theorem exec_i2cWrite_pwrCtl {s : State} (v : Word) (hready : ctlReady s = true) (hheld : sideHeld s = false) :
    exec (.i2cWrite 0x10000 v) s = .next (i2cNext (pwrCtlWrite (accMask .full) v (i2cPointed 0x10000 s))) := by
  obtain ⟨⟨hup, hclk⟩, hlog⟩ : (portsUp s = true ∧ s.clk.ready = true) ∧ unlogged s = true := by simpa [ctlReady] using hready
  have hpoint : i2cPoint 0x10000 s = (some 0x10000, i2cPointed 0x10000 s) := by
    simp [i2cPoint, hup, hheld, i2cPointed]
  have hwrite : sideWriteIn 5 0 0x10000 true v (i2cPointed 0x10000 s) = sideWrite 0x10000 true v (i2cPointed 0x10000 s) :=
    external_unlogged (s := i2cPointed 0x10000 s) 7 5 _ _ [] _ hlog
  have hside : sideWrite 0x10000 true v (i2cPointed 0x10000 s) = writeAt false false 0x10000 .full v (i2cPointed 0x10000 s) := by
    simp [sideWrite, sideMayWrite, i2cPointed, hclk]
  have hexec : exec (.i2cWrite 0x10000 v) s = .next (i2cWriteOp 0x10000 v s) := rfl
  rw [hexec, i2cWriteOp, hpoint]
  exact congrArg (fun t => Host.Outcome.next (i2cNext t)) (hwrite.trans hside)

theorem bit_zero_accMask {a : Acc} (ha : a ≠ .high) : bit 0 (accMask a) = true := by
  cases a with
  | high => exact absurd rfl ha
  | full | low => decide

/-- REQ lies in the half that every such access holds. -/
theorem req_accVal {a : Acc} (v : Word) (ha : a ≠ .high) : fld 0 3 (accVal a v) = fld 0 3 v := by
  cases a with
  | high => exact absurd rfl ha
  | full => rfl
  | low =>
    have hlow : (v &&& 0xFFFFFFFF).toNat = v.toNat % 2 ^ 32 := by
      rw [BitVec.toNat_and]
      exact Nat.and_two_pow_sub_one_eq_mod v.toNat 32
    simp only [fld, bitsOf, accVal, hlow]
    omega

/-! ### The entry under requests and writes -/

section
variable {e : PwrState} {s : State} (hready : ctlReady s = true) (he : s.pwr.entering = some e)
include hready he

theorem request_ignored_during_entry {i : Instr} {code : Word} {t : PwrState}
    (hexec : exec i s = .next (ctlInput 0x10000 .low code (fun _ => reqState t) s)) : exec i s = .next (ctlSeen s) := by
  rw [hexec, ctlInput_ready _ _ _ hready (by decide), reqState_during_entry (s := ctlSeen s) t he]

theorem reqRun_wakes_during_entry :
    ∃ t, exec .reqRun s = .next t ∧ entryWoken e s.pwr t.pwr ∧ { t with pwr := (ctlSeen s).pwr } = ctlSeen s := by
  refine ⟨_, congrArg Host.Outcome.next (ctlInput_ready .low 0 (fun _ => reqRunOp) hready (by decide)), ?_⟩
  rw [reqRunOp_during_entry (s := ctlSeen s) he]
  exact ⟨⟨he, rfl, rfl, rfl⟩, rfl⟩

theorem registerWrite_entryStands {a : Acc} {v : Word} (ha : a ≠ .high) (hreq : fld 0 3 v = 2 ∨ fld 0 3 v = 3 ∨ fld 0 3 v = 4) :
    ∃ t, exec (.registerWrite 0x10000 a v) s = .next t ∧ entryStands e s.pwr t.pwr :=
  ⟨_, exec_registerWrite_pwrCtl a v hready, pwrCtlWrite_entryStands (s := ctlSeen s) he (bit_zero_accMask ha) (by rwa [req_accVal v ha])⟩

theorem registerWrite_entryWoken {a : Acc} {v : Word} (ha : a ≠ .high) (hreq : fld 0 3 v = 0) :
    ∃ t, exec (.registerWrite 0x10000 a v) s = .next t ∧ entryWoken e s.pwr t.pwr :=
  ⟨_, exec_registerWrite_pwrCtl a v hready, pwrCtlWrite_entryWoken (s := ctlSeen s) he (bit_zero_accMask ha) (by rwa [req_accVal v ha])⟩

theorem i2cWrite_entryStands {v : Word} (hheld : sideHeld s = false) (hreq : fld 0 3 v = 2 ∨ fld 0 3 v = 3 ∨ fld 0 3 v = 4) :
    ∃ t, exec (.i2cWrite 0x10000 v) s = .next t ∧ entryStands e s.pwr t.pwr :=
  ⟨_, exec_i2cWrite_pwrCtl v hready hheld, pwrCtlWrite_entryStands (s := i2cPointed 0x10000 s) he (bit_zero_accMask (by decide)) hreq⟩

theorem i2cWrite_entryWoken {v : Word} (hheld : sideHeld s = false) (hreq : fld 0 3 v = 0) :
    ∃ t, exec (.i2cWrite 0x10000 v) s = .next t ∧ entryWoken e s.pwr t.pwr :=
  ⟨_, exec_i2cWrite_pwrCtl v hready hheld, pwrCtlWrite_entryWoken (s := i2cPointed 0x10000 s) he (bit_zero_accMask (by decide)) hreq⟩

end

/-- Settles O43: a command or a write comes to REQ alone, which an entry in progress answers by nothing for a state and by the control port's wake for RUN. -/
theorem requestDuringEntryIgnored : Obligations.RequestDuringEntryIgnored := by
  unfold Obligations.RequestDuringEntryIgnored
  intro s e hready he
  have low : Acc.low ≠ .high := by decide
  have full : Acc.full ≠ .high := by decide
  refine ⟨request_ignored_during_entry hready he rfl, request_ignored_during_entry hready he rfl, request_ignored_during_entry hready he rfl,
    reqRun_wakes_during_entry hready he, fun v => ⟨fun hreq => ?state, fun hreq => ?run⟩⟩
  case state =>
    exact ⟨registerWrite_entryStands hready he low hreq, registerWrite_entryStands hready he full hreq,
      fun hheld => i2cWrite_entryStands hready he hheld hreq⟩
  case run =>
    exact ⟨registerWrite_entryWoken hready he low hreq, registerWrite_entryWoken hready he full hreq,
      fun hheld => i2cWrite_entryWoken hready he hheld hreq⟩

end Sys2Proof.Machine
end

section
/-! Laws of fields: what each bit and the field itself of a word are after the field is replaced, and after a counter field is bumped. -/

namespace Sys2Proof

theorem testBit_field {lo w b v : Nat} : (v % 2 ^ w * 2 ^ lo).testBit b = (decide (lo ≤ b ∧ b < lo + w) && v.testBit (b - lo)) := by
  rw [Nat.testBit_mul_two_pow, Nat.testBit_mod_two_pow, ← Bool.and_assoc, ← Bool.decide_and]
  congr 2
  rw [eq_iff_iff]
  omega

theorem bit_maskOf {lo w b : Nat} (hb : b < 64) : bit b (maskOf lo w) = decide (lo ≤ b ∧ b < lo + w) := by
  have hones : (2 ^ w - 1) % 2 ^ w = 2 ^ w - 1 := Nat.mod_eq_of_lt (Nat.pred_lt (Nat.two_pow_pos w).ne')
  have hin : lo ≤ b ∧ b < lo + w → b - lo < w := by omega
  rw [bit, maskOf, BitVec.getLsbD_ofNat, ← hones, testBit_field, Nat.testBit_two_pow_sub_one]
  simpa [hb] using hin

theorem bit_setFld {lo w b : Nat} (v : Nat) (x : Word) (hb : b < 64) :
    bit b (setFld lo w v x) = if lo ≤ b ∧ b < lo + w then v.testBit (b - lo) else bit b x := by
  have hmask : (maskOf lo w).getLsbD b = decide (lo ≤ b ∧ b < lo + w) := bit_maskOf hb
  simp only [bit, setFld, BitVec.getLsbD_or, BitVec.getLsbD_and, BitVec.getLsbD_not, BitVec.getLsbD_ofNat, testBit_field, hmask, hb]
  split
  case isTrue hin => simp [hin]
  case isFalse hout => simp only [hout, decide_true, decide_false, Bool.not_false, Bool.true_and, Bool.and_true, Bool.false_and, Bool.or_false]

theorem testBit_fld {lo w i : Nat} (x : Word) : (fld lo w x).testBit i = (decide (i < w) && bit (lo + i) x) := by
  simp [fld, bitsOf, bit, BitVec.getLsbD, Nat.testBit_mod_two_pow, Nat.testBit_div_two_pow, Nat.add_comm]

theorem fld_setFld {lo w v : Nat} (x : Word) (hfit : lo + w ≤ 64) (hv : v < 2 ^ w) : fld lo w (setFld lo w v x) = v := by
  refine Nat.eq_of_testBit_eq fun i => ?_
  rw [testBit_fld]
  by_cases hi : i < w
  · rw [bit_setFld v x (by omega)]
    simp [hi]
  · have hhigh : v.testBit i = false :=
      Nat.testBit_lt_two_pow (hv.trans_le (Nat.pow_le_pow_right (by decide) (by omega)))
    simp [hi, hhigh]

/-- A counter field rises by 1 and stays at its greatest value (spec/15 R428). -/
theorem fld_bump {lo w : Nat} (x : Word) (hfit : lo + w ≤ 64) : fld lo w (bump lo w x) = min (fld lo w x + 1) (2 ^ w - 1) := by
  have hpos : 0 < 2 ^ w := Nat.two_pow_pos w
  exact fld_setFld x hfit (by omega)

theorem bit_bump_outside {lo w b : Nat} (x : Word) (hb : b < 64) (hout : b < lo ∨ lo + w ≤ b) : bit b (bump lo w x) = bit b x :=
  (bit_setFld _ x hb).trans (if_neg (by omega))

end Sys2Proof
end

section
/-! Proofs about errors of the sideband ports (spec/17 R453, R459): a service port error only drops its frame and is counted, a bus error only ends the target's transaction and is counted. -/

namespace Sys2Proof.Machine

/-! ### The count of violation class 5 -/

/-- Violation class 5 has one more count, saturating; every other class has the count it had. -/
def class5Counted (s t : State) : Prop :=
  SMap.look 0 t.viol 5 = min (SMap.look 0 s.viol 5 + 1) 0xFFFFFFFF ∧ ∀ k, k ≠ 5 → SMap.look 0 t.viol k = SMap.look 0 s.viol k

theorem sideBad_class5Counted (s : State) : class5Counted s (sideBad s) :=
  ⟨SMap.look_put .., fun _ hk => SMap.look_put_ne _ _ _ hk⟩

/-! ### Errors of the service port -/

/-- Where TKJ_SVC_STAT counts an error: its 16 bits from here. -/
def errorField : SvcError → Nat
  | .short => 48
  | .badCmd => 16
  | .extra => 32

/-- The frame that the port holds after an error: only after EXTRA the completed one stands (Table 17.4). -/
def frameAfter (e : SvcError) (s : State) : Option (SvcFrame × List Word) :=
  match e with
  | .short | .badCmd => none
  | .extra => s.side.frame

/-- The sideband record after an error of a frame. -/
def sideAfter (e : SvcError) (s : State) : Side :=
  { s.side with frame := frameAfter e s, svcStat := bump (errorField e) 16 s.side.svcStat }

/-- The state after an error of a frame. -/
def frameError (e : SvcError) (s : State) : State := sideBad { s with side := sideAfter e s }

/-- What the error of a frame may change: its two counts and the frame held. -/
def frameErrorOnly (e : SvcError) (s t : State) : Prop :=
  class5Counted s t ∧
  fld (errorField e) 16 t.side.svcStat = min (fld (errorField e) 16 s.side.svcStat + 1) 0xFFFF ∧
  (∀ b, b < 64 → b < errorField e ∨ errorField e + 16 ≤ b → bit b t.side.svcStat = bit b s.side.svcStat) ∧
  t.side = { s.side with svcStat := t.side.svcStat, frame := frameAfter e s } ∧ { t with side := s.side, viol := s.viol } = s

theorem errorField_fits (e : SvcError) : errorField e + 16 ≤ 64 := by
  cases e with
  | short | badCmd | extra => decide

theorem frameError_only (e : SvcError) (s : State) : frameErrorOnly e s (frameError e s) :=
  ⟨sideBad_class5Counted { s with side := sideAfter e s }, fld_bump _ (errorField_fits e), fun _ hb hout => bit_bump_outside _ hb hout, rfl, rfl⟩

theorem countBadCmd_eq_frameError (s : State) : countBadCmd s = frameError .badCmd s := rfl

theorem svcMisplaced_of {f : SvcFrame}
    (h : f.offset % (if f.size64 then 8 else 4) ≠ 0 ∨ 0x1000000 ≤ f.offset + (if f.size64 then 8 else 4) * f.count.val) : svcMisplaced f = true := by
  rw [svcMisplaced, Bool.or_eq_true, bne_iff_ne, decide_eq_true_iff]
  exact h

section
variable {s : State} (hup : portsUp s = true)
include hup

theorem exec_svcFrameError_up (e : SvcError) : exec (.svcFrameError e) s = .next (frameError e s) := by
  have hexec : exec (.svcFrameError e) s = .next (svcErrorOp e s) := rfl
  cases e with
  | short | badCmd | extra =>
    simp only [hexec, svcErrorOp, hup, Bool.not_true, Bool.false_eq_true, if_false]
    rfl

section
variable {f : SvcFrame} (hmis : svcMisplaced f = true)
include hmis

theorem exec_svcAddressWord_misplaced : exec (.svcAddressWord f) s = .next (frameError .badCmd s) := by
  have hexec : exec (.svcAddressWord f) s = .next (svcAddressOp f s) := rfl
  simp [hexec, svcAddressOp, hup, hmis, countBadCmd_eq_frameError]

theorem exec_svcWrite_misplaced (data : List Half) : exec (.svcWrite f data) s = .next (frameError .badCmd s) := by
  have hexec : exec (.svcWrite f data) s = .next (svcWriteOp f data s) := rfl
  simp [hexec, svcWriteOp, hup, hmis, countBadCmd_eq_frameError]

theorem exec_svcRead_misplaced (hheld : sideHeld s = false) : exec (.svcRead f) s = .next (frameError .badCmd s) := by
  have hexec : exec (.svcRead f) s = .next (svcReadOp f s) := rfl
  simp [hexec, svcReadOp, hup, hmis, hheld, countBadCmd_eq_frameError]

end

/-! ### A bus error of the management bus -/

theorem exec_i2cBusError_free (hheld : sideHeld s = false) :
    exec .i2cBusError s = .next (sideBad { s with side := { s.side with target := false, mgtStat := bump 0 8 s.side.mgtStat } }) := by
  have hexec : exec .i2cBusError s = .next (i2cErrorOp s) := rfl
  simp [hexec, i2cErrorOp, hup, hheld]

end

/-- Settles O53: each error of a frame is one `frameError`, and a bus error one update of the port's record, counted in class 5. -/
theorem sidebandErrorsWriteNothing : Obligations.SidebandErrorsWriteNothing := by
  unfold Obligations.SidebandErrorsWriteNothing
  intro s hup
  refine ⟨⟨_, exec_svcFrameError_up hup .short, frameError_only .short s⟩, ⟨_, exec_svcFrameError_up hup .badCmd, frameError_only .badCmd s⟩,
    ⟨_, exec_svcFrameError_up hup .extra, frameError_only .extra s⟩, fun f data hbad => ?misplaced, fun hheld => ?busError⟩
  case misplaced =>
    have hmis : svcMisplaced f = true := svcMisplaced_of hbad
    exact ⟨⟨_, exec_svcAddressWord_misplaced hup hmis, frameError_only .badCmd s⟩, ⟨_, exec_svcWrite_misplaced hup hmis data, frameError_only .badCmd s⟩,
      fun hheld => ⟨_, exec_svcRead_misplaced hup hmis hheld, frameError_only .badCmd s⟩⟩
  case busError =>
    exact ⟨_, exec_i2cBusError_free hup hheld,
      sideBad_class5Counted { s with side := { s.side with target := false, mgtStat := bump 0 8 s.side.mgtStat } },
      rfl, fld_bump _ (by decide), fun _ hb hlt => bit_bump_outside _ hlt (.inr hb), rfl, rfl⟩

end Sys2Proof.Machine
end
